-- ==== Sys2Proof/Word.lean ====
section
/-! DEFINITION. The words of the machine and the operand records that instructions, stream commands, site
operation words and device events carry (R6, R27, R30, R41, R47). Field accessors and arithmetic live in
`Sys2Proof/Machine/`. -/

namespace Sys2Proof

/-- One byte of storage. -/
abbrev Byte := BitVec 8
/-- A 16-bit word. -/
abbrev W16 := BitVec 16
/-- A 32-bit word: a scalar instruction, a record field. -/
abbrev W32 := BitVec 32
/-- A 64-bit word: a scalar register, a site operation word. -/
abbrev W64 := BitVec 64
/-- A 128-bit stream command template (R41). -/
abbrev W128 := BitVec 128
/-- The number of a scalar register s0 to s31 (R81). -/
abbrev Reg := BitVec 5

/-- One accepted stream command: the handle of its task and its number in the order of acceptance (R42, R202). -/
structure CmdRef where
  task : W64
  id   : Nat
deriving DecidableEq, Repr

/-- The fields of a 128-bit stream command word other than its opcode (R41): the four flags, the TID and port
fields, the scope, the fixed operands [94:64] and the two patch slots. -/
structure CmdArgs where
  fs    : Bool
  ff    : Bool
  fw    : Bool
  fc    : Bool
  ta    : BitVec 6
  tb    : BitVec 6
  tc    : BitVec 6
  scope : BitVec 3
  fixed : BitVec 31
  p0    : W32
  p1    : W32
deriving DecidableEq, Repr

/-- One site of the region of one task, by its image row and image column (R12, R74). -/
structure SiteRef where
  task : W64
  row  : Nat
  col  : Nat
deriving DecidableEq, Repr

/-- The fields of a 64-bit site operation word other than its opcode and kind (R47). -/
structure SiteArgs where
  dst  : BitVec 4
  a    : BitVec 6
  b    : BitVec 6
  c    : BitVec 6
  ty   : BitVec 4
  rnd  : BitVec 3
  mods : BitVec 26
deriving DecidableEq, Repr

/-- One image port of one task (R14, R28). -/
structure PortRef where
  task : W64
  port : Nat
deriving DecidableEq, Repr

/-- One host queue packet: its queue and the byte index of its header unit (R313). -/
structure PktRef where
  q   : Nat
  idx : Nat
deriving DecidableEq, Repr

/-- A mailbox command entry: eight 64-bit words (R327). -/
structure MbCmd where
  w0 : W64
  w1 : W64
  w2 : W64
  w3 : W64
  w4 : W64
  w5 : W64
  w6 : W64
  w7 : W64
deriving DecidableEq, Repr

/-- What an arriving Elcel message asks for (R374, R375): a read, a plain or masked write, or any operation that is
performed at a synchronisation engine (R227). Operations are numbered as R38 numbers them; `off` and `len` of `binit`
are the range of a counting object inside the same window. -/
inductive PeerOp where
  | read    (n : Nat)
  | write   (bytes : List Byte)
  | merge   (bytes masks : List Byte)
  | atom    (op : Nat) (size8 : Bool) (v cmp : W64)
  | atomr   (routine ctx : Nat) (v : W64)
  | sig     (op : Nat) (size8 : Bool) (v : W64)
  | binit   (counting : Bool) (expect : W32) (off len : Nat)
  | binv
  | arrive
  | testph  (tok : W64)
  | waitph  (tok : W64)
  | watch   (cmp : Nat) (size8 : Bool) (mask v : W64)
  | futrd   (size8 : Bool)
  | futwr   (size8 : Bool) (v : W64)
  | arrivec (phase : Option (BitVec 16)) (user : Byte) (fault : Bool)
  | waitc   (tok : W64)
  | cred    (op ty mode : Nat) (sat fz : Bool) (v : W32)
deriving DecidableEq, Repr

/-- A message arriving over Elcel: source device and its own number of the message, import window, offset, key,
whether it is at .sys, what it asks. -/
structure PeerMsg where
  src : Nat
  tag : Nat
  win : Nat
  off : Nat
  key : W64
  sys : Bool
  op  : PeerOp
deriving DecidableEq, Repr

/-- R149, R151: a ring partial as it travels: the fields of its header (KIND is 1, COUNT the number of values) and its
binary32 elements, at most 64. -/
structure RingMsg where
  wire  : BitVec 2
  group : Byte
  rank  : BitVec 12
  epoch : BitVec 16
  dest  : W64
  first : W64
  total : W64
  vals  : List W32
deriving DecidableEq, Repr

/-- What a ring partial carries beside its group, epoch, destination and first element (R149). -/
structure RingVals where
  wire  : BitVec 2
  rank  : BitVec 12
  total : W64
  vals  : List W32
deriving DecidableEq, Repr

/-- An access that another device's import table refused (R374): the reason, and its size, right and agent as the fault
record holds them (R365, R396). -/
structure RefusedAccess where
  reason : Nat
  size   : Nat
  right  : Nat
  agent  : Nat
deriving DecidableEq, Repr

/-- The kind of one guest access (R383). -/
inductive GuestRight where
  | read
  | write (bytes : List Byte)
deriving DecidableEq, Repr

/-- A guest access: site, context tag, virtual address, size, what it does; `save` marks a write to the tag's
save area, which alone is by physical address (R383); `stale` one that carries a translation the guest held before the
tag's last invalidation (R384). -/
structure GuestAcc where
  site  : Nat
  tag   : Nat
  va    : W64
  size  : Nat
  right : GuestRight
  save  : Bool
  stale : Bool
deriving DecidableEq, Repr

/-- A guest's answer to a preempt request (R387). -/
inductive GuestAnswer where
  | saved
  | completed
  | fault
deriving DecidableEq, Repr

/-- R450: a firmware or guest image as boot flash holds it: the Ed25519 public key and the signature that it carries, and
its body. -/
structure BootImage where
  key  : BitVec 256
  sig  : BitVec 512
  body : List Byte
deriving DecidableEq, Repr

/-- The outcome of authenticating an image (R389, R450). -/
inductive AuthResult where
  | accepted
  | keyMismatch
  | badSignature
deriving DecidableEq, Repr

/-- What bring-up finds outside the die: the firmware's image, whether the host offers CXL 3.1, and the images of the two
guest sites (R448). -/
structure BringUp where
  firmware : BootImage
  cxl      : Bool
  guest0   : BootImage
  guest1   : BootImage
deriving DecidableEq, Repr

/-- A driver's field of the device information block that has no row of its own (R449). -/
inductive DevField where
  | devno (v : BitVec 14)
  | mbcmd (v : W64)
  | mbrsp (v : W64)
  | mbidx (v : W64)
deriving DecidableEq, Repr

/-- What a memory read met on the way (R416 to R418): nothing, an error corrected in its stage, or one that the
stage could not correct, with the physical address. -/
inductive MemErr where
  | none
  | corrected (pa : Nat)
  | uncorrectable (pa : Nat)
deriving DecidableEq, Repr

end Sys2Proof
end

