-- ==== Sys2Proof/Syntax.lean ====
section
/-! DEFINITION. The one instruction type: a constructor for every row of spec/opcode_table.json. Scalar
instructions carry the fields of their 32-bit word (R30); a stream command the task and number of its acceptance and
the fields of its 128-bit word (R41); a site operation the site it stands on and the fields of its 64-bit word (R47);
a device event what distinguishes one occurrence of it from another. -/

namespace Sys2Proof

/-- Every step of the opcode table. Register fields are named d, a, b as R30 names rd, a, b; ta and tb are the
source bits of R31; at_ is the site a word stands on. Steps without an operand act on what the state holds next (the
oldest operation at a home, the next mailbox command); they stand last. -/
inductive Instr where
  /-- ADD (R90). -/
  | add (d a b : Reg) (ta tb : Bool)
  /-- SUB (R90). -/
  | sub (d a b : Reg) (ta tb : Bool)
  /-- AND (R90). -/
  | and (d a b : Reg) (ta tb : Bool)
  /-- OR (R90). -/
  | or (d a b : Reg) (ta tb : Bool)
  /-- XOR (R90). -/
  | xor (d a b : Reg) (ta tb : Bool)
  /-- SLL (R90). -/
  | sll (d a b : Reg) (ta tb : Bool)
  /-- SRL (R90). -/
  | srl (d a b : Reg) (ta tb : Bool)
  /-- SRA (R90). -/
  | sra (d a b : Reg) (ta tb : Bool)
  /-- SLT (R90). -/
  | slt (d a b : Reg) (ta tb : Bool)
  /-- SLTU (R90). -/
  | sltu (d a b : Reg) (ta tb : Bool)
  /-- MIN (R90). -/
  | min (d a b : Reg) (ta tb : Bool)
  /-- MAX (R90). -/
  | max (d a b : Reg) (ta tb : Bool)
  /-- MINU (R90). -/
  | minu (d a b : Reg) (ta tb : Bool)
  /-- MAXU (R90). -/
  | maxu (d a b : Reg) (ta tb : Bool)
  /-- MUL (R92). -/
  | mul (d a b : Reg) (ta tb : Bool)
  /-- MULH (R92). -/
  | mulh (d a b : Reg) (ta tb : Bool)
  /-- MULHU (R92). -/
  | mulhu (d a b : Reg) (ta tb : Bool)
  /-- DIV (R92). -/
  | div (d a b : Reg) (ta tb : Bool)
  /-- DIVU (R92). -/
  | divu (d a b : Reg) (ta tb : Bool)
  /-- REM (R92). -/
  | rem (d a b : Reg) (ta tb : Bool)
  /-- REMU (R92). -/
  | remu (d a b : Reg) (ta tb : Bool)
  /-- CLZ (R93). -/
  | clz (d a : Reg) (ta : Bool)
  /-- CTZ (R93). -/
  | ctz (d a : Reg) (ta : Bool)
  /-- POPC (R93). -/
  | popc (d a : Reg) (ta : Bool)
  /-- SEXT (R93). -/
  | sext (d a : Reg) (ta : Bool) (z : BitVec 2)
  /-- ZEXT (R93). -/
  | zext (d a : Reg) (ta : Bool) (z : BitVec 2)
  /-- MKE (R87). -/
  | mke (d : Reg)
  /-- FULL (R88). -/
  | full (d a : Reg)
  /-- ADDPC (R95). -/
  | addpc (d : Reg) (i : BitVec 21)
  /-- ADDI (R91). -/
  | addi (d a : Reg) (ta : Bool) (i : BitVec 15)
  /-- ANDI (R91). -/
  | andi (d a : Reg) (ta : Bool) (i : BitVec 15)
  /-- ORI (R91). -/
  | ori (d a : Reg) (ta : Bool) (i : BitVec 15)
  /-- XORI (R91). -/
  | xori (d a : Reg) (ta : Bool) (i : BitVec 15)
  /-- SLTI (R91). -/
  | slti (d a : Reg) (ta : Bool) (i : BitVec 15)
  /-- SLTIU (R91). -/
  | sltiu (d a : Reg) (ta : Bool) (i : BitVec 15)
  /-- SLLI (R91). -/
  | slli (d a : Reg) (ta : Bool) (h : BitVec 6)
  /-- SRLI (R91). -/
  | srli (d a : Reg) (ta : Bool) (h : BitVec 6)
  /-- SRAI (R91). -/
  | srai (d a : Reg) (ta : Bool) (h : BitVec 6)
  /-- BFX (R94). -/
  | bfx (d a : Reg) (ta : Bool) (w p : BitVec 6)
  /-- BFI (R94). -/
  | bfi (d a : Reg) (ta : Bool) (w p : BitVec 6)
  /-- LIH (R95). -/
  | lih (d : Reg) (i : BitVec 21)
  /-- LD (R184). -/
  | ld (d a : Reg) (ta : Bool) (z : BitVec 2) (o : BitVec 13)
  /-- LDA (R184). -/
  | lda (d a : Reg) (ta : Bool) (z : BitVec 2) (o : BitVec 13)
  /-- ST (R185). -/
  | st (b a : Reg) (ta tb : Bool) (z : BitVec 2) (o : BitVec 12)
  /-- STR (R185). -/
  | str (b a : Reg) (ta tb : Bool) (z : BitVec 2) (o : BitVec 12)
  /-- FENCE (R186). -/
  | fence (e f g h : Bool) (c : BitVec 3)
  /-- FLUSH (R187). -/
  | flush (a : Reg) (ta : Bool) (o : BitVec 15)
  /-- BEQ (R256). -/
  | beq (b a : Reg) (ta tb : Bool) (i : BitVec 14)
  /-- BNE (R256). -/
  | bne (b a : Reg) (ta tb : Bool) (i : BitVec 14)
  /-- BLT (R256). -/
  | blt (b a : Reg) (ta tb : Bool) (i : BitVec 14)
  /-- BGE (R256). -/
  | bge (b a : Reg) (ta tb : Bool) (i : BitVec 14)
  /-- BLTU (R256). -/
  | bltu (b a : Reg) (ta tb : Bool) (i : BitVec 14)
  /-- BGEU (R256). -/
  | bgeu (b a : Reg) (ta tb : Bool) (i : BitVec 14)
  /-- JAL (R257). -/
  | jal (d : Reg) (i : BitVec 21)
  /-- JALR (R257). -/
  | jalr (d a : Reg) (ta : Bool) (o : BitVec 13)
  /-- LOOP (R258). -/
  | loop (a : Reg) (ta : Bool) (l : BitVec 13)
  /-- PAUSE (R259). -/
  | pause (n : BitVec 13)
  /-- ATOM (R231). -/
  | atom (d a b : Reg) (ta tb : Bool) (o : BitVec 4) (z : Bool) (c : BitVec 3)
  /-- ATOMR (R233). -/
  | atomr (d a b : Reg) (ta tb : Bool) (n : BitVec 6) (c : BitVec 3)
  /-- RED (R231). -/
  | red (a b : Reg) (ta tb : Bool) (o : BitVec 4) (z : Bool) (c : BitVec 3)
  /-- BINIT (R241). -/
  | binit (a b : Reg) (ta tb : Bool) (c : BitVec 3)
  /-- BINV (R241). -/
  | binv (a : Reg) (ta : Bool) (c : BitVec 3)
  /-- ARRIVE (R238). -/
  | arrive (d a : Reg) (ta : Bool) (c : BitVec 3)
  /-- TESTPH (R241). -/
  | testph (d a b : Reg) (ta tb : Bool) (c : BitVec 3)
  /-- WAITPH (R241). -/
  | waitph (d a b : Reg) (ta tb : Bool) (c : BitVec 3)
  /-- SIGOP (R234). -/
  | sigop (d a b : Reg) (ta tb : Bool) (o : BitVec 3) (z : Bool) (c : BitVec 3)
  /-- WATCH (R245). -/
  | watch (d a b : Reg) (ta tb : Bool) (m : BitVec 4) (z : Bool) (c : BitVec 3)
  /-- FUTRD (R246). -/
  | futrd (d a : Reg) (ta : Bool) (z : Bool) (c : BitVec 3)
  /-- FUTWR (R246). -/
  | futwr (a b : Reg) (ta tb : Bool) (z : Bool) (c : BitVec 3)
  /-- SPAWN (R260). -/
  | spawn (d a b : Reg) (ta tb : Bool) (p : Bool) (r : BitVec 3)
  /-- DEPADD (R263). -/
  | depadd (a b : Reg) (ta tb : Bool)
  /-- DEPDEC (R263). -/
  | depdec (a b : Reg) (ta tb : Bool)
  /-- DONE (R265). -/
  | done (a : Reg) (ta : Bool)
  /-- SUSPEND (R265). -/
  | suspend (b : Reg) (tb : Bool)
  /-- ARM (R264). -/
  | arm (a b : Reg) (ta tb : Bool) (k : BitVec 4)
  /-- BOOK (R286). -/
  | book (d a b : Reg) (ta tb : Bool)
  /-- EXTEND (R287). -/
  | extend (d a : Reg) (ta : Bool)
  /-- RELEASE (R288). -/
  | release (a : Reg) (ta : Bool)
  /-- ISSUE (R42). -/
  | issue (d a b : Reg) (n : BitVec 11)
  /-- SRR (R400). -/
  | srr (d : Reg) (r : BitVec 12)
  /-- SRW (R400). -/
  | srw (a : Reg) (r : BitVec 12)
  /-- TRAP (R401). -/
  | trap (n : BitVec 12)
  /-- LATE_DELIVERY (R85). -/
  | lateDelivery (k : CmdRef)
  /-- CFG (R298). -/
  | cfg (k : CmdRef) (x : CmdArgs)
  /-- PBIND (R299). -/
  | pbind (k : CmdRef) (x : CmdArgs)
  /-- AGAFF (R300). -/
  | agaff (k : CmdRef) (x : CmdArgs)
  /-- AGIND (R301). -/
  | agind (k : CmdRef) (x : CmdArgs)
  /-- PSTART (R302). -/
  | pstart (k : CmdRef) (x : CmdArgs)
  /-- PSTOP (R302). -/
  | pstop (k : CmdRef) (x : CmdArgs)
  /-- PMARK (R304). -/
  | pmark (k : CmdRef) (x : CmdArgs)
  /-- TIDSET (R209). -/
  | tidset (k : CmdRef) (x : CmdArgs)
  /-- TIDCLR (R210). -/
  | tidclr (k : CmdRef) (x : CmdArgs)
  /-- CBAR (R211). -/
  | cbar (k : CmdRef) (x : CmdArgs)
  /-- COPY (R217). -/
  | copy (k : CmdRef) (x : CmdArgs)
  /-- COPYM (R220). -/
  | copym (k : CmdRef) (x : CmdArgs)
  /-- GATHER (R221). -/
  | gather (k : CmdRef) (x : CmdArgs)
  /-- SCATTER (R221). -/
  | scatter (k : CmdRef) (x : CmdArgs)
  /-- L2PUSH (R223). -/
  | l2push (k : CmdRef) (x : CmdArgs)
  /-- TFETCH (R224). -/
  | tfetch (k : CmdRef) (x : CmdArgs)
  /-- UNPIN (R226). -/
  | unpin (k : CmdRef) (x : CmdArgs)
  /-- MMA_E4M3 (R134). -/
  | mmaE4m3 (k : CmdRef) (x : CmdArgs)
  /-- MMA_E5M2 (R134). -/
  | mmaE5m2 (k : CmdRef) (x : CmdArgs)
  /-- MMA_BF16 (R134). -/
  | mmaBf16 (k : CmdRef) (x : CmdArgs)
  /-- MMA_F16 (R134). -/
  | mmaF16 (k : CmdRef) (x : CmdArgs)
  /-- MMA_E2M1 (R134). -/
  | mmaE2m1 (k : CmdRef) (x : CmdArgs)
  /-- MMA_L6 (R134). -/
  | mmaL6 (k : CmdRef) (x : CmdArgs)
  /-- MMAZ_E4M3 (R134). -/
  | mmazE4m3 (k : CmdRef) (x : CmdArgs)
  /-- MMAZ_E5M2 (R134). -/
  | mmazE5m2 (k : CmdRef) (x : CmdArgs)
  /-- MMAZ_BF16 (R134). -/
  | mmazBf16 (k : CmdRef) (x : CmdArgs)
  /-- MMAZ_F16 (R134). -/
  | mmazF16 (k : CmdRef) (x : CmdArgs)
  /-- MMAZ_E2M1 (R134). -/
  | mmazE2m1 (k : CmdRef) (x : CmdArgs)
  /-- MMAZ_L6 (R134). -/
  | mmazL6 (k : CmdRef) (x : CmdArgs)
  /-- MLOAD (R141). -/
  | mload (k : CmdRef) (x : CmdArgs)
  /-- MSTORE (R142). -/
  | mstore (k : CmdRef) (x : CmdArgs)
  /-- MSCALE (R144). -/
  | mscale (k : CmdRef) (x : CmdArgs)
  /-- CONTRIB (R148). -/
  | contrib (k : CmdRef) (x : CmdArgs)
  /-- CRED (R146). -/
  | cred (k : CmdRef) (x : CmdArgs)
  /-- SIGNAL (R247). -/
  | signal (k : CmdRef) (x : CmdArgs)
  /-- ARRIVEC (R248). -/
  | arrivec (k : CmdRef) (x : CmdArgs)
  /-- WAITC (R248). -/
  | waitc (k : CmdRef) (x : CmdArgs)
  /-- GQPOST (R381). -/
  | gqpost (k : CmdRef) (x : CmdArgs)
  /-- COMMAND_START (R204). -/
  | commandStart (k : CmdRef)
  /-- COMMAND_COMPLETE (R205). -/
  | commandComplete (k : CmdRef)
  /-- FOLLOW_ON_ISSUE (R138). -/
  | followOnIssue (k : CmdRef)
  /-- FADD (R103). -/
  | fadd (at_ : SiteRef) (x : SiteArgs)
  /-- FSUB (R103). -/
  | fsub (at_ : SiteRef) (x : SiteArgs)
  /-- FMUL (R103). -/
  | fmul (at_ : SiteRef) (x : SiteArgs)
  /-- FMA (R103). -/
  | fma (at_ : SiteRef) (x : SiteArgs)
  /-- FMIN (R103). -/
  | fmin (at_ : SiteRef) (x : SiteArgs)
  /-- FMAX (R103). -/
  | fmax (at_ : SiteRef) (x : SiteArgs)
  /-- FABS (R103). -/
  | fabs (at_ : SiteRef) (x : SiteArgs)
  /-- FNEG (R103). -/
  | fneg (at_ : SiteRef) (x : SiteArgs)
  /-- FRCP (R104). -/
  | frcp (at_ : SiteRef) (x : SiteArgs)
  /-- FRSQ (R104). -/
  | frsq (at_ : SiteRef) (x : SiteArgs)
  /-- FEXP2 (R104). -/
  | fexp2 (at_ : SiteRef) (x : SiteArgs)
  /-- FLOG2 (R104). -/
  | flog2 (at_ : SiteRef) (x : SiteArgs)
  /-- FCMP (R105). -/
  | fcmp (at_ : SiteRef) (x : SiteArgs)
  /-- FCLASS (R106). -/
  | fclass (at_ : SiteRef) (x : SiteArgs)
  /-- FCVT (R107). -/
  | fcvt (at_ : SiteRef) (x : SiteArgs)
  /-- HADD2 (R108). -/
  | hadd2 (at_ : SiteRef) (x : SiteArgs)
  /-- HMUL2 (R108). -/
  | hmul2 (at_ : SiteRef) (x : SiteArgs)
  /-- HFMA2 (R108). -/
  | hfma2 (at_ : SiteRef) (x : SiteArgs)
  /-- HDOT2 (R109). -/
  | hdot2 (at_ : SiteRef) (x : SiteArgs)
  /-- Q8DOT4 (R110). -/
  | q8dot4 (at_ : SiteRef) (x : SiteArgs)
  /-- LMUL (R111). -/
  | lmul (at_ : SiteRef) (x : SiteArgs)
  /-- LACC (R112). -/
  | lacc (at_ : SiteRef) (x : SiteArgs)
  /-- LCVT (R113). -/
  | lcvt (at_ : SiteRef) (x : SiteArgs)
  /-- IADD (R114). -/
  | iadd (at_ : SiteRef) (x : SiteArgs)
  /-- ISUB (R114). -/
  | isub (at_ : SiteRef) (x : SiteArgs)
  /-- IMUL (R114). -/
  | imul (at_ : SiteRef) (x : SiteArgs)
  /-- IMULH (R114). -/
  | imulh (at_ : SiteRef) (x : SiteArgs)
  /-- IMAD (R114). -/
  | imad (at_ : SiteRef) (x : SiteArgs)
  /-- IMIN (R114). -/
  | imin (at_ : SiteRef) (x : SiteArgs)
  /-- IMAX (R114). -/
  | imax (at_ : SiteRef) (x : SiteArgs)
  /-- IABS (R114). -/
  | iabs (at_ : SiteRef) (x : SiteArgs)
  /-- AL_AND (R114). -/
  | alAnd (at_ : SiteRef) (x : SiteArgs)
  /-- AL_OR (R114). -/
  | alOr (at_ : SiteRef) (x : SiteArgs)
  /-- AL_XOR (R114). -/
  | alXor (at_ : SiteRef) (x : SiteArgs)
  /-- NOT (R114). -/
  | not (at_ : SiteRef) (x : SiteArgs)
  /-- SHL (R114). -/
  | shl (at_ : SiteRef) (x : SiteArgs)
  /-- SHR (R114). -/
  | shr (at_ : SiteRef) (x : SiteArgs)
  /-- SAR (R114). -/
  | sar (at_ : SiteRef) (x : SiteArgs)
  /-- ICMP (R114). -/
  | icmp (at_ : SiteRef) (x : SiteArgs)
  /-- SEL (R114). -/
  | sel (at_ : SiteRef) (x : SiteArgs)
  /-- AL_POPC (R114). -/
  | alPopc (at_ : SiteRef) (x : SiteArgs)
  /-- AL_CLZ (R114). -/
  | alClz (at_ : SiteRef) (x : SiteArgs)
  /-- HASH (R115). -/
  | hash (at_ : SiteRef) (x : SiteArgs)
  /-- RSUM (R116). -/
  | rsum (at_ : SiteRef) (x : SiteArgs)
  /-- RMAX (R116). -/
  | rmax (at_ : SiteRef) (x : SiteArgs)
  /-- SCANL (R117). -/
  | scanl (at_ : SiteRef) (x : SiteArgs)
  /-- SHUF (R118). -/
  | shuf (at_ : SiteRef) (x : SiteArgs)
  /-- BCAST (R118). -/
  | bcast (at_ : SiteRef) (x : SiteArgs)
  /-- IOTA (R119). -/
  | iota (at_ : SiteRef) (x : SiteArgs)
  /-- CONST (R119). -/
  | const (at_ : SiteRef) (x : SiteArgs)
  /-- SPLD (R196). -/
  | spld (at_ : SiteRef) (x : SiteArgs)
  /-- SPST (R196). -/
  | spst (at_ : SiteRef) (x : SiteArgs)
  /-- SPLDI (R196). -/
  | spldi (at_ : SiteRef) (x : SiteArgs)
  /-- SPATOM (R197). -/
  | spatom (at_ : SiteRef) (x : SiteArgs)
  /-- L1LD (R198). -/
  | l1ld (at_ : SiteRef) (x : SiteArgs)
  /-- L1ST (R198). -/
  | l1st (at_ : SiteRef) (x : SiteArgs)
  /-- TLD (R199). -/
  | tld (at_ : SiteRef) (x : SiteArgs)
  /-- TST (R199). -/
  | tst (at_ : SiteRef) (x : SiteArgs)
  /-- PARK (R200). -/
  | park (at_ : SiteRef) (x : SiteArgs)
  /-- SCAN (R127). -/
  | scan (at_ : SiteRef) (x : SiteArgs)
  /-- COORD (R128). -/
  | coord (at_ : SiteRef) (x : SiteArgs)
  /-- ISECT (R128). -/
  | isect (at_ : SiteRef) (x : SiteArgs)
  /-- UNION (R128). -/
  | union (at_ : SiteRef) (x : SiteArgs)
  /-- REPEAT (R127). -/
  | repeat (at_ : SiteRef) (x : SiteArgs)
  /-- REDUCE (R128). -/
  | reduce (at_ : SiteRef) (x : SiteArgs)
  /-- TOPK (R128). -/
  | topk (at_ : SiteRef) (x : SiteArgs)
  /-- SPVAL (R128). -/
  | spval (at_ : SiteRef) (x : SiteArgs)
  /-- FORK (R306). -/
  | fork (at_ : SiteRef) (x : SiteArgs)
  /-- FILTER (R306). -/
  | filter (at_ : SiteRef) (x : SiteArgs)
  /-- STEER (R306). -/
  | steer (at_ : SiteRef) (x : SiteArgs)
  /-- MERGE (R307). -/
  | merge (at_ : SiteRef) (x : SiteArgs)
  /-- RECIRC (R307). -/
  | recirc (at_ : SiteRef) (x : SiteArgs)
  /-- COMPACT (R310). -/
  | compact (at_ : SiteRef) (x : SiteArgs)
  /-- ORDER (R310). -/
  | order (at_ : SiteRef) (x : SiteArgs)
  /-- MARK (R296). -/
  | mark (at_ : SiteRef) (x : SiteArgs)
  /-- DUSK (R306). -/
  | dusk (at_ : SiteRef) (x : SiteArgs)
  /-- GATE (R306). -/
  | gate (at_ : SiteRef) (x : SiteArgs)
  /-- RETIRE (R306). -/
  | retire (at_ : SiteRef) (x : SiteArgs)
  /-- TAGSET (R306). -/
  | tagset (at_ : SiteRef) (x : SiteArgs)
  /-- ROUND_COUNT_EXPIRY (R296). -/
  | roundCountExpiry (at_ : SiteRef)
  /-- ROUND_MARKER (R18). -/
  | roundMarker (at_ : SiteRef)
  /-- DUSK_TOKEN (R308). -/
  | duskToken (at_ : SiteRef)
  /-- ROUND_COMMIT (R403). -/
  | roundCommit (task : W64)
  /-- PORT_EMIT (R215). -/
  | portEmit (p : PortRef)
  /-- PORT_RUN_AHEAD (R214). -/
  | portRunAhead (p : PortRef)
  /-- PORT_ELEMENT_LANDED (R215). -/
  | portElementLanded (p : PortRef) (j : Nat) (e : MemErr)
  /-- PORT_RECORD_WRITE (R299). -/
  | portRecordWrite (p : PortRef)
  /-- PORT_INDEX_RECORD (R301). -/
  | portIndexRecord (p : PortRef)
  /-- MB_SERVICE_CYCLE (R191). -/
  | mbServiceCycle (at_ : SiteRef)
  /-- L1_LINE_ARRIVAL (R192). -/
  | l1LineArrival (at_ : SiteRef) (line : Nat)
  /-- PREEMPTION (R409). -/
  | preemption (task : W64)
  /-- DOORBELL_WRITE (R311). -/
  | doorbellWrite (q : Nat) (v : W64)
  /-- LAP_RETRY (R315). -/
  | lapRetry (q : Nat)
  /-- PACKET_FETCH (R315). -/
  | packetFetch (q : Nat)
  /-- PKT_NOP (R319). -/
  | pktNop (p : PktRef)
  /-- PKT_LAUNCH (R319). -/
  | pktLaunch (p : PktRef)
  /-- PKT_COPY (R319). -/
  | pktCopy (p : PktRef)
  /-- PKT_BARRIER (R322). -/
  | pktBarrier (p : PktRef)
  /-- PKT_SIGNAL (R319). -/
  | pktSignal (p : PktRef)
  /-- PKT_GUEST (R319). -/
  | pktGuest (p : PktRef)
  /-- PACKET_COMPLETE (R321). -/
  | packetComplete (p : PktRef)
  /-- MBCDB_WRITE (R327). -/
  | mbcdbWrite (v : W64)
  /-- MBRDB_WRITE (R327). -/
  | mbrdbWrite (v : W64)
  /-- HOST_WRITE (R182). -/
  | hostWrite (pa : Nat) (bytes : List Byte)
  /-- PEER_INGRESS (R374). -/
  | peerIngress (m : PeerMsg)
  /-- IMPORT_REFUSAL (R374): the sender's access, and why it was refused. -/
  | importRefusal (task : W64) (va : W64) (reason : RefusedAccess)
  /-- CONTRIB_ACK (R148). -/
  | contribAck (k : CmdRef) (status : BitVec 2)
  /-- RING_PARTIAL (R151). -/
  | ringPartial (group : Byte) (epoch : BitVec 16) (dest first : W64) (vals : RingVals)
  /-- LINK_RETRAIN (R418). -/
  | linkRetrain (port : Nat)
  /-- GUEST_ACCESS (R383). -/
  | guestAccess (g : GuestAcc)
  /-- GUEST_COMPLETION (R381). -/
  | guestCompletion (site tag : Nat)
  /-- GUEST_FAULT_MESSAGE (R385). -/
  | guestFaultMessage (site tag : Nat)
  /-- INVALIDATION_ACK (R384). -/
  | invalidationAck (site tag : Nat)
  /-- GUEST_PREEMPT_ANSWER (R387). -/
  | guestPreemptAnswer (site tag : Nat) (ans : GuestAnswer)
  /-- POWER_GOOD (R448). -/
  | powerGood (b : BringUp)
  /-- LINKEN_WRITE (R449). -/
  | linkenWrite (v : Bool)
  /-- RETRY_WRITE (R449). -/
  | retryWrite (v : Bool) (b : BringUp)
  /-- DEVINFO_WRITE (R449). -/
  | devinfoWrite (f : DevField)
  /-- THERMAL_STEP (R447). -/
  | thermalStep (cool : Bool)
  /-- ILLEGAL_INSTRUCTION (R34). -/
  | illegalInstruction (w : W32)
  /-- GUEST_REAUTHENTICATION (R387). -/
  | guestReauthentication (site : Nat) (r : BootImage)
  /-- YIELD (R259). -/
  | yield
  /-- ERET (R402). -/
  | eret
  /-- DEFERRED_TRAP_ENTRY (R392). -/
  | deferredTrapEntry
  /-- CONTEXT_SWITCH (R408). -/
  | contextSwitch
  /-- PROMISE_MISSED (R284). -/
  | promiseMissed
  /-- GUEST_PROMISE_MISSED (R382). -/
  | guestPromiseMissed
  /-- EARLY_EDGE (R296). -/
  | earlyEdge
  /-- HOME_OPERATION (R227). -/
  | homeOperation
  /-- HOME_RETRY (R228). -/
  | homeRetry
  /-- AGING (R253). -/
  | aging
  /-- LEASE_WALK (R361). -/
  | leaseWalk
  /-- PLACEMENT_PASS (R278). -/
  | placementPass
  /-- DISPATCH (R254). -/
  | dispatch
  /-- WINDOW_END (R281). -/
  | windowEnd
  /-- RESERVATION_LAPSE (R286). -/
  | reservationLapse
  /-- REGQ (R328). -/
  | regq
  /-- UNREGQ (R328). -/
  | unregq
  /-- RESETQ (R328). -/
  | resetq
  /-- SETW (R328). -/
  | setw
  /-- PAGEIN (R367). -/
  | pagein
  /-- RECALL (R368). -/
  | recall
  /-- ENDTASK (R328). -/
  | endtask
  /-- LOADRTN (R232). -/
  | loadrtn
  /-- GROUPSET (R328). -/
  | groupset
  /-- READALM (R328). -/
  | readalm
  /-- POWER (R446). -/
  | power
  /-- ATTEST (R451). -/
  | attest
  /-- UNKNOWN_COMMAND (R328). -/
  | unknownCommand
  /-- CERR (R417). -/
  | cerr
  /-- INVALIDATION_DEADLINE (R384). -/
  | invalidationDeadline
  /-- PREEMPT_DEADLINE (R387). -/
  | preemptDeadline
  /-- THERMAL_THROTTLE (R447). -/
  | thermalThrottle
  /-- THERMAL_TRIP (R447). -/
  | thermalTrip
deriving DecidableEq, Repr

end Sys2Proof
end

