-- ==== Sys2Proof/Machine/Fields.lean ====
section
/-! DEFINITION. The fields inside a stream command's fixed operands and inside a site word's modifiers, and the
limits that the encoding alone puts on them: R36 to R40 for scalar words, R44 and R45 for commands, R48, R49, R52,
R102, R123, R190, R305 and R306 for site words. -/

namespace Sys2Proof

/-! ## Stream commands -/

/-- Bits hi to lo of a command word, with R41's numbering, for a field inside [94:64]. -/
def CmdArgs.fld (x : CmdArgs) (hi lo : Nat) : Nat := (x.fixed.extractLsb' (lo - 64) (hi + 1 - lo)).toNat

/-- One bit of a command word inside [94:64]. -/
def CmdArgs.bit (x : CmdArgs) (n : Nat) : Bool := x.fixed.getLsbD (n - 64)

/-- The 48-bit offset held in slot 0 and slot 1 [15:0] (R209, R300, R381). -/
def CmdArgs.off48 (x : CmdArgs) : Nat := (x.p1.extractLsb' 0 16).toNat * 2 ^ 32 + x.p0.toNat

/-- TID fields A, B and C hold nothing. -/
def CmdArgs.noA (x : CmdArgs) : Bool := x.ta == 0#6
def CmdArgs.noB (x : CmdArgs) : Bool := x.tb == 0#6
def CmdArgs.noC (x : CmdArgs) : Bool := x.tc == 0#6

/-- R45: a port field holds 0 to 15. -/
def CmdArgs.portOk (x : CmdArgs) : Bool := decide (x.tc.toNat < 16)
/-- R45: a tile field holds 0 to 3. -/
def CmdArgs.tileOk (x : CmdArgs) : Bool := decide (x.tc.toNat < 4)
/-- R45: scope 6 and 7 are reserved. -/
def CmdArgs.scopeOk (x : CmdArgs) : Bool := decide (x.scope.toNat < 6)
/-- A command that carries no scope holds 0 there. -/
def CmdArgs.noScope (x : CmdArgs) : Bool := x.scope == 0#3

/-- R44: which of the flags F, W and C an opcode allows; S is allowed on every command. -/
def cmdFlagsOk (op : Nat) (x : CmdArgs) : Bool :=
  let fOk := if op = 0x11 then x.ff else if op = 0x15 then true else !x.ff
  let wSet := op ∈ [0x10, 0x11, 0x12, 0x13, 0x14, 0x15, 0x30, 0x31, 0x32, 0x38, 0x39, 0x40, 0x48] ||
    decide (0x20 ≤ op ∧ op ≤ 0x25) || decide (0x28 ≤ op ∧ op ≤ 0x2D)
  let wOk := wSet || !x.fw
  let cOk := op = 0x38 || !x.fc
  fOk && wOk && cOk

/-- R43: the opcodes that are not reserved. -/
def cmdOpcodeOk (op : Nat) : Bool :=
  decide (1 ≤ op ∧ op ≤ 0x0A) || decide (0x10 ≤ op ∧ op ≤ 0x16) || decide (0x20 ≤ op ∧ op ≤ 0x25) ||
  decide (0x28 ≤ op ∧ op ≤ 0x2D) || decide (0x30 ≤ op ∧ op ≤ 0x32) || op == 0x38 || op == 0x39 ||
  decide (0x40 ≤ op ∧ op ≤ 0x42) || op == 0x48

/-- R45 and the encoding table of each command: the fields a command does not use are zero, its reserved bits are
zero, its ports, tiles and scope exist. -/
def cmdFieldsOk (op : Nat) (x : CmdArgs) : Bool :=
  let z (hi lo : Nat) : Bool := x.fld hi lo == 0
  let p0z := x.p0 == 0#32
  let p1z := x.p1 == 0#32
  let p1hi := x.p1.extractLsb' 16 16 == 0#16
  match op with
  | 0x01 => x.noA && x.noB && x.noC && x.noScope && z 94 86
  | 0x02 => x.noB && x.portOk && x.scopeOk && z 70 64 && p1z
  | 0x03 => x.noA && x.noB && x.portOk && x.scopeOk && z 90 64 && p1hi
  | 0x04 => x.noA && x.noB && x.portOk && x.noScope && z 88 64 && p1hi
  | 0x05 | 0x06 => x.noA && x.noB && x.portOk && x.noScope && z 94 64 && p0z && p1z
  | 0x07 => x.noA && x.noB && x.noC && x.noScope && z 94 64 && p0z && p1z
  | 0x08 => x.noB && x.noC && x.scopeOk && z 90 64 && p1hi
  | 0x09 => x.noB && x.noC && x.noScope && z 94 64 && p0z && p1z
  | 0x0A => x.noA && x.noB && x.noC && x.noScope && z 67 64 && p0z && p1z
  | 0x10 => x.noB && x.scopeOk
  | 0x11 => x.noB && x.tileOk && x.scopeOk && z 81 64
  | 0x12 | 0x13 => x.scopeOk && z 94 64
  | 0x14 => x.noB && x.noC && x.scopeOk && z 74 64
  | 0x15 => x.noB && x.tileOk && x.scopeOk && z 72 64
  | 0x16 => x.noA && x.noB && x.tileOk && x.noScope && z 92 64 && p0z && p1z
  | 0x30 => x.noB && x.tileOk && x.scopeOk && z 94 89 && z 87 64
  | 0x31 => x.noB && x.tileOk && x.scopeOk && z 94 92 && z 85 64
  | 0x32 => x.tileOk && x.scopeOk && z 94 92 && z 85 64
  | 0x38 => x.scopeOk
  | 0x39 => x.noB && x.scopeOk && z 87 64
  | 0x40 => x.noA && x.noB && x.scopeOk && z 91 64
  | 0x41 => x.noA && x.noB && x.scopeOk && z 94 64 && (x.p1.extractLsb' 25 7 == 0#7)
  | 0x42 => x.noA && x.noB && x.scopeOk && z 94 64 && p1hi
  | 0x48 => x.noA && x.noB && x.noC && x.scopeOk && z 89 64 && p1hi
  | _ => x.tileOk && x.scopeOk && z 94 90 && z 78 64

/-- The encoding checks of R44 and R45 that need no state. -/
def cmdStaticOk (op : Nat) (x : CmdArgs) : Bool := cmdOpcodeOk op && cmdFlagsOk op x && cmdFieldsOk op x

/-! ## Site words -/

/-- A source selector read under R48. -/
inductive Sel where
  | link (i f : Nat)
  | const (k : Nat)
  | chain (c : Nat)
  | none
  | reserved
deriving DecidableEq, Repr

/-- R48: the source selector codes. -/
def selOf (b : BitVec 6) : Sel :=
  let n := b.toNat
  if n < 0x20 then .link (n / 8) (n % 8)
  else if n < 0x28 then .const (n - 0x20)
  else if n < 0x2C then .chain (n - 0x28)
  else if n = 0x2C then .none
  else .reserved

def SiteArgs.selA (x : SiteArgs) : Sel := selOf x.a
def SiteArgs.selB (x : SiteArgs) : Sel := selOf x.b
def SiteArgs.selC (x : SiteArgs) : Sel := selOf x.c
/-- Bits hi to lo of the modifiers. -/
def SiteArgs.m (x : SiteArgs) (hi lo : Nat) : Nat := (x.mods.extractLsb' lo (hi + 1 - lo)).toNat
/-- The type code (R49) and the rounding code as numbers. -/
def SiteArgs.tyN (x : SiteArgs) : Nat := x.ty.toNat
def SiteArgs.rndN (x : SiteArgs) : Nat := x.rnd.toNat
/-- The destination code as a number: 0 to 3 output links, 4 to 7 chain registers, 8 to 15 fields (R48). -/
def SiteArgs.dstN (x : SiteArgs) : Nat := x.dst.toNat

/-- What one source position of an operation asks for. -/
inductive SrcUse where
  | used
  | opt
  | no
deriving DecidableEq, Repr

/-- Which selectors a kind of site accepts for a used source: an AL all but reserved ones (R102), an MB and an SP
link fields only (R123, R190), an FL link fields and constants (R305). -/
def selOk (kind : Nat) : Sel → Bool
  | .link _ _ => true
  | .const _ => kind == 0 || kind == 3
  | .chain _ => kind == 0
  | _ => false

def srcOk (kind : Nat) (u : SrcUse) (s : Sel) : Bool :=
  match u with
  | .used => selOk kind s
  | .opt => s == .none || selOk kind s
  | .no => s == .none

/-- Every modifier bit outside [hi:0] is zero. -/
def SiteArgs.modsBelow (x : SiteArgs) (n : Nat) : Bool := decide (x.mods.toNat < 2 ^ n)

/-- Rounding codes: none, RNE to RDN, or RNE to stochastic (R49). -/
def SiteArgs.rnd0 (x : SiteArgs) : Bool := x.rndN == 0
def SiteArgs.rnd3 (x : SiteArgs) : Bool := decide (x.rndN ≤ 3)
def SiteArgs.rnd4 (x : SiteArgs) : Bool := decide (x.rndN ≤ 4)

/-- The width in bits of an element of a type code (R49, R60, R64); 0 for the reserved code. -/
def fmtBits (ty : Nat) : Nat :=
  match ty with
  | 0 => 8 | 1 => 16 | 2 => 32 | 3 => 64 | 4 => 8 | 5 => 16 | 6 => 32 | 7 => 64
  | 8 => 32 | 9 => 16 | 10 => 16 | 11 => 8 | 12 => 8 | 13 => 4 | 14 => 6 | _ => 0

/-- Elements of a packed type in one 32-bit field (R65); 1 for a type that is not packed. -/
def fmtPerField (ty : Nat) : Nat :=
  match ty with
  | 0 | 4 | 11 | 12 | 14 => 4
  | 1 | 5 | 9 | 10 => 2
  | 13 => 8
  | _ => 1

/-- The limits of FCVT's modifiers and sources (R107). -/
def fcvtOk (x : SiteArgs) : Bool :=
  let from_ := x.m 3 0
  let el := x.m 6 4
  let scc := x.m 16 16 == 1
  let tyGood (t : Nat) : Bool := t != 15 && t != 3 && t != 7
  let srcPacked := decide (fmtBits from_ < 32)
  let dstPacked := decide (fmtBits x.tyN < 32)
  tyGood from_ && tyGood x.tyN && x.modsBelow 18 && x.rnd4 &&
  (!srcPacked || decide (el < fmtPerField from_)) && (!dstPacked || decide (el < fmtPerField x.tyN)) &&
  (srcPacked || dstPacked || el == 0) && (!scc || x.m 15 8 == 0) &&
  srcOk 0 .used x.selA && srcOk 0 (if dstPacked then .opt else .no) x.selB &&
  srcOk 0 (if scc then .used else .no) x.selC

/-- Sources A, B and C as an operation uses them. -/
def SiteArgs.srcs (x : SiteArgs) (kind : Nat) (a b c : SrcUse) : Bool :=
  srcOk kind a x.selA && srcOk kind b x.selB && srcOk kind c x.selC

/-- R102 to R119: the words an AL accepts. -/
def alWordOk (op : Nat) (x : SiteArgs) : Bool :=
  let f32 := x.tyN == 8
  let int := x.tyN == 2 || x.tyN == 6
  let half := x.tyN == 9 || x.tyN == 10
  let num := f32 || int
  let ab := x.srcs 0 .used .used .no
  let abc := x.srcs 0 .used .used .used
  let a1 := x.srcs 0 .used .no .no
  let m0 := x.modsBelow 0
  match op with
  | 0x01 | 0x02 | 0x03 => f32 && ab && x.rnd4 && m0
  | 0x04 => f32 && abc && x.rnd4 && m0
  | 0x05 | 0x06 => f32 && ab && x.rnd0 && m0
  | 0x07 | 0x08 => f32 && a1 && x.rnd0 && m0
  | 0x09 | 0x0A | 0x0B | 0x0C => f32 && a1 && x.rnd4 && m0
  | 0x0D => f32 && ab && x.rnd0 && x.modsBelow 3
  | 0x0E => f32 && a1 && x.rnd0 && m0
  | 0x0F => fcvtOk x
  | 0x10 | 0x11 => half && ab && x.rnd4 && m0
  | 0x12 | 0x13 => half && abc && x.rnd4 && m0
  | 0x14 => abc && ((x.tyN == 0 && x.rnd0 && x.modsBelow 2 && x.m 0 0 == 0) ||
      ((x.tyN == 11 || x.tyN == 12) && x.rnd4 && x.modsBelow 1))
  | 0x18 => x.tyN == 14 && ab && x.rnd0 && m0
  | 0x19 => x.tyN == 14 && a1 && x.rnd0 && m0 && decide (4 ≤ x.dstN ∧ x.dstN < 8)
  | 0x1A => f32 && x.srcs 0 .opt .opt .no && x.rnd4 && x.modsBelow 1
  | 0x20 | 0x21 => int && ab && x.rnd0 && x.modsBelow 1
  | 0x22 | 0x23 | 0x25 | 0x26 | 0x28 | 0x29 | 0x2A | 0x2C | 0x2D | 0x2E => int && ab && x.rnd0 && m0
  | 0x24 => int && abc && x.rnd0 && m0
  | 0x27 => x.tyN == 2 && a1 && x.rnd0 && x.modsBelow 1
  | 0x2B | 0x31 | 0x32 => int && a1 && x.rnd0 && m0
  | 0x2F => int && ab && x.rnd0 && x.modsBelow 3 && decide (x.m 2 0 ≤ 5)
  | 0x30 => x.tyN != 15 && abc && x.rnd0 && m0
  | 0x33 => x.tyN == 6 && x.srcs 0 .used .opt .no && x.rnd0 && x.modsBelow 15 &&
      decide (x.m 9 5 + (x.m 14 10 + 1) ≤ 32)
  | 0x38 => num && a1 && (if f32 then x.rnd4 else x.rnd0) && m0
  | 0x39 => num && a1 && x.rnd0 && m0
  | 0x3A => num && a1 && (if f32 then x.rnd4 else x.rnd0) && x.modsBelow 1
  | 0x3B => x.tyN != 15 && x.srcs 0 .used .opt .no && x.rnd0 && x.modsBelow 4 &&
      (x.selB == .none || x.m 3 0 == 0)
  | 0x3C => x.tyN != 15 && a1 && x.rnd0 && x.modsBelow 4
  | 0x3D => int && x.srcs 0 .opt .no .no && x.rnd0 && x.modsBelow 16
  | 0x3E => num && x.srcs 0 .no .no .no && x.rnd0
  | _ => false

/-- Words moved by one MB access: 1, 2 or 4 (R190). -/
def mbC (x : SiteArgs) : Nat := 2 ^ x.m 23 22

/-- The field index a link selector names, if it is one. -/
def selField : Sel → Nat
  | .link _ f => f
  | _ => 0

/-- R188 and R190: the words an MB accepts. -/
def mbWordOk (op : Nat) (x : SiteArgs) : Bool :=
  let n32 := x.tyN == 6
  let num := x.tyN == 2 || x.tyN == 6 || x.tyN == 8
  let int := x.tyN == 2 || x.tyN == 6
  let fld (c : Nat) : Bool := decide (8 ≤ x.dstN ∧ x.dstN - 8 + c - 1 ≤ 7)
  let c3 := x.m 23 22 != 3
  let l1 := x.m 25 24 != 0
  let bWide (c : Nat) : Bool := decide (selField x.selB + c - 1 ≤ 7)
  match op with
  | 0x01 => n32 && x.rnd0 && c3 && x.m 21 19 == 0 && fld (mbC x) && x.srcs 1 .used .no .no
  | 0x02 => n32 && x.rnd0 && c3 && x.m 21 19 == 0 && x.dstN == 0 && bWide (mbC x) && x.srcs 1 .used .used .no
  | 0x03 => n32 && x.rnd0 && c3 && fld (mbC x) && x.srcs 1 .used .used .no
  | 0x04 =>
      let o := x.m 23 20
      decide (o ≤ 7) && (if o ∈ [0, 1, 2, 6] then num else int) && x.rnd0 && x.m 19 19 == 0 && fld 1 &&
      x.srcs 1 .used .used (if o = 7 then .used else .no)
  | 0x05 => n32 && x.rnd0 && c3 && l1 && fld (mbC x) && x.srcs 1 .used .no .no
  | 0x06 => n32 && x.rnd0 && c3 && l1 && x.dstN == 0 && bWide (mbC x) && x.srcs 1 .used .used .no
  | 0x07 => num && x.rnd3 && l1 && x.m 16 0 == 0 && fld 1 && x.srcs 1 .used .opt .no
  | 0x08 => num && x.rnd3 && l1 && x.m 16 0 == 0 && x.dstN == 0 && x.srcs 1 .used .used .opt
  | 0x09 => n32 && x.rnd0 && l1 && x.m 15 0 == 0 && fld (x.m 23 23 + 1) && x.srcs 1 .used .no .no
  | _ => false

/-- The link a selector names. -/
def selLink : Sel → Option Nat
  | .link i _ => some i
  | _ => none

/-- R123 and R126: the words an SP accepts. -/
def spWordOk (op : Nat) (x : SiteArgs) : Bool :=
  let n32 := x.tyN == 6
  let num := x.tyN == 2 || x.tyN == 6 || x.tyN == 8
  let out := decide (x.dstN < 4)
  let abo := x.srcs 2 .used .used .opt
  let m0 := x.modsBelow 0
  match op with
  | 0x01 | 0x05 => n32 && x.rnd0 && decide (x.dstN < 3) && abo && m0
  | 0x02 => n32 && x.rnd0 && out && x.modsBelow 9 && (if x.m 8 8 = 1 then x.srcs 2 .used .used .no else abo)
  | 0x03 | 0x04 => n32 && x.rnd0 && out && x.modsBelow 4 && abo && selLink x.selA == some 0 &&
      selLink x.selB == some 1 && (x.selC == .none || selLink x.selC == some 0)
  | 0x06 => num && (if x.tyN == 8 then x.rnd3 else x.rnd0) && out && x.srcs 2 .used .used .no && m0
  | 0x07 => num && x.rnd0 && out && x.srcs 2 .used .used .no && x.modsBelow 7
  | 0x08 => n32 && x.rnd0 && out && x.srcs 2 .used .used .used && m0
  | _ => false

/-- The lowest output of a mask of four bits. -/
def lowestOut (m : Nat) : Nat :=
  if m % 2 = 1 then 0 else if m / 2 % 2 = 1 then 1 else if m / 4 % 2 = 1 then 2 else 3

/-- R305 and R306: the words an FL accepts, as far as the word alone decides. -/
def flWordOk (op : Nat) (x : SiteArgs) : Bool :=
  let base := x.tyN == 6 && x.rnd0 && decide (x.dstN < 4)
  let a1 := x.srcs 3 .used .no .no
  base && match op with
  | 0x01 => a1 && selLink x.selA == some 0 && x.modsBelow 4 && x.m 3 0 != 0 && lowestOut (x.m 3 0) == x.dstN
  | 0x02 => a1 && x.modsBelow 4 && (x.m 1 1 == 0 || x.m 3 2 != x.dstN)
  | 0x03 => a1 && x.modsBelow 4
  | 0x04 => x.srcs 3 .used .used .opt && x.modsBelow 2 && x.m 1 0 != x.dstN && selLink x.selA == some 0 &&
      selLink x.selB == some 1 && (x.selC == .none || selLink x.selC == some 2)
  | 0x05 => x.srcs 3 .used .used .no && x.modsBelow 8 && selLink x.selA == some 0 && selLink x.selB == some 1 &&
      (x.m 4 4 == 1 || x.m 7 7 == 0) && ((x.m 4 4 == 1 && x.m 7 7 == 0) || x.m 6 5 != x.dstN)
  | 0x06 | 0x08 | 0x09 => a1 && x.modsBelow 0
  | 0x07 => a1 && x.modsBelow 16
  | 0x0A => a1 && x.modsBelow 8 && x.m 1 0 != 3 && decide (x.m 4 2 ≤ 5)
  | 0x0B => a1 && x.modsBelow 0 && x.dstN == 0
  | 0x0C => a1 && x.modsBelow 17
  | _ => false

/-- R52: a word of the given kind and opcode passes every check that needs nothing but the word. -/
def siteWordOk (kind op : Nat) (x : SiteArgs) : Bool :=
  match kind with
  | 0 => alWordOk op x
  | 1 => mbWordOk op x
  | 2 => spWordOk op x
  | _ => flWordOk op x

/-! ## Scalar words -/

/-- R399: the system register numbers that are allocated. -/
def srAllocated (r : BitVec 12) : Bool :=
  let n := r.toNat
  decide (n ≤ 4) || decide (8 ≤ n ∧ n ≤ 0xC) || decide (0x10 ≤ n ∧ n ≤ 0x12) || decide (0x20 ≤ n ∧ n ≤ 0x27)

/-- R399: the system registers that SRW may write. -/
def srWritable (r : BitVec 12) : Bool :=
  let n := r.toNat
  n == 4 || decide (8 ≤ n ∧ n ≤ 0xB) || decide (0x10 ≤ n ∧ n ≤ 0x12)

/-- R38: ATOM and RED accept .fc and wider; the other synchronisation instructions .die and wider. -/
def scopeFc (c : BitVec 3) : Bool := decide (1 ≤ c.toNat ∧ c.toNat ≤ 5)
def scopeDie (c : BitVec 3) : Bool := decide (2 ≤ c.toNat ∧ c.toNat ≤ 5)

end Sys2Proof
end

