-- ==== Sys2Proof/WellFormed.lean ====
section
/-! DEFINITION. Which terms of `Instr` are instructions of the machine: the encoding limits of R34 to R40 for scalar
words, R43 to R46 for commands, R47 to R52 for site words; for an event, that the unit it names exists. -/

namespace Sys2Proof

/-- R43: the opcode of a stream command constructor. -/
def Instr.cmdOpcode : Instr → Option Nat
  | .cfg _ _ => some 0x1
  | .pbind _ _ => some 0x2
  | .agaff _ _ => some 0x3
  | .agind _ _ => some 0x4
  | .pstart _ _ => some 0x5
  | .pstop _ _ => some 0x6
  | .pmark _ _ => some 0x7
  | .tidset _ _ => some 0x8
  | .tidclr _ _ => some 0x9
  | .cbar _ _ => some 0xa
  | .copy _ _ => some 0x10
  | .copym _ _ => some 0x11
  | .gather _ _ => some 0x12
  | .scatter _ _ => some 0x13
  | .l2push _ _ => some 0x14
  | .tfetch _ _ => some 0x15
  | .unpin _ _ => some 0x16
  | .mmaE4m3 _ _ => some 0x20
  | .mmaE5m2 _ _ => some 0x21
  | .mmaBf16 _ _ => some 0x22
  | .mmaF16 _ _ => some 0x23
  | .mmaE2m1 _ _ => some 0x24
  | .mmaL6 _ _ => some 0x25
  | .mmazE4m3 _ _ => some 0x28
  | .mmazE5m2 _ _ => some 0x29
  | .mmazBf16 _ _ => some 0x2a
  | .mmazF16 _ _ => some 0x2b
  | .mmazE2m1 _ _ => some 0x2c
  | .mmazL6 _ _ => some 0x2d
  | .mload _ _ => some 0x30
  | .mstore _ _ => some 0x31
  | .mscale _ _ => some 0x32
  | .contrib _ _ => some 0x38
  | .cred _ _ => some 0x39
  | .signal _ _ => some 0x40
  | .arrivec _ _ => some 0x41
  | .waitc _ _ => some 0x42
  | .gqpost _ _ => some 0x48
  | _ => none

/-- The fields of a stream command constructor, with the acceptance it stands for. -/
def Instr.cmdArgs : Instr → Option (CmdRef × CmdArgs)
  | .cfg k x => some (k, x)
  | .pbind k x => some (k, x)
  | .agaff k x => some (k, x)
  | .agind k x => some (k, x)
  | .pstart k x => some (k, x)
  | .pstop k x => some (k, x)
  | .pmark k x => some (k, x)
  | .tidset k x => some (k, x)
  | .tidclr k x => some (k, x)
  | .cbar k x => some (k, x)
  | .copy k x => some (k, x)
  | .copym k x => some (k, x)
  | .gather k x => some (k, x)
  | .scatter k x => some (k, x)
  | .l2push k x => some (k, x)
  | .tfetch k x => some (k, x)
  | .unpin k x => some (k, x)
  | .mmaE4m3 k x => some (k, x)
  | .mmaE5m2 k x => some (k, x)
  | .mmaBf16 k x => some (k, x)
  | .mmaF16 k x => some (k, x)
  | .mmaE2m1 k x => some (k, x)
  | .mmaL6 k x => some (k, x)
  | .mmazE4m3 k x => some (k, x)
  | .mmazE5m2 k x => some (k, x)
  | .mmazBf16 k x => some (k, x)
  | .mmazF16 k x => some (k, x)
  | .mmazE2m1 k x => some (k, x)
  | .mmazL6 k x => some (k, x)
  | .mload k x => some (k, x)
  | .mstore k x => some (k, x)
  | .mscale k x => some (k, x)
  | .contrib k x => some (k, x)
  | .cred k x => some (k, x)
  | .signal k x => some (k, x)
  | .arrivec k x => some (k, x)
  | .waitc k x => some (k, x)
  | .gqpost k x => some (k, x)
  | _ => none

/-- R50: the kind and opcode of a site operation constructor. -/
def Instr.siteOpcode : Instr → Option (Nat × Nat)
  | .fadd _ _ => some (0, 0x1)
  | .fsub _ _ => some (0, 0x2)
  | .fmul _ _ => some (0, 0x3)
  | .fma _ _ => some (0, 0x4)
  | .fmin _ _ => some (0, 0x5)
  | .fmax _ _ => some (0, 0x6)
  | .fabs _ _ => some (0, 0x7)
  | .fneg _ _ => some (0, 0x8)
  | .frcp _ _ => some (0, 0x9)
  | .frsq _ _ => some (0, 0xa)
  | .fexp2 _ _ => some (0, 0xb)
  | .flog2 _ _ => some (0, 0xc)
  | .fcmp _ _ => some (0, 0xd)
  | .fclass _ _ => some (0, 0xe)
  | .fcvt _ _ => some (0, 0xf)
  | .hadd2 _ _ => some (0, 0x10)
  | .hmul2 _ _ => some (0, 0x11)
  | .hfma2 _ _ => some (0, 0x12)
  | .hdot2 _ _ => some (0, 0x13)
  | .q8dot4 _ _ => some (0, 0x14)
  | .lmul _ _ => some (0, 0x18)
  | .lacc _ _ => some (0, 0x19)
  | .lcvt _ _ => some (0, 0x1a)
  | .iadd _ _ => some (0, 0x20)
  | .isub _ _ => some (0, 0x21)
  | .imul _ _ => some (0, 0x22)
  | .imulh _ _ => some (0, 0x23)
  | .imad _ _ => some (0, 0x24)
  | .imin _ _ => some (0, 0x25)
  | .imax _ _ => some (0, 0x26)
  | .iabs _ _ => some (0, 0x27)
  | .alAnd _ _ => some (0, 0x28)
  | .alOr _ _ => some (0, 0x29)
  | .alXor _ _ => some (0, 0x2a)
  | .not _ _ => some (0, 0x2b)
  | .shl _ _ => some (0, 0x2c)
  | .shr _ _ => some (0, 0x2d)
  | .sar _ _ => some (0, 0x2e)
  | .icmp _ _ => some (0, 0x2f)
  | .sel _ _ => some (0, 0x30)
  | .alPopc _ _ => some (0, 0x31)
  | .alClz _ _ => some (0, 0x32)
  | .hash _ _ => some (0, 0x33)
  | .rsum _ _ => some (0, 0x38)
  | .rmax _ _ => some (0, 0x39)
  | .scanl _ _ => some (0, 0x3a)
  | .shuf _ _ => some (0, 0x3b)
  | .bcast _ _ => some (0, 0x3c)
  | .iota _ _ => some (0, 0x3d)
  | .const _ _ => some (0, 0x3e)
  | .spld _ _ => some (1, 0x1)
  | .spst _ _ => some (1, 0x2)
  | .spldi _ _ => some (1, 0x3)
  | .spatom _ _ => some (1, 0x4)
  | .l1ld _ _ => some (1, 0x5)
  | .l1st _ _ => some (1, 0x6)
  | .tld _ _ => some (1, 0x7)
  | .tst _ _ => some (1, 0x8)
  | .park _ _ => some (1, 0x9)
  | .scan _ _ => some (2, 0x1)
  | .coord _ _ => some (2, 0x2)
  | .isect _ _ => some (2, 0x3)
  | .union _ _ => some (2, 0x4)
  | .repeat _ _ => some (2, 0x5)
  | .reduce _ _ => some (2, 0x6)
  | .topk _ _ => some (2, 0x7)
  | .spval _ _ => some (2, 0x8)
  | .fork _ _ => some (3, 0x1)
  | .filter _ _ => some (3, 0x2)
  | .steer _ _ => some (3, 0x3)
  | .merge _ _ => some (3, 0x4)
  | .recirc _ _ => some (3, 0x5)
  | .compact _ _ => some (3, 0x6)
  | .order _ _ => some (3, 0x7)
  | .mark _ _ => some (3, 0x8)
  | .dusk _ _ => some (3, 0x9)
  | .gate _ _ => some (3, 0xa)
  | .retire _ _ => some (3, 0xb)
  | .tagset _ _ => some (3, 0xc)
  | _ => none

/-- The fields of a site operation constructor, with the site it stands on. -/
def Instr.siteArgs : Instr → Option (SiteRef × SiteArgs)
  | .fadd r x => some (r, x)
  | .fsub r x => some (r, x)
  | .fmul r x => some (r, x)
  | .fma r x => some (r, x)
  | .fmin r x => some (r, x)
  | .fmax r x => some (r, x)
  | .fabs r x => some (r, x)
  | .fneg r x => some (r, x)
  | .frcp r x => some (r, x)
  | .frsq r x => some (r, x)
  | .fexp2 r x => some (r, x)
  | .flog2 r x => some (r, x)
  | .fcmp r x => some (r, x)
  | .fclass r x => some (r, x)
  | .fcvt r x => some (r, x)
  | .hadd2 r x => some (r, x)
  | .hmul2 r x => some (r, x)
  | .hfma2 r x => some (r, x)
  | .hdot2 r x => some (r, x)
  | .q8dot4 r x => some (r, x)
  | .lmul r x => some (r, x)
  | .lacc r x => some (r, x)
  | .lcvt r x => some (r, x)
  | .iadd r x => some (r, x)
  | .isub r x => some (r, x)
  | .imul r x => some (r, x)
  | .imulh r x => some (r, x)
  | .imad r x => some (r, x)
  | .imin r x => some (r, x)
  | .imax r x => some (r, x)
  | .iabs r x => some (r, x)
  | .alAnd r x => some (r, x)
  | .alOr r x => some (r, x)
  | .alXor r x => some (r, x)
  | .not r x => some (r, x)
  | .shl r x => some (r, x)
  | .shr r x => some (r, x)
  | .sar r x => some (r, x)
  | .icmp r x => some (r, x)
  | .sel r x => some (r, x)
  | .alPopc r x => some (r, x)
  | .alClz r x => some (r, x)
  | .hash r x => some (r, x)
  | .rsum r x => some (r, x)
  | .rmax r x => some (r, x)
  | .scanl r x => some (r, x)
  | .shuf r x => some (r, x)
  | .bcast r x => some (r, x)
  | .iota r x => some (r, x)
  | .const r x => some (r, x)
  | .spld r x => some (r, x)
  | .spst r x => some (r, x)
  | .spldi r x => some (r, x)
  | .spatom r x => some (r, x)
  | .l1ld r x => some (r, x)
  | .l1st r x => some (r, x)
  | .tld r x => some (r, x)
  | .tst r x => some (r, x)
  | .park r x => some (r, x)
  | .scan r x => some (r, x)
  | .coord r x => some (r, x)
  | .isect r x => some (r, x)
  | .union r x => some (r, x)
  | .repeat r x => some (r, x)
  | .reduce r x => some (r, x)
  | .topk r x => some (r, x)
  | .spval r x => some (r, x)
  | .fork r x => some (r, x)
  | .filter r x => some (r, x)
  | .steer r x => some (r, x)
  | .merge r x => some (r, x)
  | .recirc r x => some (r, x)
  | .compact r x => some (r, x)
  | .order r x => some (r, x)
  | .mark r x => some (r, x)
  | .dusk r x => some (r, x)
  | .gate r x => some (r, x)
  | .retire r x => some (r, x)
  | .tagset r x => some (r, x)
  | _ => none

/-- A site reference lies on the 8 by 24 array (R12). -/
def SiteRef.ok (r : SiteRef) : Bool := decide (r.row < 8 ∧ r.col < 24)
/-- A port reference names one of the 16 image ports. -/
def PortRef.ok (p : PortRef) : Bool := decide (p.port < 16)
/-- A packet reference names one of the 131,072 queues and a header unit (R311, R313). -/
def PktRef.ok (p : PktRef) : Bool := decide (p.q < 131072 ∧ p.idx % 64 = 0)

/-- The checks an instruction must pass. Commands and site words are checked through their opcode. -/
def Instr.wf (i : Instr) : Bool :=
  match i with
  | .add _ _ _ _ _ => true
  | .sub _ _ _ _ _ => true
  | .and _ _ _ _ _ => true
  | .or _ _ _ _ _ => true
  | .xor _ _ _ _ _ => true
  | .sll _ _ _ _ _ => true
  | .srl _ _ _ _ _ => true
  | .sra _ _ _ _ _ => true
  | .slt _ _ _ _ _ => true
  | .sltu _ _ _ _ _ => true
  | .min _ _ _ _ _ => true
  | .max _ _ _ _ _ => true
  | .minu _ _ _ _ _ => true
  | .maxu _ _ _ _ _ => true
  | .mul _ _ _ _ _ => true
  | .mulh _ _ _ _ _ => true
  | .mulhu _ _ _ _ _ => true
  | .div _ _ _ _ _ => true
  | .divu _ _ _ _ _ => true
  | .rem _ _ _ _ _ => true
  | .remu _ _ _ _ _ => true
  | .clz _ _ _ => true
  | .ctz _ _ _ => true
  | .popc _ _ _ => true
  | .sext _ _ _ z => decide (z.toNat ≤ 2)
  | .zext _ _ _ z => decide (z.toNat ≤ 2)
  | .mke _ => true
  | .full _ _ => true
  | .addpc _ _ => true
  | .addi _ _ _ _ => true
  | .andi _ _ _ _ => true
  | .ori _ _ _ _ => true
  | .xori _ _ _ _ => true
  | .slti _ _ _ _ => true
  | .sltiu _ _ _ _ => true
  | .slli _ _ _ _ => true
  | .srli _ _ _ _ => true
  | .srai _ _ _ _ => true
  | .bfx _ _ _ w p => decide (p.toNat + (w.toNat + 1) ≤ 64)
  | .bfi _ _ _ w p => decide (p.toNat + (w.toNat + 1) ≤ 64)
  | .lih _ _ => true
  | .ld _ _ _ _ _ => true
  | .lda _ _ _ _ _ => true
  | .st _ _ _ _ _ _ => true
  | .str _ _ _ _ _ _ => true
  | .fence e f g h c => decide (c.toNat < 6) && (e || f) && (g || h)
  | .flush _ _ _ => true
  | .beq _ _ _ _ _ => true
  | .bne _ _ _ _ _ => true
  | .blt _ _ _ _ _ => true
  | .bge _ _ _ _ _ => true
  | .bltu _ _ _ _ _ => true
  | .bgeu _ _ _ _ _ => true
  | .jal _ _ => true
  | .jalr _ _ _ _ => true
  | .loop _ _ l => l != 0#13
  | .pause _ => true
  | .atom _ _ _ _ _ o _ c => decide (o.toNat ≤ 9) && scopeFc c
  | .atomr _ _ _ _ _ _ c => scopeDie c
  | .red _ _ _ _ o _ c => decide (o.toNat ≤ 7) && scopeFc c
  | .binit _ _ _ _ c => scopeDie c
  | .binv _ _ c => scopeDie c
  | .arrive _ _ _ c => scopeDie c
  | .testph _ _ _ _ _ c => scopeDie c
  | .waitph _ _ _ _ _ c => scopeDie c
  | .sigop _ _ _ _ _ o _ c => decide (o.toNat ≤ 4) && scopeDie c
  | .watch _ _ _ _ _ m _ c => decide (m.toNat ≤ 10) && scopeDie c
  | .futrd _ _ _ _ c => scopeDie c
  | .futwr _ _ _ _ _ c => scopeDie c
  | .spawn _ _ _ _ _ _ _ => true
  | .depadd _ _ _ _ => true
  | .depdec _ _ _ _ => true
  | .done _ _ => true
  | .suspend _ _ => true
  | .arm _ _ _ _ k => decide (k.toNat ≤ 4)
  | .book _ _ _ _ _ => true
  | .extend _ _ _ => true
  | .release _ _ => true
  | .issue _ _ _ _ => true
  | .srr _ r => srAllocated r
  | .srw _ r => srWritable r
  | .trap _ => true
  | .lateDelivery _ => true
  | .cfg _ x => cmdStaticOk 0x1 x
  | .pbind _ x => cmdStaticOk 0x2 x
  | .agaff _ x => cmdStaticOk 0x3 x
  | .agind _ x => cmdStaticOk 0x4 x
  | .pstart _ x => cmdStaticOk 0x5 x
  | .pstop _ x => cmdStaticOk 0x6 x
  | .pmark _ x => cmdStaticOk 0x7 x
  | .tidset _ x => cmdStaticOk 0x8 x
  | .tidclr _ x => cmdStaticOk 0x9 x
  | .cbar _ x => cmdStaticOk 0xa x
  | .copy _ x => cmdStaticOk 0x10 x
  | .copym _ x => cmdStaticOk 0x11 x
  | .gather _ x => cmdStaticOk 0x12 x
  | .scatter _ x => cmdStaticOk 0x13 x
  | .l2push _ x => cmdStaticOk 0x14 x
  | .tfetch _ x => cmdStaticOk 0x15 x
  | .unpin _ x => cmdStaticOk 0x16 x
  | .mmaE4m3 _ x => cmdStaticOk 0x20 x
  | .mmaE5m2 _ x => cmdStaticOk 0x21 x
  | .mmaBf16 _ x => cmdStaticOk 0x22 x
  | .mmaF16 _ x => cmdStaticOk 0x23 x
  | .mmaE2m1 _ x => cmdStaticOk 0x24 x
  | .mmaL6 _ x => cmdStaticOk 0x25 x
  | .mmazE4m3 _ x => cmdStaticOk 0x28 x
  | .mmazE5m2 _ x => cmdStaticOk 0x29 x
  | .mmazBf16 _ x => cmdStaticOk 0x2a x
  | .mmazF16 _ x => cmdStaticOk 0x2b x
  | .mmazE2m1 _ x => cmdStaticOk 0x2c x
  | .mmazL6 _ x => cmdStaticOk 0x2d x
  | .mload _ x => cmdStaticOk 0x30 x
  | .mstore _ x => cmdStaticOk 0x31 x
  | .mscale _ x => cmdStaticOk 0x32 x
  | .contrib _ x => cmdStaticOk 0x38 x
  | .cred _ x => cmdStaticOk 0x39 x
  | .signal _ x => cmdStaticOk 0x40 x
  | .arrivec _ x => cmdStaticOk 0x41 x
  | .waitc _ x => cmdStaticOk 0x42 x
  | .gqpost _ x => cmdStaticOk 0x48 x
  | .commandStart _ => true
  | .commandComplete _ => true
  | .followOnIssue _ => true
  | .fadd r x => r.ok && siteWordOk 0 0x1 x
  | .fsub r x => r.ok && siteWordOk 0 0x2 x
  | .fmul r x => r.ok && siteWordOk 0 0x3 x
  | .fma r x => r.ok && siteWordOk 0 0x4 x
  | .fmin r x => r.ok && siteWordOk 0 0x5 x
  | .fmax r x => r.ok && siteWordOk 0 0x6 x
  | .fabs r x => r.ok && siteWordOk 0 0x7 x
  | .fneg r x => r.ok && siteWordOk 0 0x8 x
  | .frcp r x => r.ok && siteWordOk 0 0x9 x
  | .frsq r x => r.ok && siteWordOk 0 0xa x
  | .fexp2 r x => r.ok && siteWordOk 0 0xb x
  | .flog2 r x => r.ok && siteWordOk 0 0xc x
  | .fcmp r x => r.ok && siteWordOk 0 0xd x
  | .fclass r x => r.ok && siteWordOk 0 0xe x
  | .fcvt r x => r.ok && siteWordOk 0 0xf x
  | .hadd2 r x => r.ok && siteWordOk 0 0x10 x
  | .hmul2 r x => r.ok && siteWordOk 0 0x11 x
  | .hfma2 r x => r.ok && siteWordOk 0 0x12 x
  | .hdot2 r x => r.ok && siteWordOk 0 0x13 x
  | .q8dot4 r x => r.ok && siteWordOk 0 0x14 x
  | .lmul r x => r.ok && siteWordOk 0 0x18 x
  | .lacc r x => r.ok && siteWordOk 0 0x19 x
  | .lcvt r x => r.ok && siteWordOk 0 0x1a x
  | .iadd r x => r.ok && siteWordOk 0 0x20 x
  | .isub r x => r.ok && siteWordOk 0 0x21 x
  | .imul r x => r.ok && siteWordOk 0 0x22 x
  | .imulh r x => r.ok && siteWordOk 0 0x23 x
  | .imad r x => r.ok && siteWordOk 0 0x24 x
  | .imin r x => r.ok && siteWordOk 0 0x25 x
  | .imax r x => r.ok && siteWordOk 0 0x26 x
  | .iabs r x => r.ok && siteWordOk 0 0x27 x
  | .alAnd r x => r.ok && siteWordOk 0 0x28 x
  | .alOr r x => r.ok && siteWordOk 0 0x29 x
  | .alXor r x => r.ok && siteWordOk 0 0x2a x
  | .not r x => r.ok && siteWordOk 0 0x2b x
  | .shl r x => r.ok && siteWordOk 0 0x2c x
  | .shr r x => r.ok && siteWordOk 0 0x2d x
  | .sar r x => r.ok && siteWordOk 0 0x2e x
  | .icmp r x => r.ok && siteWordOk 0 0x2f x
  | .sel r x => r.ok && siteWordOk 0 0x30 x
  | .alPopc r x => r.ok && siteWordOk 0 0x31 x
  | .alClz r x => r.ok && siteWordOk 0 0x32 x
  | .hash r x => r.ok && siteWordOk 0 0x33 x
  | .rsum r x => r.ok && siteWordOk 0 0x38 x
  | .rmax r x => r.ok && siteWordOk 0 0x39 x
  | .scanl r x => r.ok && siteWordOk 0 0x3a x
  | .shuf r x => r.ok && siteWordOk 0 0x3b x
  | .bcast r x => r.ok && siteWordOk 0 0x3c x
  | .iota r x => r.ok && siteWordOk 0 0x3d x
  | .const r x => r.ok && siteWordOk 0 0x3e x
  | .spld r x => r.ok && siteWordOk 1 0x1 x
  | .spst r x => r.ok && siteWordOk 1 0x2 x
  | .spldi r x => r.ok && siteWordOk 1 0x3 x
  | .spatom r x => r.ok && siteWordOk 1 0x4 x
  | .l1ld r x => r.ok && siteWordOk 1 0x5 x
  | .l1st r x => r.ok && siteWordOk 1 0x6 x
  | .tld r x => r.ok && siteWordOk 1 0x7 x
  | .tst r x => r.ok && siteWordOk 1 0x8 x
  | .park r x => r.ok && siteWordOk 1 0x9 x
  | .scan r x => r.ok && siteWordOk 2 0x1 x
  | .coord r x => r.ok && siteWordOk 2 0x2 x
  | .isect r x => r.ok && siteWordOk 2 0x3 x
  | .union r x => r.ok && siteWordOk 2 0x4 x
  | .repeat r x => r.ok && siteWordOk 2 0x5 x
  | .reduce r x => r.ok && siteWordOk 2 0x6 x
  | .topk r x => r.ok && siteWordOk 2 0x7 x
  | .spval r x => r.ok && siteWordOk 2 0x8 x
  | .fork r x => r.ok && siteWordOk 3 0x1 x
  | .filter r x => r.ok && siteWordOk 3 0x2 x
  | .steer r x => r.ok && siteWordOk 3 0x3 x
  | .merge r x => r.ok && siteWordOk 3 0x4 x
  | .recirc r x => r.ok && siteWordOk 3 0x5 x
  | .compact r x => r.ok && siteWordOk 3 0x6 x
  | .order r x => r.ok && siteWordOk 3 0x7 x
  | .mark r x => r.ok && siteWordOk 3 0x8 x
  | .dusk r x => r.ok && siteWordOk 3 0x9 x
  | .gate r x => r.ok && siteWordOk 3 0xa x
  | .retire r x => r.ok && siteWordOk 3 0xb x
  | .tagset r x => r.ok && siteWordOk 3 0xc x
  | .roundCountExpiry r => r.ok
  | .roundMarker r => r.ok
  | .duskToken r => r.ok
  | .roundCommit _ => true
  | .portEmit p => p.ok
  | .portRunAhead p => p.ok
  | .portElementLanded p _ _ => p.ok
  | .portRecordWrite p => p.ok
  | .portIndexRecord p => p.ok
  | .mbServiceCycle r => r.ok
  | .l1LineArrival r _ => r.ok
  | .preemption _ => true
  | .doorbellWrite q _ => decide (q < 131072)
  | .lapRetry q => decide (q < 131072)
  | .packetFetch q => decide (q < 131072)
  | .pktNop p => p.ok
  | .pktLaunch p => p.ok
  | .pktCopy p => p.ok
  | .pktBarrier p => p.ok
  | .pktSignal p => p.ok
  | .pktGuest p => p.ok
  | .packetComplete p => p.ok
  | .mbcdbWrite _ => true
  | .mbrdbWrite _ => true
  | .hostWrite pa bytes => decide (pa + bytes.length ≤ 2 ^ 49)
  | .peerIngress _ => true
  | .importRefusal _ _ x =>
    decide (1 ≤ x.reason ∧ x.reason ≤ 6 ∧ x.size < 256 ∧ x.right < 8 ∧ x.agent < 8)
  | .contribAck _ _ => true
  | .ringPartial _ _ _ _ x => decide (x.vals.length ≤ 64)
  | .linkRetrain port => decide (port < 48)
  | .guestAccess g => decide (g.site < 2 ∧ g.tag < 256 ∧ g.size ≤ 128)
  | .guestCompletion site tag => decide (site < 2 ∧ tag < 256)
  | .guestFaultMessage site tag => decide (site < 2 ∧ tag < 256)
  | .invalidationAck site tag => decide (site < 2 ∧ tag < 256)
  | .guestPreemptAnswer site tag _ => decide (site < 2 ∧ tag < 256)
  | .powerGood _ => true
  | .linkenWrite _ => true
  | .retryWrite _ _ => true
  | .devinfoWrite _ => true
  | .thermalStep _ => true
  | .illegalInstruction _ => true
  | .guestReauthentication site _ => decide (site < 2)
  | .yield => true
  | .eret => true
  | .deferredTrapEntry => true
  | .contextSwitch => true
  | .promiseMissed => true
  | .guestPromiseMissed => true
  | .earlyEdge => true
  | .homeOperation => true
  | .homeRetry => true
  | .aging => true
  | .leaseWalk => true
  | .placementPass => true
  | .dispatch => true
  | .windowEnd => true
  | .reservationLapse => true
  | .regq => true
  | .unregq => true
  | .resetq => true
  | .setw => true
  | .pagein => true
  | .recall => true
  | .endtask => true
  | .loadrtn => true
  | .groupset => true
  | .readalm => true
  | .power => true
  | .attest => true
  | .unknownCommand => true
  | .cerr => true
  | .invalidationDeadline => true
  | .preemptDeadline => true
  | .thermalThrottle => true
  | .thermalTrip => true

end Sys2Proof
end

