-- ==== Sys2Proof/Decode.lean ====
section
/-! DEFINITION. The decoders and encoders of the three layers: scalar words (R30 to R40), stream command templates
(R41 to R45) and site operation words (R47 to R50). A scalar word is rejected by name; the machine turns every
rejection into the illegal-instruction trap (R32, R34). A field that a form does not use is checked to be zero. -/

namespace Sys2Proof

/-! ## Words and bytes (R29) -/

/-- R29: the 32-bit word held in four bytes, the lowest address first. -/
def wordOfBytes (b0 b1 b2 b3 : Byte) : W32 := b3 ++ b2 ++ b1 ++ b0

/-- R29: byte n of a word of w bits, byte 0 at the lowest address. -/
def byteOf {w : Nat} (x : BitVec w) (n : Nat) : Byte := x.extractLsb' (8 * n) 8

/-- R29: the n bytes of a word, the lowest address first. -/
def bytesOf {w : Nat} (x : BitVec w) : Nat → List Byte
  | 0 => []
  | n + 1 => bytesOf x n ++ [byteOf x n]

/-- R29: the little-endian number held in a list of bytes. -/
def natOfBytes : List Byte → Nat
  | [] => 0
  | b :: bs => b.toNat + 256 * natOfBytes bs

/-! ## The formats of R30 -/

/-- One bit as a word. -/
def bit1 (b : Bool) : BitVec 1 := BitVec.ofBool b

/-- Format R. -/
def wordR (op : BitVec 6) (d a b : Reg) (ta tb : Bool) (fn : BitVec 9) : W32 :=
  op ++ d ++ a ++ b ++ bit1 ta ++ bit1 tb ++ fn
/-- Format I. -/
def wordI (op : BitVec 6) (d a : Reg) (ta : Bool) (imm : BitVec 15) : W32 := op ++ d ++ a ++ bit1 ta ++ imm
/-- Format S. -/
def wordS (op : BitVec 6) (b a : Reg) (ta tb : Bool) (imm : BitVec 14) : W32 :=
  op ++ b ++ a ++ bit1 ta ++ bit1 tb ++ imm
/-- Formats J and U. -/
def wordJ (op : BitVec 6) (d : Reg) (imm : BitVec 21) : W32 := op ++ d ++ imm
/-- Format C. -/
def wordC (op : BitVec 6) (d a b : Reg) (n : BitVec 11) : W32 := op ++ d ++ a ++ b ++ n
/-- Format Y. -/
def wordY (op : BitVec 6) (d a : Reg) (y : BitVec 16) : W32 := op ++ d ++ a ++ y

/-- The fields at their places in R30. -/
def opF (w : W32) : BitVec 6 := w.extractLsb' 26 6
def dF (w : W32) : Reg := w.extractLsb' 21 5
def aF (w : W32) : Reg := w.extractLsb' 16 5
def bF (w : W32) : Reg := w.extractLsb' 11 5
def taR (w : W32) : Bool := w.getLsbD 10
def tbR (w : W32) : Bool := w.getLsbD 9
def fnF (w : W32) : BitVec 9 := w.extractLsb' 0 9
def taI (w : W32) : Bool := w.getLsbD 15
def immI (w : W32) : BitVec 15 := w.extractLsb' 0 15
def tbS (w : W32) : Bool := w.getLsbD 14
def immS (w : W32) : BitVec 14 := w.extractLsb' 0 14
def immJ (w : W32) : BitVec 21 := w.extractLsb' 0 21
def idxC (w : W32) : BitVec 11 := w.extractLsb' 0 11
def yF (w : W32) : BitVec 16 := w.extractLsb' 0 16

/-! ## Scalar words -/

/-- Why a scalar word or a byte string is no instruction. -/
inductive DecodeError where
  /-- Fewer than four bytes. -/
  | truncated
  /-- R34: a major opcode that is not allocated. -/
  | reservedOpcode (op : Nat)
  /-- R35, R38 to R40: a function or sub-operation that is not listed. -/
  | reservedFn (op fn : Nat)
  /-- R32: a field the form does not use is not zero. -/
  | unusedField (op : Nat)
  /-- R36 to R40: a sub-field holds a value its form does not allow. -/
  | badSubField (op : Nat)
deriving DecidableEq, Repr

/-- R30 to R40: the word of a scalar instruction, `none` for a constructor of another layer. -/
def encodeWord (i : Instr) : Option W32 :=
  match i with
  | .add d a b ta tb => some (wordR 0x0#6 d a b ta tb 0#9)
  | .sub d a b ta tb => some (wordR 0x0#6 d a b ta tb 1#9)
  | .and d a b ta tb => some (wordR 0x0#6 d a b ta tb 2#9)
  | .or d a b ta tb => some (wordR 0x0#6 d a b ta tb 3#9)
  | .xor d a b ta tb => some (wordR 0x0#6 d a b ta tb 4#9)
  | .sll d a b ta tb => some (wordR 0x0#6 d a b ta tb 5#9)
  | .srl d a b ta tb => some (wordR 0x0#6 d a b ta tb 6#9)
  | .sra d a b ta tb => some (wordR 0x0#6 d a b ta tb 7#9)
  | .slt d a b ta tb => some (wordR 0x0#6 d a b ta tb 8#9)
  | .sltu d a b ta tb => some (wordR 0x0#6 d a b ta tb 9#9)
  | .min d a b ta tb => some (wordR 0x0#6 d a b ta tb 10#9)
  | .max d a b ta tb => some (wordR 0x0#6 d a b ta tb 11#9)
  | .minu d a b ta tb => some (wordR 0x0#6 d a b ta tb 12#9)
  | .maxu d a b ta tb => some (wordR 0x0#6 d a b ta tb 13#9)
  | .mul d a b ta tb => some (wordR 0x1#6 d a b ta tb 0#9)
  | .mulh d a b ta tb => some (wordR 0x1#6 d a b ta tb 1#9)
  | .mulhu d a b ta tb => some (wordR 0x1#6 d a b ta tb 2#9)
  | .div d a b ta tb => some (wordR 0x1#6 d a b ta tb 3#9)
  | .divu d a b ta tb => some (wordR 0x1#6 d a b ta tb 4#9)
  | .rem d a b ta tb => some (wordR 0x1#6 d a b ta tb 5#9)
  | .remu d a b ta tb => some (wordR 0x1#6 d a b ta tb 6#9)
  | .clz d a ta => some (wordR 0x2#6 d a 0#5 ta false 0x0#9)
  | .ctz d a ta => some (wordR 0x2#6 d a 0#5 ta false 0x10#9)
  | .popc d a ta => some (wordR 0x2#6 d a 0#5 ta false 0x20#9)
  | .sext d a ta z => some (wordR 0x2#6 d a 0#5 ta false (3#5 ++ 0#2 ++ z))
  | .zext d a ta z => some (wordR 0x2#6 d a 0#5 ta false (4#5 ++ 0#2 ++ z))
  | .mke d => some (wordR 0x2#6 d 0#5 0#5 false false 0x50#9)
  | .full d a => some (wordR 0x2#6 d a 0#5 false false 0x60#9)
  | .addpc d i => some (wordJ 0x3#6 d i)
  | .addi d a ta i => some (wordI 0x4#6 d a ta i)
  | .andi d a ta i => some (wordI 0x5#6 d a ta i)
  | .ori d a ta i => some (wordI 0x6#6 d a ta i)
  | .xori d a ta i => some (wordI 0x7#6 d a ta i)
  | .slti d a ta i => some (wordI 0x8#6 d a ta i)
  | .sltiu d a ta i => some (wordI 0x9#6 d a ta i)
  | .slli d a ta h => some (wordI 0xa#6 d a ta (0#9 ++ h))
  | .srli d a ta h => some (wordI 0xb#6 d a ta (0#9 ++ h))
  | .srai d a ta h => some (wordI 0xc#6 d a ta (0#9 ++ h))
  | .bfx d a ta w p => some (wordI 0xd#6 d a ta (0#3 ++ w ++ p))
  | .bfi d a ta w p => some (wordI 0xe#6 d a ta (0#3 ++ w ++ p))
  | .lih d i => some (wordJ 0xf#6 d i)
  | .ld d a ta z o => some (wordI 0x10#6 d a ta (z ++ o))
  | .lda d a ta z o => some (wordI 0x11#6 d a ta (z ++ o))
  | .st b a ta tb z o => some (wordS 0x12#6 b a ta tb (z ++ o))
  | .str b a ta tb z o => some (wordS 0x13#6 b a ta tb (z ++ o))
  | .fence e f g h c => some (wordI 0x14#6 0#5 0#5 false (0#8 ++ bit1 e ++ bit1 f ++ bit1 g ++ bit1 h ++ c))
  | .flush a ta o => some (wordI 0x15#6 0#5 a ta o)
  | .beq b a ta tb i => some (wordS 0x18#6 b a ta tb i)
  | .bne b a ta tb i => some (wordS 0x19#6 b a ta tb i)
  | .blt b a ta tb i => some (wordS 0x1a#6 b a ta tb i)
  | .bge b a ta tb i => some (wordS 0x1b#6 b a ta tb i)
  | .bltu b a ta tb i => some (wordS 0x1c#6 b a ta tb i)
  | .bgeu b a ta tb i => some (wordS 0x1d#6 b a ta tb i)
  | .jal d i => some (wordJ 0x1e#6 d i)
  | .jalr d a ta o => some (wordI 0x1f#6 d a ta (0#2 ++ o))
  | .loop a ta l => some (wordI 0x1f#6 0#5 a ta (1#2 ++ l))
  | .pause n => some (wordI 0x1f#6 0#5 0#5 false (2#2 ++ n))
  | .atom d a b ta tb o z c => some (wordR 0x20#6 d a b ta tb (o ++ bit1 z ++ 0#1 ++ c))
  | .atomr d a b ta tb n c => some (wordR 0x21#6 d a b ta tb (n ++ c))
  | .red a b ta tb o z c => some (wordR 0x22#6 0#5 a b ta tb (o ++ bit1 z ++ 0#1 ++ c))
  | .binit a b ta tb c => some (wordR 0x23#6 0#5 a b ta tb (0#3 ++ 0#3 ++ c))
  | .binv a ta c => some (wordR 0x23#6 0#5 a 0#5 ta false (1#3 ++ 0#3 ++ c))
  | .arrive d a ta c => some (wordR 0x23#6 d a 0#5 ta false (2#3 ++ 0#3 ++ c))
  | .testph d a b ta tb c => some (wordR 0x23#6 d a b ta tb (3#3 ++ 0#3 ++ c))
  | .waitph d a b ta tb c => some (wordR 0x23#6 d a b ta tb (4#3 ++ 0#3 ++ c))
  | .sigop d a b ta tb o z c => some (wordR 0x24#6 d a b ta tb (o ++ 0#1 ++ bit1 z ++ 0#1 ++ c))
  | .watch d a b ta tb m z c => some (wordR 0x25#6 d a b ta tb (m ++ bit1 z ++ 0#1 ++ c))
  | .futrd d a ta z c => some (wordR 0x26#6 d a 0#5 ta false (0#3 ++ 0#1 ++ bit1 z ++ 0#1 ++ c))
  | .futwr a b ta tb z c => some (wordR 0x26#6 0#5 a b ta tb (1#3 ++ 0#1 ++ bit1 z ++ 0#1 ++ c))
  | .spawn d a b ta tb p r => some (wordR 0x28#6 d a b ta tb (0#5 ++ bit1 p ++ r))
  | .depadd a b ta tb => some (wordR 0x29#6 0#5 a b ta tb 0#9)
  | .depdec a b ta tb => some (wordR 0x29#6 0#5 a b ta tb 1#9)
  | .done a ta => some (wordR 0x2a#6 0#5 a 0#5 ta false 0#9)
  | .suspend b tb => some (wordR 0x2a#6 0#5 0#5 b false tb 1#9)
  | .arm a b ta tb k => some (wordR 0x2b#6 0#5 a b ta tb (0#5 ++ k))
  | .book d a b ta tb => some (wordR 0x2c#6 d a b ta tb 0#9)
  | .extend d a ta => some (wordR 0x2d#6 d a 0#5 ta false 0#9)
  | .release a ta => some (wordR 0x2e#6 0#5 a 0#5 ta false 0#9)
  | .issue d a b n => some (wordC 0x30#6 d a b n)
  | .srr d r => some (wordY 0x3f#6 d 0#5 (0#4 ++ r))
  | .srw a r => some (wordY 0x3f#6 0#5 a (4#4 ++ r))
  | .trap n => some (wordY 0x3f#6 0#5 0#5 (9#4 ++ n))
  | .yield => some (wordR 0x2a#6 0#5 0#5 0#5 false false 2#9)
  | .eret => some (wordY 0x3f#6 0#5 0#5 (8#4 ++ 0#12))
  | _ => none

/-- R32: the fields a word of the form does not use. -/
def zD (w : W32) : Bool := dF w == 0#5
def zA (w : W32) : Bool := aF w == 0#5
def zB (w : W32) : Bool := bF w == 0#5

/-- Accept an instruction when its unused fields are zero and its sub-fields pass R34 to R40. -/
def accept (w : W32) (unused : Bool) (i : Instr) : Except DecodeError Instr :=
  if unused then (if i.wf then .ok i else .error (.badSubField (opF w).toNat))
  else .error (.unusedField (opF w).toNat)

/-- R35: group 0x00. -/
def decodeInt (w : W32) : Except DecodeError Instr :=
  let d := dF w; let a := aF w; let b := bF w; let ta := taR w; let tb := tbR w
  match (fnF w).toNat with
  | 0 => accept w true (.add d a b ta tb)
  | 1 => accept w true (.sub d a b ta tb)
  | 2 => accept w true (.and d a b ta tb)
  | 3 => accept w true (.or d a b ta tb)
  | 4 => accept w true (.xor d a b ta tb)
  | 5 => accept w true (.sll d a b ta tb)
  | 6 => accept w true (.srl d a b ta tb)
  | 7 => accept w true (.sra d a b ta tb)
  | 8 => accept w true (.slt d a b ta tb)
  | 9 => accept w true (.sltu d a b ta tb)
  | 10 => accept w true (.min d a b ta tb)
  | 11 => accept w true (.max d a b ta tb)
  | 12 => accept w true (.minu d a b ta tb)
  | 13 => accept w true (.maxu d a b ta tb)
  | n => .error (.reservedFn 0 n)

/-- R35: group 0x01. -/
def decodeMul (w : W32) : Except DecodeError Instr :=
  let d := dF w; let a := aF w; let b := bF w; let ta := taR w; let tb := tbR w
  match (fnF w).toNat with
  | 0 => accept w true (.mul d a b ta tb)
  | 1 => accept w true (.mulh d a b ta tb)
  | 2 => accept w true (.mulhu d a b ta tb)
  | 3 => accept w true (.div d a b ta tb)
  | 4 => accept w true (.divu d a b ta tb)
  | 5 => accept w true (.rem d a b ta tb)
  | 6 => accept w true (.remu d a b ta tb)
  | n => .error (.reservedFn 1 n)

/-- R35: group 0x02. The sizes of SEXT and ZEXT stand in fn [1:0]. -/
def decodeBit (w : W32) : Except DecodeError Instr :=
  let d := dF w; let a := aF w; let ta := taR w
  let one := zB w && !tbR w
  match (fnF w).toNat with
  | 0x00 => accept w one (.clz d a ta)
  | 0x10 => accept w one (.ctz d a ta)
  | 0x20 => accept w one (.popc d a ta)
  | 0x30 => accept w one (.sext d a ta 0#2)
  | 0x31 => accept w one (.sext d a ta 1#2)
  | 0x32 => accept w one (.sext d a ta 2#2)
  | 0x40 => accept w one (.zext d a ta 0#2)
  | 0x41 => accept w one (.zext d a ta 1#2)
  | 0x42 => accept w one (.zext d a ta 2#2)
  | 0x50 => accept w (one && zA w && !ta) (.mke d)
  | 0x60 => accept w (one && !ta) (.full d a)
  | n => .error (.reservedFn 2 n)

/-- R38: the low bits of fn in the synchronisation opcodes: scope [2:0], zero bits, size [4]. -/
def scopeF (w : W32) : BitVec 3 := (fnF w).extractLsb' 0 3
def sizeF (w : W32) : Bool := (fnF w).getLsbD 4

/-- R38: the barrier group 0x23. -/
def decodeBarrier (w : W32) : Except DecodeError Instr :=
  let d := dF w; let a := aF w; let b := bF w; let ta := taR w; let tb := tbR w; let c := scopeF w
  if (fnF w).extractLsb' 3 3 != 0#3 then .error (.unusedField 0x23) else
  match ((fnF w).extractLsb' 6 3).toNat with
  | 0 => accept w (zD w) (.binit a b ta tb c)
  | 1 => accept w (zD w && zB w && !tb) (.binv a ta c)
  | 2 => accept w (zB w && !tb) (.arrive d a ta c)
  | 3 => accept w true (.testph d a b ta tb c)
  | 4 => accept w true (.waitph d a b ta tb c)
  | n => .error (.reservedFn 0x23 n)

/-- R38: the future group 0x26. -/
def decodeFuture (w : W32) : Except DecodeError Instr :=
  let d := dF w; let a := aF w; let b := bF w; let ta := taR w; let tb := tbR w; let c := scopeF w
  if (fnF w).getLsbD 5 || (fnF w).getLsbD 3 then .error (.unusedField 0x26) else
  match ((fnF w).extractLsb' 6 3).toNat with
  | 0 => accept w (zB w && !tb) (.futrd d a ta (sizeF w) c)
  | 1 => accept w (zD w) (.futwr a b ta tb (sizeF w) c)
  | n => .error (.reservedFn 0x26 n)

/-- R39: the dependence group 0x29 and the end group 0x2A. -/
def decodeDep (w : W32) : Except DecodeError Instr :=
  match (fnF w).toNat with
  | 0 => accept w (zD w) (.depadd (aF w) (bF w) (taR w) (tbR w))
  | 1 => accept w (zD w) (.depdec (aF w) (bF w) (taR w) (tbR w))
  | n => .error (.reservedFn 0x29 n)

def decodeEnd (w : W32) : Except DecodeError Instr :=
  match (fnF w).toNat with
  | 0 => accept w (zD w && zB w && !tbR w) (.done (aF w) (taR w))
  | 1 => accept w (zD w && zA w && !taR w) (.suspend (bF w) (tbR w))
  | 2 => accept w (zD w && zA w && zB w && !taR w && !tbR w) .yield
  | n => .error (.reservedFn 0x2A n)

/-- R36: opcode 0x1F holds JALR, LOOP and PAUSE. -/
def decodeJump (w : W32) : Except DecodeError Instr :=
  let o : BitVec 13 := (immI w).extractLsb' 0 13
  match ((immI w).extractLsb' 13 2).toNat with
  | 0 => accept w true (.jalr (dF w) (aF w) (taI w) o)
  | 1 => accept w (zD w) (.loop (aF w) (taI w) o)
  | 2 => accept w (zD w && zA w && !taI w) (.pause o)
  | n => .error (.reservedFn 0x1F n)

/-- R40: the system group 0x3F. -/
def decodeSystem (w : W32) : Except DecodeError Instr :=
  let r : BitVec 12 := (yF w).extractLsb' 0 12
  match ((yF w).extractLsb' 12 4).toNat with
  | 0 => accept w (zA w) (.srr (dF w) r)
  | 4 => accept w (zD w) (.srw (aF w) r)
  | 8 => accept w (zD w && zA w && r == 0#12) .eret
  | 9 => accept w (zD w && zA w) (.trap r)
  | n => .error (.reservedFn 0x3F n)

/-- R34: the major opcodes. R39 uses the priority of SPAWN when P = 1; with P = 0 a nonzero priority is accepted and
ignored, since the field is one that the form has (DEDUCED, log entry 41). -/
def decodeWord (w : W32) : Except DecodeError Instr :=
  let d := dF w; let a := aF w; let b := bF w
  let ta := taR w; let tb := tbR w; let fn := fnF w
  let si := taI w; let imm := immI w
  let shOk := imm.extractLsb' 6 9 == 0#9
  let bfOk := imm.extractLsb' 12 3 == 0#3
  match (opF w).toNat with
  | 0x00 => decodeInt w
  | 0x01 => decodeMul w
  | 0x02 => decodeBit w
  | 0x03 => accept w true (.addpc d (immJ w))
  | 0x4 => accept w true (.addi d a si imm)
  | 0x5 => accept w true (.andi d a si imm)
  | 0x6 => accept w true (.ori d a si imm)
  | 0x7 => accept w true (.xori d a si imm)
  | 0x8 => accept w true (.slti d a si imm)
  | 0x9 => accept w true (.sltiu d a si imm)
  | 0xa => accept w shOk (.slli d a si (imm.extractLsb' 0 6))
  | 0xb => accept w shOk (.srli d a si (imm.extractLsb' 0 6))
  | 0xc => accept w shOk (.srai d a si (imm.extractLsb' 0 6))
  | 0xd => accept w bfOk (.bfx d a si (imm.extractLsb' 6 6) (imm.extractLsb' 0 6))
  | 0xe => accept w bfOk (.bfi d a si (imm.extractLsb' 6 6) (imm.extractLsb' 0 6))
  | 0xf => accept w true (.lih d (immJ w))
  | 0x10 => accept w true (.ld d a si (imm.extractLsb' 13 2) (imm.extractLsb' 0 13))
  | 0x11 => accept w true (.lda d a si (imm.extractLsb' 13 2) (imm.extractLsb' 0 13))
  | 0x12 => accept w true (.st d a si (tbS w) ((immS w).extractLsb' 12 2) ((immS w).extractLsb' 0 12))
  | 0x13 => accept w true (.str d a si (tbS w) ((immS w).extractLsb' 12 2) ((immS w).extractLsb' 0 12))
  | 0x14 => accept w (zD w && zA w && !si && imm.extractLsb' 7 8 == 0#8)
      (.fence (imm.getLsbD 6) (imm.getLsbD 5) (imm.getLsbD 4) (imm.getLsbD 3) (imm.extractLsb' 0 3))
  | 0x15 => accept w (zD w) (.flush a si imm)
  | 0x18 => accept w true (.beq d a si (tbS w) (immS w))
  | 0x19 => accept w true (.bne d a si (tbS w) (immS w))
  | 0x1a => accept w true (.blt d a si (tbS w) (immS w))
  | 0x1b => accept w true (.bge d a si (tbS w) (immS w))
  | 0x1c => accept w true (.bltu d a si (tbS w) (immS w))
  | 0x1d => accept w true (.bgeu d a si (tbS w) (immS w))
  | 0x1e => accept w true (.jal d (immJ w))
  | 0x1f => decodeJump w
  | 0x20 => accept w (!fn.getLsbD 3) (.atom d a b ta tb (fn.extractLsb' 5 4) (sizeF w) (scopeF w))
  | 0x21 => accept w true (.atomr d a b ta tb (fn.extractLsb' 3 6) (scopeF w))
  | 0x22 => accept w (zD w && !fn.getLsbD 3) (.red a b ta tb (fn.extractLsb' 5 4) (sizeF w) (scopeF w))
  | 0x23 => decodeBarrier w
  | 0x24 => accept w (!fn.getLsbD 5 && !fn.getLsbD 3) (.sigop d a b ta tb (fn.extractLsb' 6 3) (sizeF w) (scopeF w))
  | 0x25 => accept w (!fn.getLsbD 3) (.watch d a b ta tb (fn.extractLsb' 5 4) (sizeF w) (scopeF w))
  | 0x26 => decodeFuture w
  | 0x28 => accept w (fn.extractLsb' 4 5 == 0#5) (.spawn d a b ta tb (fn.getLsbD 3) (fn.extractLsb' 0 3))
  | 0x29 => decodeDep w
  | 0x2a => decodeEnd w
  | 0x2b => accept w (zD w && fn.extractLsb' 4 5 == 0#5) (.arm a b ta tb (fn.extractLsb' 0 4))
  | 0x2c => accept w (fn == 0#9) (.book d a b ta tb)
  | 0x2d => accept w (zB w && !tb && fn == 0#9) (.extend d a ta)
  | 0x2e => accept w (zD w && zB w && !tb && fn == 0#9) (.release a ta)
  | 0x30 => .ok (.issue d a b (idxC w))
  | 0x3f => decodeSystem w
  | n => .error (.reservedOpcode n)

/-- R29: the scalar instruction at the head of a list of bytes, and the bytes after it. -/
def decode (bs : List Byte) : Except DecodeError (Instr × List Byte) :=
  match bs with
  | b0 :: b1 :: b2 :: b3 :: rest =>
    match decodeWord (wordOfBytes b0 b1 b2 b3) with
    | .ok i => .ok (i, rest)
    | .error e => .error e
  | _ => .error .truncated

/-! ## Stream commands (R41) -/

/-- R41: the 128-bit word of an opcode and its fields. -/
def packCmd (op : Nat) (x : CmdArgs) : W128 :=
  BitVec.ofNat 8 op ++ bit1 x.fs ++ bit1 x.ff ++ bit1 x.fw ++ bit1 x.fc ++ x.ta ++ x.tb ++ x.tc ++ x.scope ++
    x.fixed ++ x.p0 ++ x.p1

/-- R41: the opcode of a template. -/
def opCmd (w : W128) : Nat := (w.extractLsb' 120 8).toNat

/-- R41: the fields of a template. -/
def unpackCmd (w : W128) : CmdArgs where
  fs := w.getLsbD 119
  ff := w.getLsbD 118
  fw := w.getLsbD 117
  fc := w.getLsbD 116
  ta := w.extractLsb' 110 6
  tb := w.extractLsb' 104 6
  tc := w.extractLsb' 98 6
  scope := w.extractLsb' 95 3
  fixed := w.extractLsb' 64 31
  p0 := w.extractLsb' 32 32
  p1 := w.extractLsb' 0 32

/-- R41, R43: the word of a stream command. -/
def encodeCmd (i : Instr) : Option W128 :=
  match i.cmdOpcode, i.cmdArgs with
  | some op, some (_, x) => some (packCmd op x)
  | _, _ => none

/-- R43: the command of an opcode. -/
def cmdInstr (op : Nat) (k : CmdRef) (x : CmdArgs) : Option Instr :=
  match op with
  | 0x1 => some (.cfg k x)
  | 0x2 => some (.pbind k x)
  | 0x3 => some (.agaff k x)
  | 0x4 => some (.agind k x)
  | 0x5 => some (.pstart k x)
  | 0x6 => some (.pstop k x)
  | 0x7 => some (.pmark k x)
  | 0x8 => some (.tidset k x)
  | 0x9 => some (.tidclr k x)
  | 0xa => some (.cbar k x)
  | 0x10 => some (.copy k x)
  | 0x11 => some (.copym k x)
  | 0x12 => some (.gather k x)
  | 0x13 => some (.scatter k x)
  | 0x14 => some (.l2push k x)
  | 0x15 => some (.tfetch k x)
  | 0x16 => some (.unpin k x)
  | 0x20 => some (.mmaE4m3 k x)
  | 0x21 => some (.mmaE5m2 k x)
  | 0x22 => some (.mmaBf16 k x)
  | 0x23 => some (.mmaF16 k x)
  | 0x24 => some (.mmaE2m1 k x)
  | 0x25 => some (.mmaL6 k x)
  | 0x28 => some (.mmazE4m3 k x)
  | 0x29 => some (.mmazE5m2 k x)
  | 0x2a => some (.mmazBf16 k x)
  | 0x2b => some (.mmazF16 k x)
  | 0x2c => some (.mmazE2m1 k x)
  | 0x2d => some (.mmazL6 k x)
  | 0x30 => some (.mload k x)
  | 0x31 => some (.mstore k x)
  | 0x32 => some (.mscale k x)
  | 0x38 => some (.contrib k x)
  | 0x39 => some (.cred k x)
  | 0x40 => some (.signal k x)
  | 0x41 => some (.arrivec k x)
  | 0x42 => some (.waitc k x)
  | 0x48 => some (.gqpost k x)
  | _ => none

/-- R41 to R45: the command a template holds, for the acceptance k; `none` where R46 raises illegal command on the
word alone. -/
def decodeCmd (k : CmdRef) (w : W128) : Option Instr :=
  let x := unpackCmd w
  if cmdStaticOk (opCmd w) x then cmdInstr (opCmd w) k x else none

/-! ## Site operation words (R47) -/

/-- R47: the 64-bit word of a kind, an opcode and its fields. -/
def packSite (kind op : Nat) (x : SiteArgs) : W64 :=
  BitVec.ofNat 7 op ++ BitVec.ofNat 2 kind ++ x.dst ++ x.a ++ x.b ++ x.c ++ x.ty ++ x.rnd ++ x.mods

/-- R47: opcode, kind and fields of a site word. -/
def opSite (w : W64) : Nat := (w.extractLsb' 57 7).toNat
def kindSite (w : W64) : Nat := (w.extractLsb' 55 2).toNat
def unpackSite (w : W64) : SiteArgs where
  dst := w.extractLsb' 51 4
  a := w.extractLsb' 45 6
  b := w.extractLsb' 39 6
  c := w.extractLsb' 33 6
  ty := w.extractLsb' 29 4
  rnd := w.extractLsb' 26 3
  mods := w.extractLsb' 0 26

/-- R47, R50: the word of a site operation. -/
def encodeSite (i : Instr) : Option W64 :=
  match i.siteOpcode, i.siteArgs with
  | some (kind, op), some (_, x) => some (packSite kind op x)
  | _, _ => none

/-- R50: the operation of a kind and opcode. -/
def siteInstr (kind op : Nat) (r : SiteRef) (x : SiteArgs) : Option Instr :=
  match kind, op with
  | 0, 0x1 => some (.fadd r x)
  | 0, 0x2 => some (.fsub r x)
  | 0, 0x3 => some (.fmul r x)
  | 0, 0x4 => some (.fma r x)
  | 0, 0x5 => some (.fmin r x)
  | 0, 0x6 => some (.fmax r x)
  | 0, 0x7 => some (.fabs r x)
  | 0, 0x8 => some (.fneg r x)
  | 0, 0x9 => some (.frcp r x)
  | 0, 0xa => some (.frsq r x)
  | 0, 0xb => some (.fexp2 r x)
  | 0, 0xc => some (.flog2 r x)
  | 0, 0xd => some (.fcmp r x)
  | 0, 0xe => some (.fclass r x)
  | 0, 0xf => some (.fcvt r x)
  | 0, 0x10 => some (.hadd2 r x)
  | 0, 0x11 => some (.hmul2 r x)
  | 0, 0x12 => some (.hfma2 r x)
  | 0, 0x13 => some (.hdot2 r x)
  | 0, 0x14 => some (.q8dot4 r x)
  | 0, 0x18 => some (.lmul r x)
  | 0, 0x19 => some (.lacc r x)
  | 0, 0x1a => some (.lcvt r x)
  | 0, 0x20 => some (.iadd r x)
  | 0, 0x21 => some (.isub r x)
  | 0, 0x22 => some (.imul r x)
  | 0, 0x23 => some (.imulh r x)
  | 0, 0x24 => some (.imad r x)
  | 0, 0x25 => some (.imin r x)
  | 0, 0x26 => some (.imax r x)
  | 0, 0x27 => some (.iabs r x)
  | 0, 0x28 => some (.alAnd r x)
  | 0, 0x29 => some (.alOr r x)
  | 0, 0x2a => some (.alXor r x)
  | 0, 0x2b => some (.not r x)
  | 0, 0x2c => some (.shl r x)
  | 0, 0x2d => some (.shr r x)
  | 0, 0x2e => some (.sar r x)
  | 0, 0x2f => some (.icmp r x)
  | 0, 0x30 => some (.sel r x)
  | 0, 0x31 => some (.alPopc r x)
  | 0, 0x32 => some (.alClz r x)
  | 0, 0x33 => some (.hash r x)
  | 0, 0x38 => some (.rsum r x)
  | 0, 0x39 => some (.rmax r x)
  | 0, 0x3a => some (.scanl r x)
  | 0, 0x3b => some (.shuf r x)
  | 0, 0x3c => some (.bcast r x)
  | 0, 0x3d => some (.iota r x)
  | 0, 0x3e => some (.const r x)
  | 1, 0x1 => some (.spld r x)
  | 1, 0x2 => some (.spst r x)
  | 1, 0x3 => some (.spldi r x)
  | 1, 0x4 => some (.spatom r x)
  | 1, 0x5 => some (.l1ld r x)
  | 1, 0x6 => some (.l1st r x)
  | 1, 0x7 => some (.tld r x)
  | 1, 0x8 => some (.tst r x)
  | 1, 0x9 => some (.park r x)
  | 2, 0x1 => some (.scan r x)
  | 2, 0x2 => some (.coord r x)
  | 2, 0x3 => some (.isect r x)
  | 2, 0x4 => some (.union r x)
  | 2, 0x5 => some (.repeat r x)
  | 2, 0x6 => some (.reduce r x)
  | 2, 0x7 => some (.topk r x)
  | 2, 0x8 => some (.spval r x)
  | 3, 0x1 => some (.fork r x)
  | 3, 0x2 => some (.filter r x)
  | 3, 0x3 => some (.steer r x)
  | 3, 0x4 => some (.merge r x)
  | 3, 0x5 => some (.recirc r x)
  | 3, 0x6 => some (.compact r x)
  | 3, 0x7 => some (.order r x)
  | 3, 0x8 => some (.mark r x)
  | 3, 0x9 => some (.dusk r x)
  | 3, 0xa => some (.gate r x)
  | 3, 0xb => some (.retire r x)
  | 3, 0xc => some (.tagset r x)
  | _, _ => none

/-- R47 to R52: the operation a site word holds on the site r; `none` where validation finds an image error in the
word alone. -/
def decodeSite (r : SiteRef) (w : W64) : Option Instr :=
  let x := unpackSite w
  if siteWordOk (kindSite w) (opSite w) x then siteInstr (kindSite w) (opSite w) r x else none

/-! ## Bytes of every layer -/

/-- R29: the bytes of an instruction of any layer, the lowest address first; an event has none. -/
def encode (i : Instr) : List Byte :=
  match encodeWord i, encodeCmd i, encodeSite i with
  | some w, _, _ => bytesOf w 4
  | _, some w, _ => bytesOf w 16
  | _, _, some w => bytesOf w 8
  | _, _, _ => []

/-- The scalar instruction of a word numbered as spec/opcode_table.json numbers it: the word laid out as R29 stores
it, given to the decoder. Only the scalar rows of the table have bits. -/
def decodeTableWord (_nbits w : Nat) : Option Instr :=
  match decode (bytesOf (BitVec.ofNat 32 w) 4) with
  | .ok (i, _) => some i
  | .error _ => none

end Sys2Proof
end

