-- ==== Sys2Proof/Config.lean ====
section
/-! DEFINITION. What the package's surroundings fix and the manual does not: the free values. Each is an opaque
constant applied to a counter held in the state, so that nothing can be proved of its value. -/

namespace Sys2Proof

/-- Bytes that another device answers a read with (R372, R374); free value number n, byte i. DESIGN CHOICE, log entry 1. -/
opaque Config.peerByte : Nat → Nat → Byte

/-- R228: entries that the overflow area of a die's engine holds beside its SRAM. DESIGN CHOICE, log entry 10. -/
opaque Config.overflow : Nat → Nat

/-- R217: which of the two allowed values an overlapping byte of a COPY receives: byte i of copy number n. DESIGN CHOICE, log entry 2. -/
opaque Config.copyNew : Nat → Nat → Bool

/-- R449: the version (W5) of the firmware whose digest is given, device-defined. DESIGN CHOICE, log entry 3. -/
opaque Config.fwVersion : BitVec 512 → W64

/-- R405, R411: the bytes of the edge state, other than ports, of a region of a number of sites; at most 256 KiB are
used. DESIGN CHOICE, log entry 73. -/
opaque Config.edgeBytes : Nat → Nat

/-- R411: the overflow area of a die has room for a save area beside n others. DESIGN CHOICE, log entry 73. -/
opaque Config.saveRoom : Nat → Nat → Bool

/-- R399: word i of sr.frec after a restoring dispatch, which keeps only the writable system registers and sr.tstat; free
value number n. DESIGN CHOICE, log entry 113. -/
opaque Config.lostFrec : Nat → Nat → W64

/-- R451: the identity key that the EP derives from the fused secret, an Ed25519 private key. DESIGN CHOICE, log entry 3. -/
opaque Config.identityKey : BitVec 256 → BitVec 256

/-- R148: whether the link partner of an Elcel port reduces (R149, MODE 0). DESIGN CHOICE, log entry 4. -/
opaque Config.linkReduces : Nat → Bool

/-- R26, R251: START in the completion record of a task that never had a window; free value number n. DESIGN CHOICE, log entry 11. -/
opaque Config.noStart : Nat → W64

/-- R264: COUNT when an ARM would raise it above 2^32 − 1; free value number n. DESIGN CHOICE, log entry 11. -/
opaque Config.bigCount : Nat → W32

/-- R380: the save area of a tag of a guest site, which the EP allocates in HBM at bring-up. DESIGN CHOICE, log entry 3. -/
opaque Config.saveArea : Nat

end Sys2Proof
end

