-- ==== Sys2Proof/Machine/Records.lean ====
section
/-! DEFINITION. The records a control core, its task and its lease are made of: registers, loop stack, late
producers, accepted commands, tensor entries, extents, traps and reservations. Plain data only. -/

namespace Sys2Proof.Machine

/-- A sparse table: keys strictly rising, no entry equal to the table's default. -/
abbrev SMap (α : Type) := List (Nat × α)

/-- R81, R82: one scalar register: value, full bit, pending marker. -/
structure RegCell where
  val  : W64
  full : Bool
  pend : Bool
deriving DecidableEq, Repr

/-- R258: one entry of a loop stack; `fin` is the address of the last instruction of the body. -/
structure LoopEnt where
  start : W64
  fin   : W64
  left  : Nat
deriving DecidableEq, Repr

/-- R85: a late producer that has not delivered. `live` is false once MKE cancelled it or rd is s0; `val` is the
value once it is fixed. -/
structure Flight where
  id   : Nat
  rd   : Reg
  live : Bool
  val  : Option W64
deriving DecidableEq, Repr

/-- R399: the system registers of a context that hold state. -/
structure SysRegs where
  seed  : W64
  tvec  : W64
  cause : W64
  epc   : W64
  tval  : W64
  hmode : Bool
  csig  : W64
  wbar  : W64
  wtok  : W64
  frec  : Vector W64 8
deriving DecidableEq, Repr

/-- R392: a deferred trap that is due: a region fault, or promise-missed with its P and its command's number. -/
structure DueTrap where
  region : Bool
  cmd    : Nat
  cause  : W64
  tval   : W64
  prom   : Nat
  rec_   : Vector W64 8
deriving DecidableEq, Repr

/-- R78: a tensor identifier entry, words W0 to W7. -/
abbrev Tid := Vector W64 8

/-- R202: the queues of a port scoreboard. -/
inductive QueueId where
  | port (k : Nat)
  | region
  | tileArray (t : Nat)
  | tileBank (t : Nat)
  | tileFetch (t : Nat)
  | copy
  | l2
  | coll
  | sync
  | guest
  | tid
  | barrier
deriving DecidableEq, Repr

/-- How far an accepted command has come (R204, R207): not started, started, its effect performed, or acknowledged
and awaiting its last step. -/
inductive CmdPhase where
  | waiting
  | started
  | done
deriving DecidableEq, Repr

/-- One accepted stream command (R203): its patched word, queue, the registers read at ISSUE, the entries read at
acceptance, and its progress. `carrier` names the command whose follow-on it is; `held` is true while a follow-on's
landing has not happened; `missed` is set once
the missed promise has been raised; `step` is 0 until the effect has been
performed; `bad` records for ARRIVEC that a command it waits for ended with a status other than 00; `recv` lists the
tasks and ports that an L2PUSH still feeds, and `sent` counts the bytes it has sent; `words` is the packet that a GQPOST
has read. -/
structure Cmd where
  id      : Nat
  word    : W128
  queue   : QueueId
  phase   : CmdPhase
  csig    : W64
  wbar    : W64
  wtok    : W64
  pc      : W64
  carrier : Option Nat
  held    : Bool
  tidA    : Tid
  tidB    : Tid
  tidC    : Tid
  wDone   : Bool
  status  : BitVec 2
  ce      : Nat
  prom    : Option Nat
  missed  : Bool
  step    : Nat
  bad     : Bool
  recv    : List (W64 × Nat)
  sent    : Nat
  words   : List W64
deriving DecidableEq, Repr

/-- R371: an outbound window entry as a lease holds it. -/
structure PeerWin where
  dev : Nat
  win : Nat
  key : W64
  r   : Bool
  w   : Bool
  sa  : Bool
deriving DecidableEq, Repr

/-- R362: a run of pages: first virtual byte, length, attributes R162, page size code, first physical byte. -/
structure PRun where
  vstart : Nat
  len    : Nat
  attr   : BitVec 8
  psz    : Nat
  pstart : Nat
deriving DecidableEq, Repr

/-- R359, R362: an extent of a lease: its logical number (16 for the code extent), rights, base, length, runs; a
peer extent carries its window. -/
structure Extent where
  idx  : Nat
  r    : Bool
  w    : Bool
  x    : Bool
  base : Nat
  len  : Nat
  runs : List PRun
  peer : Option PeerWin
deriving DecidableEq, Repr

/-- R264: one armed event: kind as ARM numbers it, the source, the phase for kind 2. -/
structure Arm where
  kind : Nat
  src  : W64
  aux  : W64
deriving DecidableEq, Repr

/-- R272: a reservation descriptor, decoded. -/
structure ResDesc where
  place  : Nat
  fcn    : Nat
  xlim   : Nat
  win    : Nat
  dies   : Nat
  seamsh : Nat
  l2sh   : Nat
  lsh    : Nat
  lkind  : Nat
  lport  : Nat
  gslot  : Nat
  gsite  : Nat
  rsvd   : Bool
deriving DecidableEq, Repr

/-- R275: an entry of an Almanac, with its window; `st` is 1 entered, 2 started, 3 held by BOOK. `xlim` is
the extension limit of its descriptor (R280), `floor` the first slot and `made` the cycle
of its request (R276, R283). -/
structure AlmEnt where
  floor  : Nat
  made   : Nat
  st     : Nat
  dies   : Nat
  gslot  : Nat
  gsite  : Nat
  rgn    : Bool
  handle : W64
  start  : Nat
  last   : Nat
  fc     : Nat
  row0   : Nat
  cgo    : Nat
  hgt    : Nat
  wid    : Nat
  ctxn   : Nat
  tiles  : Nat
  ports  : Nat
  l2sh   : Nat
  seamsh : Nat
  lsh    : Nat
  lkind  : Nat
  lport  : Nat
  xlim   : Nat
deriving DecidableEq, Repr

/-- R356: a context entry. -/
structure CtxEnt where
  valid : Bool
  root  : Nat
  seed  : W64
deriving DecidableEq, Repr

/-- R51: an image header, decoded, with its base address. -/
structure ImageHdr where
  base   : Nat
  scope  : Nat
  stages : Nat
  height : Nat
  width  : Nat
  ports  : Nat
  tiles  : Nat
  link   : Nat
  l2sh   : Nat
  shadow : Nat
  round  : Nat
  tids   : W64
  sites  : Nat
  length : Nat
  stab   : Nat
  nwords : Nat
  slist  : Nat
deriving DecidableEq, Repr

end Sys2Proof.Machine
end

