-- ==== Sys2Proof/Machine/RegionRec.lean ====
section
/-! DEFINITION. The records of a region: bundles and their records, sites, ports, tiles, rounds and edges (R96 to
R129, R130 to R144, R188 to R200, R212 to R215, R289 to R310, R405). Plain data only. -/

namespace Sys2Proof.Machine

/-- R14, R96: a record in one lane: fields f0 up, hidden tag, and, when it carries the absent mark (R215, R297), the
port and ordinal it waits for. -/
structure Rec where
  flds   : List W32
  tag    : BitVec 16
  absent : Option (Nat × Nat)
deriving DecidableEq, Repr

/-- R16: a bundle: 16 lanes (a missing lane is a bubble), the 8-bit number of its round, and how far each reading
port's stream had come when it left: the next record of each such port (the model's own mark, from which R405's port
positions are taken). -/
structure Bundle where
  lanes : List (Option Rec)
  rnd   : BitVec 8
  seen  : List (Nat × Nat)
deriving DecidableEq, Repr

/-- What travels on a link: data, the marker of a round with its 8-bit number (R16, R296), trial or final dusk
(R308). -/
inductive Msg where
  | data (b : Bundle)
  | marker (n : BitVec 8)
  | dusk (final : Bool)
deriving DecidableEq, Repr

/-- R289: one route of a site: output, input of the target, columns east, rows south. -/
structure Route where
  out  : Nat
  inp  : Nat
  dx   : Int
  dy   : Int
  word : W64
deriving DecidableEq, Repr

/-- R189 to R193: a request of an MB: its original lane and the records that arrived for it on inputs i0 to i3. All
entries of a window are of the round open at the MB (R191, R193). -/
structure WinEnt where
  lane : Nat
  recs : List (Option Rec)
deriving DecidableEq, Repr

/-- R192: a record in the miss queue, with the line it asked for. -/
structure MissEnt where
  rec_ : Rec
  line : Nat
deriving DecidableEq, Repr

/-- R200: a parked record: the virtual address of the future word it waits on, its size, the field that receives the value, its number in
the vigil table, and the value once a write has woken it. -/
structure ParkEnt where
  id    : Nat
  rec_  : Rec
  va    : Nat
  size8 : Bool
  fld   : Nat
  val   : Option W64
deriving DecidableEq, Repr

/-- R194: what a shadow line covers: scratchpad, local or far memory, or a peer window, with the virtual address of its
first byte (R372). -/
inductive ShadowAt where
  | scratch
  | phys
  | peer (w : PeerWin) (va : Nat)
deriving DecidableEq, Repr

/-- R194: a shadow line: 32 bytes at a scratchpad offset, a physical sector address or a window offset, as the bytes
written (offset in the line, byte and the mask of its bits), and its round. -/
structure ShadowLine where
  place : ShadowAt
  addr  : Nat
  bytes : SMap (Byte × Byte)
  rnd   : Nat
deriving DecidableEq, Repr

/-- R128: the state a sparse site keeps: order check, windows and last keys of both inputs, the open REDUCE run
(key, sum, count), the TOPK list (score, payload), and output not yet sent. -/
structure SpCore where
  prev  : Option (W32 × W32)
  winA  : List Rec
  winB  : List Rec
  lastA : Option W32
  lastB : Option W32
  run   : Option (W32 × W32 × Nat)
  lastK : Option W32
  top   : List (W32 × W32)
  todo  : List Rec
deriving DecidableEq, Repr

/-- The state a flow site keeps: RECIRC's pending dusk, clean bit, whether its final dusk has left, its holds, loop
set and the rounds whose loop sets are open (R307 to R309); ORDER's next tag and holds, COMPACT's holds (R310);
TAGSET's counter; MARK's count of bundles and its next marker (R296). -/
structure FlCore where
  pend     : Option Bool
  clean    : Bool
  done     : Bool
  hold     : List Rec
  loopSet  : List Bundle
  capture  : List Nat
  nextTag  : BitVec 16
  order    : List Rec
  compact  : List Rec
  ctr      : BitVec 16
  count    : Nat
  nextMark : Nat
deriving DecidableEq, Repr

/-- The part of a site that is region state at a round edge (R405): generators and LA of an AL, the SP state, the
window, miss queue and parked records of an MB, the FL state. -/
structure SiteCore where
  gens   : List W32
  la     : List W64
  sp     : SpCore
  win    : List WinEnt
  missq  : List MissEnt
  parked : List ParkEnt
  fl     : FlCore
deriving DecidableEq, Repr

/-- R96 to R98: the work of an AL on its current combined bundle: the output records O, the arriving lanes of its
inputs (the joined lanes alone), the lowest used input, the chain registers of each lane, the fields collected for o0
to o3, the positions the bundle carries, and the next word. -/
structure AlWork where
  o     : List (Option Rec)
  ins   : List (List (Option Rec))
  low   : Nat
  chain : List (List W32)
  outs  : List (List (List W32))
  seen  : List (Nat × Nat)
  next  : Nat
deriving DecidableEq, Repr

/-- R191: the requests one service cycle of an MB grants, in the order they take effect: 1 stands before an entry of the
window, 0 before a lane of the new bundle; and the new lanes whose banks are busy. The window keeps a granted entry until it
counts as served. -/
structure MbServe where
  reqs : List (Nat × WinEnt)
  wait : List WinEnt
deriving DecidableEq, Repr

/-- A site of the placed region: its position; the operation words, constants and routes of the loaded stage (none when
it is idle, R289); its four input queues; the state of R405; the states recorded at markers not yet committed; the work
in hand; the round open at the site; whether its final dusk has left; the positions of the ports its data came from. -/
structure Site where
  row     : Nat
  col     : Nat
  words   : List W64
  consts  : List W32
  routes  : List Route
  ins     : List (List Msg)
  core    : SiteCore
  snaps   : List (Nat × SiteCore)
  al      : Option AlWork
  mb      : Option MbServe
  rnd     : Nat
  fin     : Bool
  seen    : List (Nat × Nat)
deriving DecidableEq, Repr

/-- R188, R194: the storage of an MB of the image, which outlives a stage: the bytes of its scratchpad (SP), the
entries of its shadow area and the lines its L1 partition has room for, whether a word of its stores to scratchpad (R411),
committed scratchpad, shadow lines. -/
structure MbStore where
  size    : Nat
  cap     : Nat
  room    : Nat
  mirror  : Bool
  scratch : SMap Byte
  shadow  : List ShadowLine
deriving DecidableEq, Repr

/-- R153, R157, R192: a copy of a line in an L1 partition: the task, the image position of its MB, the line, and the
records that asked for it and have not been presented again, which hold it against replacement. -/
structure L1Copy where
  task : W64
  mb   : Nat
  line : Nat
  wait : List Rec
deriving DecidableEq, Repr

/-- R212, R300, R301: a port's address generator. -/
inductive Gen where
  | none
  | bad
  | affine (base : Int) (n0 n1 n2 n3 : Nat) (d0 d1 d2 d3 : Int) (q0 q1 q2 : Int)
  | indirect (base : Int) (sh : Nat)
deriving DecidableEq, Repr

/-- R212 to R215, R299 to R302: an image port: binding, generator, started mark, stopped by PSTOP in this stage,
whether its final dusk has left (has arrived, for a writing port); the next record to emit (the next element to take,
for a writing port); the next element to request, the elements landed and not yet consumed (ordinal, container), the
first ordinals of records emitted absent and not yet filled, where the run-ahead stopped; records sent to it; pushed
bytes, and those of them that records emitted since the last edge consumed (R18, R405); the round open at a writing
port, and its next element at each marker. -/
structure Port where
  mode    : Nat
  tid     : Tid
  e       : Nat
  key     : Nat
  bytes   : Nat
  scope   : Nat
  psz     : Nat
  gen     : Gen
  started : Bool
  stopped : Bool
  dusked  : Bool
  next    : Nat
  req     : Nat
  landed  : List (Nat × Nat)
  owed    : List Nat
  stopAt  : Option Nat
  ins     : List Msg
  pushed  : List Byte
  kept    : List Byte
  rnd     : Nat
  snaps   : List (Nat × Nat)
deriving DecidableEq, Repr

/-- R403, R404: a store of an open round in a round store buffer: round, port, virtual address, physical address or
window offset with its window, bytes. -/
structure RoundStore where
  rnd   : Nat
  port  : Nat
  va    : Nat
  pa    : Nat
  peer  : Option PeerWin
  bytes : List Byte
deriving DecidableEq, Repr

/-- R405: the edge record. -/
structure Edge where
  held    : Bool
  stage   : Nat
  m0      : Nat
  m1      : Nat
  m2      : Nat
  j0      : Nat
  j1      : Nat
  j2      : Nat
  running : Bool
  ports   : SMap Port
  sites   : SMap SiteCore
deriving DecidableEq, Repr

/-- R294 to R296, R405: the region of a dispatched task: its image, the loaded stage, trip and pass counters, the
running CFG, the number of rounds committed, sites, MB storage, stores of open rounds, positions of reading
ports at markers, whether an early-edge request is outstanding and whether the MARKs have still to serve it (R296),
and the last edge. -/
structure Region where
  hdr     : Option ImageHdr
  stage   : Nat
  m0      : Nat
  m1      : Nat
  m2      : Nat
  j0      : Nat
  j1      : Nat
  j2      : Nat
  cfg     : Option Nat
  running : Bool
  seeded  : Bool
  committed : Nat
  everCommitted : Bool
  sites   : SMap Site
  tids    : SMap Tid
  mbs     : SMap MbStore
  stores  : List RoundStore
  markPos : List (Nat × List (Nat × Nat))
  early   : Bool
  edgeDue : Bool
  resume  : Bool
  edge    : Edge
deriving DecidableEq, Repr

/-- R225, R159: a line pinned for a panel: the side and range of the panel, the carrier, whether a follow-on
releases it. -/
structure Pin where
  pa     : Nat
  slice  : Nat
  side   : Nat
  off    : Nat
  len    : Nat
  cmd    : Nat
  follow : Bool
deriving DecidableEq, Repr

/-- R411: one entry of the fill log: the word and the entry a landed fill read. -/
structure FillLog where
  word : W128
  tid  : Tid
deriving DecidableEq, Repr

/-- R130: a matrix tile of a task: both operand stores, both banks (element 128 i + j), the column generators,
whether they are seeded, pins and the fill log. -/
structure Tile where
  a      : SMap Byte
  b      : SMap Byte
  acc0   : SMap W32
  acc1   : SMap W32
  gens   : List W32
  seeded : Bool
  pins   : List Pin
  fills  : List FillLog
deriving DecidableEq, Repr

/-- R148: the collective generators of a task. -/
structure CollGens where
  gens   : SMap W32
  seeded : Bool
deriving DecidableEq, Repr

end Sys2Proof.Machine
end

