-- ==== Sys2Proof/Machine/TaskRec.lean ====
section
/-! DEFINITION. A control-core context with its task, the task record, the calendar's requests, and the records of
the synchronisation engines (R227 to R248, R249 to R268, R269 to R288, R408 to R412). Plain data only. -/

namespace Sys2Proof.Machine

/-- How a window that is ending ends: DONE with its status, a fault with the cause and its fault record (R395), or
a preemption (R409). Started commands are still running (R410). -/
inductive EndKind where
  | done (status : W64)
  | fault (cause : W64) (rec_ : Vector W64 8)
  | preempt
deriving DecidableEq, Repr

/-- What an operation at a home does (R231 to R248). Operands are already read; `scope` is R37's code. -/
inductive HomeKind where
  | atom (op : Nat) (v cmp : W64) (scope : Nat)
  | atomr (routine ctx : Nat) (v : W64)
  | sigop (op : Nat) (v : W64) (scope : Nat)
  | binit (counting : Bool) (expect : W32) (scope : Nat) (rpa rlen : Nat)
  | binv
  | arrive
  | testph (tok : W64)
  | waitph (tok : W64)
  | watch (cmp : Nat) (mask v : W64)
  | futrd
  | futwr (v : W64)
  | arrivec (phase : Option (BitVec 16)) (user : Byte) (fault : Bool)
  | waitc (phase : W64)
  | cred (op ty mode : Nat) (sat fz : Bool) (v : W32)
deriving DecidableEq, Repr

/-- What an access of a control core does (R163): a load, a store, FLUSH, or a synchronisation operation (its word's size,
what it does, its scope, the bytes its check covers, the rights it needs). -/
inductive AccKind where
  | load (n : Nat)
  | store (bytes : List Byte)
  | flush
  | sync (size8 : Bool) (kind : HomeKind) (scope n : Nat) (needR needW : Bool)
deriving DecidableEq, Repr

/-- R165, R168, R185: an access that its context has issued and that is not yet performed: its number in the context's
order, its address, the instruction's pc, what it does, and whether it has been sent to its home. -/
structure Access where
  id   : Nat
  ea   : W64
  pc   : W64
  kind : AccKind
  sent : Bool
deriving DecidableEq, Repr

/-- R81, R254, R399, R408: one resident CC context and what its task owns on the fabric core: registers, pc, loop
stack and the stack set aside by trap entry (R258), late producers, accesses issued and not yet performed in program
order, system registers, due traps, command memory,
tensor entries, the port scoreboard, ports and region, tiles, collective generators, the lease. `active` is the CC's
choice among its three contexts; `stall` counts cycles in which the context could not issue; `yields` marks a context that gives way; `pauseTo` is the
cycle at which a PAUSE ends; `nextId` numbers commands and late producers; `relCur` is true after RELEASE of the current
window's units; `preempt` is set while a preemption awaits its edge; `ending` is how the window ends, from the moment it
stops issuing until its started commands have completed. -/
structure Run where
  task    : W64
  fc      : Nat
  ctxn    : Nat
  ctx     : Nat
  fz      : Bool
  strict  : Bool
  active  : Bool
  place   : W64
  regs    : Vector RegCell 32
  pc      : W64
  loops   : List LoopEnt
  aside   : List LoopEnt
  flights : List Flight
  accs    : List Access
  sys     : SysRegs
  due     : List DueTrap
  stall   : Nat
  yields  : Bool
  pauseTo : Nat
  cmdMem  : SMap W128
  tids    : SMap Tid
  cmds    : List Cmd
  nextId  : Nat
  prevP   : SMap Nat
  ports   : SMap Port
  region  : Region
  tiles   : SMap Tile
  coll    : CollGens
  lease   : List Extent
  extn    : Nat
  startC  : Nat
  relCur  : Bool
  preempt : Bool
  ending  : Option EndKind
deriving DecidableEq, Repr

/-- R252: the states of a task record. -/
inductive TaskSt where
  | free
  | waiting
  | ready
  | leasing
  | booking
  | running
  | ending
deriving DecidableEq, Repr

/-- R361, R368: how far a lease walk has come: extents done, the extent in progress with the address of the next page,
and whether the walk waits: for a PAGEIN at that page, or, with no extent in progress, for the end of a RECALL. -/
structure Walk where
  done  : List Extent
  part  : Option (Extent × Nat)
  waits : Bool
deriving DecidableEq, Repr

/-- R249, R250: a task record with the scheduler's own marks: when it became ready and when it entered Leasing and
Booking (cycles), wakes and child ends pending (R264), armed events, the context entry its lease is made under (R356),
the walk, the finished lease, the save of a preemption (R411), the header of the save area it holds, if it holds one
(R411, R412), and the start cycle once the first window has begun. -/
structure TaskRec where
  handle  : W64
  st      : TaskSt
  prio    : Nat
  eprio   : Nat
  fz      : Bool
  strict  : Bool
  res     : Bool
  extn    : Nat
  ctx     : Nat
  count   : Nat
  pc      : W64
  image   : W64
  decl    : W64
  parent  : W64
  live    : W32
  ncmd    : Nat
  cmds    : W64
  crec    : W64
  regs    : List W64
  readyAt : Nat
  leaseAt : Nat
  bookAt  : Nat
  wakes   : Nat
  kids    : Nat
  arms    : List Arm
  cent    : CtxEnt
  walk    : Walk
  lease   : List Extent
  save    : Option Run
  area    : Option (Vector W64 8)
  startC  : Option Nat
deriving DecidableEq, Repr

/-- R272, R273, R276: a request of the Almanac: task, floor, the cycle it was made, its descriptor and needs; `book`
is true for BOOK's held reservation. -/
structure Req where
  handle : W64
  book   : Bool
  floor  : Nat
  made   : Nat
  desc   : ResDesc
  win    : Nat
  hdr    : Option ImageHdr
deriving DecidableEq, Repr

/-- R279: the claim: its request and the entry it stands for, from slot `start` on. -/
structure Claim where
  handle : W64
  book   : Bool
  ent    : AlmEnt
deriving DecidableEq, Repr

/-- Who waits for the result of an operation at a home (R227): a late producer of a context, a command, one element
of a command that updates several (R146), the S signal of a command (R206), a command's W wait (R207), an armed phase
event (R264), a parked record (R200), a packet, a slot of a BARRIER packet (R322), another device and its number of
the message. -/
inductive Owner where
  | cc (task : W64) (flight : Nat)
  | cmd (k : CmdRef)
  | elem (k : CmdRef)
  | sig (k : CmdRef)
  | wwait (k : CmdRef)
  | arm (task : W64)
  | parked (task : W64) (site id : Nat)
  | pkt (p : PktRef)
  | slot (p : PktRef) (slot : Nat)
  | peer (src tag : Nat)
  | none
deriving DecidableEq, Repr

/-- R375: an operation sent to another device that has not been answered: its number, the device, who asked, what it
does, the word's size, and, for WATCH, whether the other home has armed the entry. -/
structure PeerWait where
  id    : Nat
  dev   : Nat
  owner : Owner
  va    : W64
  pc    : W64
  kind  : HomeKind
  size8 : Bool
  armed : Bool
deriving DecidableEq, Repr

/-- R227: an operation that has arrived at a home die and is not yet performed; `sa` says that host copies of its line
are recalled first (R375, R378). -/
structure HomeOp where
  die   : Nat
  pa    : Nat
  size8 : Bool
  sa    : Bool
  kind  : HomeKind
  owner : Owner
deriving DecidableEq, Repr

/-- R235, R241: a valid barrier object the SE knows: its address, whether it counts, its physical range. -/
structure Bar where
  pa       : Nat
  counting : Bool
  rpa      : Nat
  rlen     : Nat
deriving DecidableEq, Repr

/-- Who waits at a barrier object for a phase: WAITPH, WAITC, a W wait. -/
structure BarWait where
  pa    : Nat
  phase : W64
  owner : Owner
deriving DecidableEq, Repr

/-- R243, R351: the waiter of a vigil entry. A packet's is its queue, the number of its header unit modulo 2^39 and
its slot; another device's is the device and its number of the message. -/
inductive Waiter where
  | task (handle : W64)
  | parked (handle : W64) (site id : Nat)
  | packet (q : Nat) (unit_ : BitVec 39) (slot : Nat)
  | guestQueue (q : Nat)
  | ccReg (handle : W64) (flight : Nat)
  | peer (src tag : Nat)
deriving DecidableEq, Repr

/-- R243: a vigil entry. -/
structure Vigil where
  cmp    : Nat
  size8  : Bool
  pa     : Nat
  mask   : W64
  value  : W64
  waiter : Waiter
deriving DecidableEq, Repr

end Sys2Proof.Machine
end

