-- ==== Sys2Proof/Machine/DevRec.lean ====
section
/-! DEFINITION. The records of the package outside the fabric cores: contexts, host queues and packets, mailbox,
guest sites, groups and rings, errors, device information, messages to other agents. Plain data only. -/

namespace Sys2Proof.Machine

/-- R312, R323, R324: the state of a host queue. -/
inductive QSt where
  | disabled
  | active
  | aborted
  | error
deriving DecidableEq, Repr

/-- R317 to R322: a packet that has been fetched: its header index, its words, whether it has started, the BARRIER
slots not yet satisfied (slot number, physical address of its signal), the task it runs as, and how it ended. -/
structure Packet where
  idx     : Nat
  words   : List W64
  started : Bool
  slots   : List (Nat × Nat)
  task    : W64
  ended   : Option Bool
deriving DecidableEq, Repr

/-- R312: a queue descriptor with the FE's service state (R325), its pinned pages (R312) and its packets fetched and
not yet completed, in ring order; `stale` says that the unit at RD was read with a wrong lap (R315). -/
structure Queue where
  base    : Nat
  st      : QSt
  log2n   : Nat
  ctx     : Nat
  weight  : Nat
  guest   : Nat
  rd      : W64
  wr      : W64
  rdptr   : Nat
  credit  : Nat
  pins    : List Extent
  stale   : Bool
  packets : List Packet
deriving DecidableEq, Repr

/-- R327: the mailbox: commands written, consumed, responses written and read, events waiting for room, the number of
events dropped, and the RECALL in progress (context, first byte, bytes; R368). -/
structure Mailbox where
  written  : Nat
  consumed : Nat
  resp     : Nat
  respRead : Nat
  events   : List MbCmd
  dropped  : Nat
  taking   : Option (Nat × Nat × Nat)
deriving DecidableEq, Repr

/-- R380 to R387: a context tag of a guest site: who posted the packet (nobody once the tag is free but an invalidation
is not acknowledged), the packet as sent, since when a preempt request or an invalidation is out, whether one has been
acknowledged since the packet was sent, whether the guest has saved the work, and `oldLease`: the lease an invalidation left behind or, of a host packet, the pages pinned for it
(R383). Of a host packet also the context of its queue and its A bit (R317). -/
structure GTag where
  owner    : Owner
  words    : List W64
  inval    : Option Nat
  preempt  : Option Nat
  acked    : Bool
  saved    : Bool
  oldLease : List Extent
  ctx      : Nat
  abort    : Bool
deriving DecidableEq, Repr

/-- R379, R389: a guest site: presence and its tags in use. -/
structure GSite where
  present : Bool
  tags    : SMap GTag
deriving DecidableEq, Repr

/-- R150: what names one contribution of this rank: group, epoch, DEST and FIRST. -/
structure ContribKey where
  group : Byte
  epoch : BitVec 16
  dest  : W64
  first : W64
deriving DecidableEq, Repr

/-- R148 to R151: a CONTRIB that has sent and awaits its acknowledgement, or has left its elements with the ring:
its wire code and quantised elements, which ring mode adds to the partials, how many of them it has added, residuals not
yet written (virtual address, value), the destination's window. -/
structure Contrib where
  k      : CmdRef
  key    : ContribKey
  wire   : BitVec 2
  q      : List W32
  sent   : Nat
  resid  : List (Nat × W32)
  win    : PeerWin
deriving DecidableEq, Repr

/-- A message to another device, a switch or a guest (R149, R372, R381): the model's record of what was sent. -/
inductive OutMsg where
  | peerWrite (dev win off : Nat) (key : W64) (bytes : List Byte)
  | peerMerge (dev win off : Nat) (key : W64) (bytes masks : List Byte)
  | peerRead (dev win off : Nat) (key : W64) (n : Nat)
  | peerOp (id dev win off : Nat) (key : W64) (sys : Bool) (kind : HomeKind) (size8 : Bool)
  | contrib (k : CmdRef) (header : List W64) (elems : List Byte)
  | ring (dev : Nat) (header : List W64) (elems : List Byte)
  | ringResult (dev : Nat) (key : W64) (header : List W64) (elems : List Byte)
  | peerAnswer (src tag reason : Nat) (data : List Byte)
  | guestPacket (site : Nat) (words : List W64)
  | guestInval (site tag : Nat)
  | guestPreempt (site tag : Nat)
  | guestAnswer (site tag : Nat) (ok : Bool) (data : List Byte)
deriving DecidableEq, Repr

/-- R1: the four parts. -/
inductive Part where
  | k
  | kg
  | m
  | p4412m
deriving DecidableEq, Repr

/-- R449: the device information block, with the thermal state of R447 and the power limit of R446. `st` is STATE;
`part` is what was shipped (R1); `off` is, for each compute die, the core that the test disabled (R2), which matters
on GXS-P4412-M alone; `fwHash` and `gsHash` are the fused hashes of the firmware and guest keys (R448), `fwDigest` and
`gsDigest` the digests of the images that were accepted (R451), `secret` the fused identity secret (R448), `flash` the
images in boot flash and the host's offer, which bring-up reads (R448, R449). -/
structure DevInfo where
  st       : Nat
  part     : Part
  off      : Vector (Fin 12) 4
  gsp      : Nat
  devno    : BitVec 14
  linken   : Bool
  cxl      : Bool
  mbcmd    : W64
  mbrsp    : W64
  mbidx    : W64
  imptab   : Nat
  retry    : Bool
  fused    : List Nat
  watts    : Nat
  thermCut : Nat
  hot      : Bool
  hotSlot  : Nat
  fwHash   : BitVec 512
  gsHash   : BitVec 512
  fwDigest : BitVec 512
  gsDigest : Vector (BitVec 512) 2
  secret   : BitVec 256
  flash    : BringUp
deriving DecidableEq, Repr

/-- R417, R420, R421: the errors: the number of correctable entries not yet posted, the cycle of the last CERR, addresses
that hold an uncorrectable error, retries owed by tasks, and the log of correctable errors (unit and physical address). -/
structure ErrLog where
  corr   : Nat
  last   : Nat
  bad    : List Nat
  owed   : List W64
  log    : List (Nat × Nat)
deriving DecidableEq, Repr

/-- R4, R326: the policy core of the EP, RV32IMC: its registers x1 to x31, its pc and its 256 KiB of tightly coupled
memory, which holds the firmware from byte 0 on (DESIGN CHOICE, log entry 116). The manual gives what the firmware does as
the steps of the mailbox and of bring-up, and not its instructions. -/
structure PolicyCore where
  x   : Vector W32 31
  pc  : W32
  tcm : List Byte
deriving DecidableEq, Repr

/-- R411: a save in the save buffer of a core that has not drained: core, task, bytes. -/
structure SaveHeld where
  fc    : Nat
  task  : W64
  bytes : Nat
deriving DecidableEq, Repr

/-- R378: a copy of a word that the host has taken to perform an atomic of its own on it: its address, size and the
value taken. -/
structure HostCopy where
  pa    : Nat
  size8 : Bool
  old   : Nat
deriving DecidableEq, Repr

/-- R416: the stages through which data passes: HBM; an L2 slice or the save buffer; MB SRAM, an operand store,
accumulators, SE and scheduler SRAM; a link between sites, record fields in flight, the token network; an Elcel link; a
guest site's link or the host's; CC registers and caches. -/
inductive Stage where
  | hbm
  | slice
  | sram
  | link
  | elcel
  | standard
  | ccWord
deriving DecidableEq, Repr

/-- R416: a stage's check: the bits of its granule, the bits of one symbol, and how many struck symbols of a granule it
corrects and detects. -/
structure Check where
  granule  : Nat
  symbol   : Nat
  corrects : Nat
  detects  : Nat
deriving DecidableEq, Repr

/-- R416: the check of a stage that protects words; the links that repeat by themselves have none here. -/
def Stage.check : Stage → Option Check
  | .hbm => some ⟨256, 8, 1, 2⟩
  | .slice => some ⟨256, 1, 1, 2⟩
  | .sram => some ⟨32, 1, 1, 2⟩
  | .link => some ⟨32, 1, 0, 1⟩
  | .elcel => none
  | .standard => none
  | .ccWord => some ⟨64, 1, 1, 2⟩

/-- R418: where the data of an error is used: by an access of a CC, a stream command or a site of a task (the agent), and
whether its second attempt fails too; in the open round of a task, or in a shadow line or buffered store not committed; in
an edge record, save area, TID table or record of a task. -/
inductive DataUse where
  | access (task : W64) (agent : Nat) (again : Bool)
  | round (task : W64)
  | kept (task : W64)
deriving DecidableEq, Repr

/-- R416 to R418: an error found in data under way: the stage, how many symbols of one granule it struck, the unit and
physical address, and the use of the data. -/
structure DataErr where
  stage : Stage
  count : Nat
  unit_ : Nat
  pa    : Nat
  use   : DataUse
deriving DecidableEq, Repr

/-- What the outside world does next (the model's own field): an event, the passing of cycles, a soft error that
strikes a memory sector, a context entry (W0, W1) that the EP writes at the driver's request (R356), another device's
answer to an operation sent to it (import reason, 0 when it was performed, and the value; R374), the host taking a copy of a word and
performing an atomic on it (R378; operations as R38 numbers ATOM), an error in data under way (R416), the oldest save in
the save buffer of a core leaving it (R411), the host writing an 8-byte word of the device information block at a byte of
its BAR (R449). -/
inductive Input where
  | event (i : Instr)
  | cycles (n : Nat)
  | softError (pa : Nat)
  | context (c : BitVec 12) (w0 w1 : W64)
  | peerReply (id reason : Nat) (value : W64)
  | hostTake (pa : Nat) (size8 : Bool)
  | hostAtomic (pa : Nat) (size8 : Bool) (op : Nat) (v cmp : W64)
  | dataError (e : DataErr)
  | saveDrained (fc : Nat)
  | barWrite (a : Nat) (v : W64)
deriving DecidableEq, Repr

end Sys2Proof.Machine
end

