-- ==== Sys2Proof/Machine/State.lean ====
section
/-! DEFINITION. The state of the package, the reasons a step can stop, and the state after reset. Every piece of
state the spec names is here; INVENTORY.md lists each with its rule and its reset value. -/

namespace Sys2Proof.Machine

/-- The whole package. `cc` is the context whose turn it is to issue, `runs` the other dispatched contexts. Fields
from `inputs` on are the model's own: what the outside world does next, the device's pending events in order, whose
turn the next step is, how many cycles each coming step lasts, the counter of free values. -/
structure State where
  cc       : Run
  runs     : List Run
  cyc      : Nat
  mem      : List (Nat × Byte)
  tasks    : SMap TaskRec
  taskGen  : SMap (BitVec 16)
  alm      : List AlmEnt
  allow    : SMap Nat
  overrun  : List W64
  reqs     : List Req
  claim    : Option Claim
  homes    : List HomeOp
  heldOps  : List HomeOp
  peers    : List PeerWait
  hostHeld : List HostCopy
  l1       : List L1Copy
  saveBuf  : List SaveHeld
  bars     : List Bar
  barWaits : List BarWait
  vigils   : List Vigil
  routines : SMap (List W32)
  ctxs     : SMap CtxEnt
  queues   : SMap Queue
  mbox     : Mailbox
  guests   : SMap GSite
  groups   : SMap W64
  rings    : List RingMsg
  contribs : List Contrib
  ringDone : List ContribKey
  dev      : DevInfo
  ep       : PolicyCore
  err      : ErrLog
  out      : List OutMsg
  inputs   : List Input
  work     : List Instr
  turn     : Bool
  pace     : List Nat
  free     : Nat
deriving DecidableEq, Repr

/-- Why the machine stops. -/
inductive Fault where
  /-- R447: the thermal trip has stopped every clock; a step of a machine whose STATE is 4 raises it when nothing comes
  from outside. Safe: the spec says the device serves nothing more until reset. -/
  | clocksStopped
deriving DecidableEq, Repr

/-- Why the model gives no next state. -/
inductive Refusal where
  /-- Raised by an arm of `exec` whose instruction has no meaning in the model yet. Safe: no claim follows. -/
  | notModelled (mnemonic : String)
deriving DecidableEq, Repr

/-! ## Reset values of the records

The manual gives a context its values at a dispatch and none at power-good: those here are DESIGN CHOICE, log entry 16. -/

/-- R81: a register at dispatch. -/
def RegCell.reset : RegCell := ⟨0#64, true, false⟩

/-- R399: the system registers at a fresh dispatch with context seed 0. -/
def SysRegs.reset : SysRegs where
  seed := 0#64
  tvec := 0#64
  cause := 0#64
  epc := 0#64
  tval := 0#64
  hmode := false
  csig := 0#64
  wbar := 0#64
  wtok := 0#64
  frec := Vector.replicate 8 0#64

def SpCore.reset : SpCore := ⟨none, [], [], none, none, none, none, [], []⟩

def FlCore.reset : FlCore where
  pend := none
  clean := false
  done := false
  hold := []
  loopSet := []
  capture := []
  nextTag := 0#16
  order := []
  compact := []
  ctr := 0#16
  count := 0
  nextMark := 0

def SiteCore.reset : SiteCore := ⟨[], [], SpCore.reset, [], [], [], FlCore.reset⟩

def Edge.reset : Edge := ⟨false, 0, 0, 0, 0, 0, 0, 0, false, [], []⟩

/-- R78, R131: a region with nothing loaded. -/
def Region.reset : Region where
  hdr := none
  stage := 0
  m0 := 0
  m1 := 0
  m2 := 0
  j0 := 0
  j1 := 0
  j2 := 0
  cfg := none
  running := false
  seeded := false
  committed := 0
  everCommitted := false
  sites := []
  tids := []
  mbs := []
  stores := []
  markPos := []
  early := false
  edgeDue := false
  resume := false
  edge := Edge.reset

/-- A context that holds no task; its registers are those of a fresh dispatch (R81, R255). -/
def Run.reset : Run where
  task := 0#64
  fc := 0
  ctxn := 0
  ctx := 0
  fz := false
  strict := false
  active := false
  place := 0#64
  regs := Vector.replicate 32 RegCell.reset
  pc := 0#64
  loops := []
  aside := []
  flights := []
  accs := []
  sys := SysRegs.reset
  due := []
  stall := 0
  yields := false
  pauseTo := 0
  cmdMem := []
  tids := []
  cmds := []
  nextId := 0
  prevP := []
  ports := []
  region := Region.reset
  tiles := []
  coll := ⟨[], false⟩
  lease := []
  extn := 0
  startC := 0
  relCur := false
  preempt := false
  ending := none

def Mailbox.reset : Mailbox := ⟨0, 0, 0, 0, [], 0, none⟩

/-- R449: the device information block in reset, before the fuses are read; the part is GXS-P4812-KG (R1;
DESIGN CHOICE, log entry 17: fuses and what the manual leaves to the device). -/
def DevInfo.reset : DevInfo where
  st := 0
  part := .kg
  off := Vector.replicate 4 0
  gsp := 0
  devno := 0#14
  linken := false
  cxl := false
  mbcmd := 0#64
  mbrsp := 0#64
  mbidx := 0#64
  imptab := 0
  retry := false
  fused := []
  watts := 3400
  thermCut := 0
  hot := false
  hotSlot := 0
  fwHash := 0
  gsHash := 0
  fwDigest := 0
  gsDigest := Vector.replicate 2 0
  secret := 0
  flash := ⟨⟨0, 0, []⟩, false, ⟨0, 0, []⟩, ⟨0, 0, []⟩⟩

/-- The package when power-good releases reset (R448 step 1): sr.cyc is 0, memory lists nothing, no task exists, and
STATE is 0 until bring-up runs. -/
def State.reset : State where
  cc := Run.reset
  runs := []
  cyc := 0
  mem := []
  tasks := []
  taskGen := []
  alm := []
  allow := []
  overrun := []
  reqs := []
  claim := none
  homes := []
  heldOps := []
  peers := []
  hostHeld := []
  l1 := []
  saveBuf := []
  bars := []
  barWaits := []
  vigils := []
  routines := []
  ctxs := []
  queues := []
  mbox := Mailbox.reset
  guests := []
  groups := []
  rings := []
  contribs := []
  ringDone := []
  dev := DevInfo.reset
  ep := ⟨Vector.replicate 31 0#32, 0#32, []⟩
  err := ⟨0, 0, [], [], []⟩
  out := []
  inputs := []
  work := []
  turn := false
  pace := []
  free := 0

end Sys2Proof.Machine
end

