-- ==== Sys2Proof/Machine/Base.lean ====
section
/-! DEFINITION. Tables and memory in canonical form, words in memory, bit fields, access to tasks and contexts. Every
change of physical memory goes through `Mem.put`; the effects a write has at its home are in Home.lean. -/

namespace Sys2Proof.Machine

/-! ## Sparse tables -/

/-- The entry at a key, or the default. -/
def SMap.get {α : Type} (dflt : α) : SMap α → Nat → α
  | [], _ => dflt
  | (k, v) :: m, i => if i = k then v else SMap.get dflt m i

/-- The entry at a key, if one is listed. -/
def SMap.get? {α : Type} : SMap α → Nat → Option α
  | [], _ => none
  | (k, v) :: m, i => if i = k then some v else SMap.get? m i

/-- Remove the entry at a key. -/
def SMap.del {α : Type} : SMap α → Nat → SMap α
  | [], _ => []
  | (k, v) :: m, i => if i = k then m else (k, v) :: SMap.del m i

/-- Put an entry in key order. -/
def SMap.ins {α : Type} : SMap α → Nat → α → SMap α
  | [], i, x => [(i, x)]
  | (k, v) :: m, i, x =>
    if i < k then (i, x) :: (k, v) :: m else if i = k then (i, x) :: m else (k, v) :: SMap.ins m i x

/-- Write an entry, keeping the table without entries equal to the default. -/
def SMap.put {α : Type} [DecidableEq α] (dflt : α) (m : SMap α) (i : Nat) (x : α) : SMap α :=
  if x = dflt then SMap.del m i else SMap.ins m i x

/-- Keys strictly rising from a bound on. -/
def SMap.risesFrom {α : Type} : Nat → SMap α → Bool
  | _, [] => true
  | n, (k, _) :: m => decide (n ≤ k) && SMap.risesFrom (k + 1) m

/-- The canonical form of a table: keys strictly rising, no entry equal to the default. -/
def SMap.wf {α : Type} [DecidableEq α] (dflt : α) (m : SMap α) : Bool :=
  SMap.risesFrom 0 m && m.all fun e => decide (e.2 ≠ dflt)

/-! ## Physical memory -/

/-- R448: what a byte of memory that nothing has written reads as. HBM and every SRAM are written to zero at
bring-up; for host memory (the far tier) the value is the model's choice (DESIGN CHOICE, log entry 5). -/
def unwritten : Byte := 0#8

/-- Memory is in canonical form: addresses strictly rising, no entry that an unlisted address reads as. -/
def Memory.wf (m : List (Nat × Byte)) : Bool := SMap.wf unwritten m

/-- The byte of physical memory at an address. -/
def memByte (m : List (Nat × Byte)) (pa : Nat) : Byte := SMap.get unwritten m pa

/-- Physical memory with one byte written. -/
def memPut (m : List (Nat × Byte)) (pa : Nat) (b : Byte) : List (Nat × Byte) := SMap.put unwritten m pa b

/-- Physical memory with bytes written from an address up. -/
def memPuts (m : List (Nat × Byte)) (pa : Nat) : List Byte → List (Nat × Byte)
  | [] => m
  | b :: bs => memPuts (memPut m pa b) (pa + 1) bs

/-- n bytes of physical memory. -/
def memBytes (m : List (Nat × Byte)) (pa : Nat) : Nat → List Byte
  | 0 => []
  | n + 1 => memByte m pa :: memBytes m (pa + 1) n

/-- R29: the little-endian number in the first n of a list of bytes. -/
def leNat : List Byte → Nat
  | [] => 0
  | b :: bs => b.toNat + 256 * leNat bs

/-- R29: n bytes of a number, the least significant first. -/
def leBytes : Nat → Nat → List Byte
  | 0, _ => []
  | n + 1, x => BitVec.ofNat 8 x :: leBytes n (x / 256)

/-- A 64-bit and a 32-bit word of physical memory. -/
def memW64 (m : List (Nat × Byte)) (pa : Nat) : W64 := BitVec.ofNat 64 (leNat (memBytes m pa 8))
def memW32 (m : List (Nat × Byte)) (pa : Nat) : W32 := BitVec.ofNat 32 (leNat (memBytes m pa 4))

/-- n words of 64 bits of physical memory. -/
def memWords (m : List (Nat × Byte)) (pa : Nat) : Nat → List W64
  | 0 => []
  | n + 1 => memW64 m pa :: memWords m (pa + 8) n

/-- The bytes of words of 64 bits. -/
def wordsBytes : List W64 → List Byte
  | [] => []
  | w :: ws => leBytes 8 w.toNat ++ wordsBytes ws

/-- Bits hi to lo of a 64-bit word as a number. -/
def bits (w : W64) (hi lo : Nat) : Nat := w.toNat / 2 ^ lo % 2 ^ (hi + 1 - lo)

/-- One bit of a 64-bit word. -/
def bit (w : W64) (n : Nat) : Bool := w.getLsbD n

/-- A field of a word under construction. -/
def fieldAt (x lo : Nat) : Nat := x * 2 ^ lo

def boolNat (b : Bool) : Nat := if b then 1 else 0

/-- The signed value of a number of w bits. -/
def signedOf (w x : Nat) : Int := if x < 2 ^ (w - 1) then (x : Int) else (x : Int) - 2 ^ w

/-- An integer kept modulo 2 to the w. -/
def wrapNat (w : Nat) (x : Int) : Nat := (x % (2 ^ w : Int)).toNat

/-- Word i of an entry of eight words. -/
def word8 (v : Vector W64 8) (i : Nat) : W64 := v.toList.getD i 0#64

/-- Eight words from a list, zero where it is short. -/
def vec8 (l : List W64) : Vector W64 8 :=
  #v[l.getD 0 0#64, l.getD 1 0#64, l.getD 2 0#64, l.getD 3 0#64, l.getD 4 0#64, l.getD 5 0#64, l.getD 6 0#64,
    l.getD 7 0#64]

/-! ## Handles (R249) -/

/-- R249: the parts of a task handle. -/
def handleDie (h : W64) : Nat := bits h 49 48
def handleGen (h : W64) : BitVec 16 := h.extractLsb' 32 16
def handleIdx (h : W64) : Nat := bits h 31 0

/-- R249: the key of a handle's record: home die and record index. -/
def handleKey (h : W64) : Nat := handleDie h * 2 ^ 32 + handleIdx h

/-- R249: the handle of a record. -/
def mkHandle (die : Nat) (gen : BitVec 16) (idx : Nat) : W64 :=
  BitVec.ofNat 64 (fieldAt die 48 + fieldAt gen.toNat 32 + idx)

/-- R249: records in the scheduler SRAM of a die, and, as a DESIGN CHOICE, log entry 6, in its overflow area. -/
def recordsPerDie : Nat := 65536

/-- R249: the record a handle names, unless the handle is stale or names no task. -/
def State.task? (s : State) (h : W64) : Option TaskRec :=
  match SMap.get? s.tasks (handleKey h) with
  | some t => if t.handle = h ∧ h ≠ 0#64 then some t else none
  | none => none

/-- Write a task record at its key. -/
def State.putTask (s : State) (t : TaskRec) : State :=
  { s with tasks := SMap.ins s.tasks (handleKey t.handle) t }

/-- Change the record of a handle; a stale handle changes nothing. -/
def State.modTask (s : State) (h : W64) (f : TaskRec → TaskRec) : State :=
  match s.task? h with
  | some t => s.putTask (f t)
  | none => s

/-! ## Contexts -/

/-- The context that holds a dispatched task. -/
def State.run? (s : State) (h : W64) : Option Run :=
  if h = 0#64 then none
  else if s.cc.task = h then some s.cc
  else s.runs.find? fun r => r.task == h

/-- Change the context that holds a task; nothing happens when no context does. -/
def State.modRun (s : State) (h : W64) (f : Run → Run) : State :=
  if h = 0#64 then s
  else if s.cc.task = h then { s with cc := f s.cc }
  else { s with runs := s.runs.map fun r => if r.task = h then f r else r }

/-- Every context that holds a task. -/
def State.allRuns (s : State) : List Run :=
  if s.cc.task = 0#64 then s.runs else s.cc :: s.runs

/-- Take a task's context away: the next resident context takes the place of `cc`. -/
def State.dropRun (s : State) (h : W64) : State :=
  if s.cc.task = h then
    match s.runs with
    | [] => { s with cc := Run.reset }
    | r :: rs => { s with cc := r, runs := rs }
  else { s with runs := s.runs.filter fun r => !(r.task == h) }

/-- Give a task a context. -/
def State.addRun (s : State) (r : Run) : State :=
  if s.cc.task = 0#64 then { s with cc := r } else { s with runs := s.runs ++ [r] }

/-- Queue events of the device, in order. -/
def State.push (s : State) (i : Instr) : State := { s with work := s.work ++ [i] }
def State.pushAll (s : State) (l : List Instr) : State := { s with work := s.work ++ l }

/-- An event that follows at once, before another instruction or pending event. -/
def State.urgent (s : State) (i : Instr) : State := { s with work := i :: s.work, turn := false }

/-- R26: the current slot. -/
def State.slot (s : State) : Nat := s.cyc / 64

/-- A fresh number for a free value. -/
def State.fresh (s : State) : State := { s with free := s.free + 1 }

/-- The die of an FC. -/
def dieOf (fc : Nat) : Nat := fc / 12

/-! ## The parts (R1, R2, R4) -/

/-- R1: the fabric cores a part has enabled. -/
def Part.cores : Part → Nat
  | .p4412m => 44
  | _ => 48

/-- R1: GS0 and GS1 are wired on GXS-P4812-KG alone. -/
def Part.wired : Part → Bool
  | .kg => true
  | _ => false

/-- R1, R2, R449: the enabled-core mask: every core, but on GXS-P4412-M the one of each die that the test disabled. -/
def DevInfo.enfc (d : DevInfo) : BitVec 48 :=
  match d.part with
  | .p4412m => ~~~((1#48 <<< d.off[0].val) ||| (1#48 <<< (12 + d.off[1].val)) ||| (1#48 <<< (24 + d.off[2].val)) |||
      (1#48 <<< (36 + d.off[3].val)))
  | _ => 0xFFFFFFFFFFFF#48

/-- R4: MiB of memory-bank SRAM in the package. -/
def Part.mbSram (p : Part) : Nat := 12 * p.cores

/-! ## Geometry of physical memory (R155, R156) -/

/-- R155: the end of HBM and the far tier. -/
def hbmSize : Nat := 576 * 2 ^ 30
def farBase : Nat := 2 ^ 48
def farEnd : Nat := 2 ^ 49

/-- R155: a physical address of the local tier, of the far tier. -/
def inHbm (pa : Nat) : Bool := decide (pa < hbmSize)
def inFar (pa : Nat) : Bool := decide (farBase ≤ pa ∧ pa < farEnd)

/-- R156: the home die of a line; for the far tier, that of the HA of its directory entry. -/
def homeDie (pa : Nat) : Nat :=
  if inHbm pa then pa / (144 * 2 ^ 30) else pa / 128 % 48 / 4 / 3

/-- R156: the home stack of a line. -/
def homeStack (pa : Nat) : Nat :=
  if inHbm pa then
    let d := pa / (144 * 2 ^ 30)
    3 * d + (pa - d * (144 * 2 ^ 30)) / 4096 % 3
  else pa / 128 % 48 / 4

/-- R156: the home slice of a line. -/
def homeSlice (pa : Nat) : Nat :=
  if inHbm pa then 12 * (pa / (144 * 2 ^ 30)) + pa / 128 % 12 else pa / 128 % 48

end Sys2Proof.Machine
end

