-- ==== Sys2Proof/Machine/Home.lean ====
section
/-! DEFINITION. What a write does at its home: it lands in memory, destroys a barrier object it strikes (R242), is
counted by counting barriers (R239), and fires vigil entries (R244). Also the scheduler's counting of events (R263,
R264) and the delivery of late values (R85). -/

namespace Sys2Proof.Machine

/-! ## Events of the scheduler -/

/-- R252, R253: a task whose count is zero becomes ready; the lease unit of its die is asked to serve it. -/
def State.makeReady (s : State) (h : W64) : State :=
  (s.modTask h fun t => { t with st := .ready, readyAt := s.cyc, eprio := t.prio }).push .leaseWalk

/-- R264: one event lowers COUNT by 1; a waiting task that reaches 0 becomes ready. -/
def State.countDown (s : State) (h : W64) (n : Nat) : State :=
  match s.task? h with
  | none => s
  | some t =>
    let s1 := s.putTask { t with count := t.count - n }
    if t.st = .waiting ∧ t.count - n = 0 then s1.makeReady h else s1

/-- R264: an armed event of a task: the first armed entry of the kind that the test accepts is lowered by one and
COUNT with it; the answer is false when nothing was armed. -/
def State.armedEvent (s : State) (h : W64) (kind : Nat) (hit : Arm → Bool) : Bool × State :=
  match s.task? h with
  | none => (false, s)
  | some t =>
    match t.arms.find? fun a => decide (a.kind = kind) && hit a with
    | none => (false, s)
    | some a =>
      let arms := if a.aux.toNat ≤ 1 then t.arms.erase a
        else t.arms.replace a { a with aux := a.aux - 1#64 }
      (true, (s.putTask { t with arms := arms }).countDown h 1)

/-- R264, R245: a vigil wake-up of a task: counted by an armed vigil event, or kept pending. -/
def State.vigilWake (s : State) (h : W64) : State :=
  match s.armedEvent h 3 fun _ => true with
  | (true, s1) => s1
  | (false, s1) => s1.modTask h fun t => { t with wakes := t.wakes + 1 }

/-! ## Late values (R85, R86) -/

/-- Change the context of a task, resident or saved by a preemption. -/
def State.modCtx (s : State) (h : W64) (f : Run → Run) : State :=
  match s.run? h with
  | some _ => s.modRun h f
  | none => s.modTask h fun t => { t with save := t.save.map f }

/-- Events that try every command of a context that is not yet performed. -/
def State.kick (s : State) (h : W64) : State :=
  match s.run? h with
  | none => s
  | some r => s.pushAll ((r.cmds.filter fun c => c.phase != .done && c.step == 0).map fun c => .commandStart ⟨h, c.id⟩)

/-- Commands of every context are tried again. -/
def State.kickAll (s : State) : State := s.allRuns.foldl (fun t r => t.kick r.task) s

/-- R85, R185: a late producer's value is fixed, and so the access of its number, if it is one, has been performed;
the delivery becomes a pending event, and after an access the commands that follow it in program order are tried
(R175). -/
def State.deliver (s : State) (h : W64) (flight : Nat) (v : W64) : State :=
  let s1 := (s.modCtx h fun r => { r with
    flights := r.flights.map fun f => if f.id = flight then { f with val := some v } else f
    accs := r.accs.filter fun a => a.id != flight }).push (.lateDelivery ⟨h, flight⟩)
  if (s.run? h).any fun r => r.accs.any fun a => a.id == flight then s1.kick h else s1

/-- Change one accepted command of a task. -/
def State.modCmd (s : State) (k : CmdRef) (f : Cmd → Cmd) : State :=
  s.modCtx k.task fun r => { r with cmds := r.cmds.map fun c => if c.id = k.id then f c else c }

/-- R205: an accepted command has done its work and completes with a status. -/
def State.cmdDone (s : State) (k : CmdRef) (status : BitVec 2) : State :=
  (s.modCmd k fun c => { c with phase := .done, status := status }).push (.commandComplete k)

/-- R205: the token of a status at this cycle. -/
def tokenWord (s : State) (status : BitVec 2) : W64 := status ++ (BitVec.ofNat 62 s.cyc)

/-- R205: deliver the token of a completed command, unless it was delivered before. -/
def State.token (s : State) (h : W64) (c : Cmd) : State :=
  match s.run? h with
  | some r =>
    if r.flights.any fun f => decide (f.id = c.id) && f.val.isNone then s.deliver h c.id (tokenWord s c.status) else s
  | none => s

/-! ## The vigil table (R243, R244) -/

/-- How many bytes two ranges share. -/
def overlap (a n b m : Nat) : Nat := min (a + n) (b + m) - max a b

/-- R38, R243: the comparisons of WATCH on words of w bits. -/
def vigilCmp (cmp w : Nat) (x y : Nat) : Bool :=
  match cmp with
  | 0 => decide (x = y)
  | 1 => decide (x ≠ y)
  | 2 => decide (signedOf w x < signedOf w y)
  | 3 => decide (signedOf w x ≤ signedOf w y)
  | 4 => decide (signedOf w y < signedOf w x)
  | 5 => decide (signedOf w y ≤ signedOf w x)
  | 6 => decide (x < y)
  | 7 => decide (x ≤ y)
  | 8 => decide (y < x)
  | 9 => decide (y ≤ x)
  | _ => decide (x ≠ y)

/-- The word a vigil entry looks at. -/
def vigilWord (s : State) (pa : Nat) (size8 : Bool) : Nat := leNat (memBytes s.mem pa (if size8 then 8 else 4))

/-- R244: does the condition of an entry hold now? -/
def Vigil.holds (v : Vigil) (s : State) : Bool :=
  let w := if v.size8 then 64 else 32
  let m := v.mask.toNat % 2 ^ w
  vigilCmp v.cmp w (vigilWord s v.pa v.size8 &&& m) (v.value.toNat % 2 ^ w &&& m)

/-- R230: a 32-bit value delivered into a register is sign-extended. -/
def extWord (size8 : Bool) (x : Nat) : W64 :=
  if size8 then BitVec.ofNat 64 x else (BitVec.ofNat 32 x).signExtend 64

/-- R322: a BARRIER slot's signal reads v: 0 satisfies it, a negative value aborts the packet. -/
def Packet.slotFired (p : Packet) (slot : Nat) (v : Int) : Packet :=
  if v < 0 then { p with slots := [], ended := some (p.ended.getD false) }
  else
    let left := p.slots.filter fun a => !decide (a.1 = slot)
    { p with slots := left, ended := if left.isEmpty then some (p.ended.getD true) else p.ended }

/-- Change one packet of a queue. -/
def State.modPacket (s : State) (r : PktRef) (f : Packet → Packet) : State :=
  match SMap.get? s.queues r.q with
  | none => s
  | some q =>
    let q' := { q with packets := q.packets.map fun p => if p.idx = r.idx then f p else p }
    { s with queues := SMap.ins s.queues r.q q' }

/-- R351: the number of a packet's header unit in its ring, modulo 2^39. -/
def Packet.unit (p : Packet) : BitVec 39 := BitVec.ofNat 39 (p.idx / 64)

/-- R322: a slot of a packet has fired; the packet's completion is a pending event. -/
def State.fireSlot (s : State) (q : Nat) (u : BitVec 39) (slot : Nat) (v : Int) : State :=
  match (SMap.get? s.queues q).bind fun x => x.packets.find? fun p => p.unit == u with
  | none => s
  | some p => (s.modPacket ⟨q, p.idx⟩ fun x => x.slotFired slot v).push (.packetComplete ⟨q, p.idx⟩)

/-- R374: another device is answered: reason 0, and the value its operation delivers. -/
def State.reply (s : State) (src tag : Nat) (v : W64) : State :=
  { s with out := s.out ++ [.peerAnswer src tag 0 (leBytes 8 v.toNat)] }

/-- R200, R246: a parked record receives its value. -/
def State.unpark (s : State) (h : W64) (site id : Nat) (v : W64) : State :=
  (s.modCtx h fun r =>
    let put (st : Site) : Site := { st with core := { st.core with parked := st.core.parked.map fun p =>
      if p.id = id then { p with val := some v } else p } }
    { r with region := { r.region with sites := r.region.sites.map fun e => if e.1 = site then (e.1, put e.2) else e } }).push
    (.mbServiceCycle ⟨h, site / 24, site % 24⟩)

/-- R244 to R246, R200, R322: wake the waiter of an entry whose condition holds. -/
def State.wake (s : State) (v : Vigil) : State :=
  let x := vigilWord s v.pa v.size8
  match v.waiter with
  | .task h => s.vigilWake h
  | .ccReg h f => s.deliver h f (extWord v.size8 x)
  | .parked h site id => s.unpark h site id (BitVec.ofNat 64 x)
  | .packet q u slot => s.fireSlot q u slot (signedOf 64 x)
  | .guestQueue _ => s
  | .peer src tag => s.reply src tag (extWord v.size8 x)

/-- R244: after a write of n bytes, entries on words it touches are evaluated in arming order; those that hold are
removed and woken. -/
def State.fireVigils (s : State) (pa n : Nat) : State :=
  let hit (v : Vigil) : Bool := decide (0 < overlap pa n v.pa (if v.size8 then 8 else 4)) && v.holds s
  let out := s.vigils.filter hit
  let s1 := { s with vigils := s.vigils.filter fun v => !hit v }
  out.foldl (fun st v => st.wake v) s1

/-- R244, R245: arm an entry; if its condition already holds it fires at once. -/
def State.armVigil (s : State) (v : Vigil) : State :=
  if v.holds s then s.wake v else { s with vigils := s.vigils ++ [v] }

/-! ## Barrier objects (R235 to R242) -/

/-- R236, R244: OR bits into the status word of an object; the SE's write is one like any other to the vigil table. -/
def State.orStatus (s : State) (pa : Nat) (x : W64) : State :=
  ({ s with mem := memPuts s.mem (pa + 32) (leBytes 8 (memW64 s.mem (pa + 32) ||| x).toNat) }).fireVigils (pa + 32) 8

/-- R235: the fields of W0 and W1 of an object. -/
def barPhase (s : State) (pa : Nat) : BitVec 16 := (memW64 s.mem pa).extractLsb' 32 16
def barExpect (s : State) (pa : Nat) : Nat := bits (memW64 s.mem pa) 31 0
def barCount (s : State) (pa : Nat) : Nat := bits (memW64 s.mem (pa + 8)) 31 0
def barAhead (s : State) (pa : Nat) : Nat := bits (memW64 s.mem (pa + 8)) 63 32

/-- R235, R244: write PHASE, COUNT and AHEAD of an object. -/
def State.putBar (s : State) (pa : Nat) (phase : BitVec 16) (count ahead : Nat) : State :=
  let w0 := (memW64 s.mem pa).toNat
  let w0' := w0 / 2 ^ 48 * 2 ^ 48 + fieldAt phase.toNat 32 + w0 % 2 ^ 32
  ({ s with mem := memPuts s.mem pa (leBytes 8 w0' ++ leBytes 8 (fieldAt ahead 32 + count)) }).fireVigils pa 16

/-- R237: has a barrier in a phase left the phase of a token: `none` when the token is out of range. -/
def leftPhase (phase : BitVec 16) (tok : W64) : Option Bool :=
  if tok.toNat / 2 ^ 16 ≠ 0 then none
  else
    let d := (phase - tok.setWidth 16).toNat
    if 1 ≤ d ∧ d ≤ 32768 then some true else if d = 0 ∨ d = 65535 then some false else none

/-- R241, R242, R248, R207, R264: a waiter's wait ends; `gone` when the object was destroyed. -/
def State.endWait (s : State) (w : BarWait) (gone : Bool) : State :=
  match w.owner with
  | .cc h f => s.deliver h f (if gone then 2#64 else 1#64)
  | .cmd k => s.cmdDone k 0#2
  | .wwait k =>
    if gone then s.cmdDone k 3#2
    else (s.modCmd k fun c => { c with wDone := true }).push (.commandStart k)
  | .arm h => s.countDown h 1
  | .peer src tag => s.reply src tag (if gone then 2#64 else 1#64)
  | _ => s

/-- Wake the waiters of an object that a test selects, in order. -/
def State.wakeBar (s : State) (pa : Nat) (gone : Bool) (hit : BarWait → Bool) : State :=
  let out := s.barWaits.filter fun w => decide (w.pa = pa) && hit w
  let s1 := { s with barWaits := s.barWaits.filter fun w => !(decide (w.pa = pa) && hit w) }
  out.foldl (fun st w => st.endWait w gone) s1

/-- R237: after PHASE has moved, every waiter whose phase has been left is woken. -/
def State.wakeLeft (s : State) (pa : Nat) : State :=
  let ph := barPhase s pa
  s.wakeBar pa false fun w => leftPhase ph w.phase == some true

/-- R242: an object stops being valid: its status bits are set and every waiter is told. -/
def State.destroyBar (s : State) (pa : Nat) (status : W64) : State :=
  let s1 := ({ s with bars := s.bars.filter fun b => !decide (b.pa = pa) }).orStatus pa status
  s1.wakeBar pa true fun _ => true

/-- R239: a landing of n bytes is counted by one counting barrier. -/
def State.countBytes (s : State) (pa n : Nat) : State :=
  let ex := barExpect s pa
  let c := barCount s pa + n
  let ph := barPhase s pa
  if c < ex then s.putBar pa ph c 0
  else if ex ≤ c - ex then ((s.putBar pa (ph + 1#16) (ex - 1) 0).orStatus pa 0x40#64).wakeLeft pa
  else (s.putBar pa (ph + 1#16) (c - ex) 0).wakeLeft pa

/-- R239: a landing is counted by every counting barrier whose range it touches. -/
def State.countLanding (s : State) (pa n : Nat) : State :=
  (s.bars.filter fun b => b.counting && decide (0 < overlap pa n b.rpa b.rlen)).foldl
    (fun st b => st.countBytes b.pa (overlap pa n b.rpa b.rlen)) s

/-- R238: one arrival for phase t, counted; at most two phase changes follow. -/
def State.arriveAt (s : State) (pa : Nat) (t : BitVec 16) : State :=
  let ph := barPhase s pa
  let ex := barExpect s pa
  let e := (t - ph).toNat
  if e = 0 then
    let c := barCount s pa + 1
    let a := barAhead s pa
    if c = ex then
      if a = ex then (s.putBar pa (ph + 2#16) 0 0).wakeLeft pa else (s.putBar pa (ph + 1#16) a 0).wakeLeft pa
    else s.putBar pa ph c a
  else if e = 1 then
    if barAhead s pa < ex then s.putBar pa ph (barCount s pa) (barAhead s pa + 1) else s.orStatus pa 0x40#64
  else if 32768 ≤ e then s.orStatus pa 0x10#64
  else s.orStatus pa 0x20#64

/-! ## Landing -/

/-- R242: the valid objects whose bytes 0 to 31 a write of n bytes strikes. -/
def State.struck (s : State) (pa n : Nat) : List Nat :=
  (s.bars.filter fun b => decide (0 < overlap pa n b.pa 32)).map (·.pa)

/-- R416, R421: the sectors that hold an uncorrectable error, after a write: one overwritten whole holds none
(DEDUCED, log entry 15). -/
def healed (bad : List Nat) (pa n : Nat) : List Nat := bad.filter fun b => !decide (pa ≤ b ∧ b + 32 ≤ pa + n)

/-- R378: the host's copies that remain when a write to n bytes recalls those of its lines. -/
def recallHost (l : List HostCopy) (pa n : Nat) : List HostCopy :=
  l.filter fun c => !decide (pa / 128 ≤ c.pa / 128 ∧ c.pa / 128 ≤ (pa + n - 1) / 128)

/-- R157, R192: the L1 copies that remain when a write to n bytes invalidates those of its lines. -/
def invalidate (l : List L1Copy) (pa n : Nat) : List L1Copy :=
  l.filter fun c => !decide (pa / 128 ≤ c.line ∧ c.line ≤ (pa + n - 1) / 128)

/-- R155, R158, R239, R242, R244: bytes enter the write order of their line at its home. -/
def State.land (s : State) (pa : Nat) (bs : List Byte) : State :=
  if bs.isEmpty then s
  else
    let n := bs.length
    let s1 := { s with mem := memPuts s.mem pa bs, err := { s.err with bad := healed s.err.bad pa n },
                       hostHeld := recallHost s.hostHeld pa n, l1 := invalidate s.l1 pa n }
    let s2 := (s.struck pa n).foldl (fun st b => st.destroyBar b 0xA#64) s1
    (s2.countLanding pa n).fireVigils pa n

/-- A landing of bytes through per-byte masks: only the masked bits change (R65, R363). -/
def mergeBytes : List Byte → List Byte → List Byte → List Byte
  | o :: os, b :: bs, m :: ms => ((o &&& ~~~m) ||| (b &&& m)) :: mergeBytes os bs ms
  | _, _, _ => []

/-- R421: a masked landing clears a bad sector only where the masks overwrite it whole. -/
def healedMasked (bad : List Nat) (pa : Nat) (ms : List Byte) : List Nat :=
  bad.filter fun b => !((List.range 32).all fun i => decide (pa ≤ b + i) && ms.getD (b + i - pa) 0#8 == 0xFF#8)

def State.landMasked (s : State) (pa : Nat) (bs ms : List Byte) : State :=
  let t := s.land pa (mergeBytes (memBytes s.mem pa bs.length) bs ms)
  { t with err := { t.err with bad := healedMasked s.err.bad pa ms } }

end Sys2Proof.Machine
end

