-- ==== Sys2Proof/Machine/Lease.lean ====
section
/-! DEFINITION. Page tables, leases and the access check (R356 to R368, R370 to R374). -/

namespace Sys2Proof.Machine

/-! ## Page attributes (R162), as bits 11 to 4 of a leaf -/

def attrGv (a : BitVec 8) : Bool := a.getLsbD 7
def attrTier (a : BitVec 8) : Bool := a.getLsbD 6
def attrSa (a : BitVec 8) : Bool := a.getLsbD 5
def attrKind (a : BitVec 8) : Nat := (a.extractLsb' 3 2).toNat
def attrX (a : BitVec 8) : Bool := a.getLsbD 2
def attrW (a : BitVec 8) : Bool := a.getLsbD 1
def attrR (a : BitVec 8) : Bool := a.getLsbD 0

/-- R162: the rights an access can need. -/
inductive Right where
  | r
  | w
  | x
deriving DecidableEq, Repr

/-- R396: the bits of a right in a fault record. -/
def Right.code : Right → Nat
  | .r => 4
  | .w => 2
  | .x => 1

def attrHas (a : BitVec 8) : Right → Bool
  | .r => attrR a
  | .w => attrW a
  | .x => attrX a

/-! ## The walk (R357, R358) -/

/-- What a walk of one address finds: a leaf with its page, or why there is none. -/
inductive PageRes where
  | leaf (vbase size frame psz : Nat) (attr : BitVec 8)
  | paged
  | unmapped
  | malformed
  | refused
deriving DecidableEq, Repr

/-- R358: fields of an entry. -/
def pteV (e : W64) : Bool := bit e 0
def ptePaged (e : W64) : Bool := bit e 1
def pteLeaf (e : W64) : Bool := bit e 2
def pteSz (e : W64) : Bool := bit e 3
def pteAttr (e : W64) : BitVec 8 := e.extractLsb' 4 8
def pteFrame (e : W64) : Nat := bits e 48 12 * 4096
def pteReserved (e : W64) : Bool := decide (bits e 63 49 ≠ 0)

/-- R155, R162, R361: a leaf's attributes and frame are acceptable. -/
def attrOk (attr : BitVec 8) (frame size : Nat) : Bool :=
  attrKind attr != 3 &&
  (if attrTier attr then inFar frame && inFar (frame + size - 1) && !attrX attr
   else inHbm frame && inHbm (frame + size - 1))

/-- R361: the outcome of a leaf of a page size. -/
def leafRes (e : W64) (va size psz : Nat) : PageRes :=
  if pteReserved e || pteSz e != decide (psz = 1) || decide (pteFrame e % size ≠ 0) then .malformed
  else if attrOk (pteAttr e) (pteFrame e) size then .leaf (va / size * size) size (pteFrame e) psz (pteAttr e)
  else .refused

/-- R358: an entry that is not present. -/
def absentRes (e : W64) : PageRes := if ptePaged e then .paged else .unmapped

/-- R358: a pointer entry is well formed. -/
def ptrOk (e : W64) : Bool := !pteReserved e && !pteSz e && pteAttr e == 0#8

/-- R155, R358, R361: the table a pointer entry names lies in one of the ranges of physical memory. -/
def ptrIn (e : W64) : Bool :=
  (inHbm (pteFrame e) && inHbm (pteFrame e + 4095)) || (inFar (pteFrame e) && inFar (pteFrame e + 4095))

/-- R358: all 16 entries of a 64 KiB group agree with the first in FRAME, ATTR and SZ. -/
def groupOk (m : List (Nat × Byte)) (table first : Nat) (e : W64) : Nat → Bool
  | 0 => true
  | n + 1 =>
    let x := memW64 m (table + 8 * (first + n))
    pteV x && pteSz x && pteLeaf x && pteAttr x == pteAttr e && decide (pteFrame x = pteFrame e) && !pteReserved x &&
      groupOk m table first e n

/-- R357, R358: the page of an address under a root table. -/
def pageAt (m : List (Nat × Byte)) (root va : Nat) : PageRes :=
  let e3 := memW64 m (root + 8 * (va / 2 ^ 39 % 2 ^ 18))
  if !pteV e3 then absentRes e3
  else if pteLeaf e3 || !ptrOk e3 then .malformed
  else if !ptrIn e3 then .refused
  else
    let e2 := memW64 m (pteFrame e3 + 8 * (va / 2 ^ 30 % 512))
    if !pteV e2 then absentRes e2
    else if pteLeaf e2 then leafRes e2 va (2 ^ 30) 3
    else if !ptrOk e2 then .malformed
    else if !ptrIn e2 then .refused
    else
      let e1 := memW64 m (pteFrame e2 + 8 * (va / 2 ^ 21 % 512))
      if !pteV e1 then absentRes e1
      else if pteLeaf e1 then leafRes e1 va (2 ^ 21) 2
      else if !ptrOk e1 then .malformed
      else if !ptrIn e1 then .refused
      else
        let i := va / 2 ^ 12 % 512
        let e0 := memW64 m (pteFrame e1 + 8 * i)
        if !pteV e0 then absentRes e0
        else if !pteLeaf e0 then .malformed
        else if pteSz e0 then
          if groupOk m (pteFrame e1) (i / 16 * 16) e0 16 then leafRes e0 va (2 ^ 16) 1 else .malformed
        else leafRes e0 va (2 ^ 12) 0

/-! ## Reading through a context's tables (R360) -/

/-- The physical address of a virtual one through a context's tables, when it is mapped in local or far memory. -/
def ctxAddr (s : State) (ctx va : Nat) : Option (Nat × BitVec 8) :=
  match SMap.get? s.ctxs ctx with
  | none => none
  | some c =>
    if !c.valid || decide (2 ^ 56 ≤ va) then none
    else match pageAt s.mem c.root va with
      | .leaf vb _ frame _ attr => some (frame + (va - vb), attr)
      | _ => none

/-- n bytes through a context's tables; `none` where some byte is not mapped with the right. -/
def ctxBytes (s : State) (ctx va : Nat) (right : Right) : Nat → Option (List Byte)
  | 0 => some []
  | n + 1 =>
    match ctxAddr s ctx va, ctxBytes s ctx (va + 1) right n with
    | some (pa, attr), some bs => if attrHas attr right then some (memByte s.mem pa :: bs) else none
    | _, _ => none

/-- Every byte of a range is mapped in a context with a right. -/
def ctxMapped (s : State) (ctx va : Nat) (right : Right) (n : Nat) : Bool := (ctxBytes s ctx va right n).isSome

/-- n words of 64 bits through a context's tables. -/
def ctxWords (s : State) (ctx va n : Nat) : Option (List W64) :=
  match ctxBytes s ctx va .r (8 * n) with
  | none => none
  | some bs => some ((List.range n).map fun i => BitVec.ofNat 64 (leNat ((bs.drop (8 * i)).take 8)))

/-! ## Making a lease (R359 to R362, R371, R372) -/

/-- The outcome of walking an extent. -/
inductive WalkRes where
  | ok (e : Extent)
  | wait (e : Extent) (va : Nat)
  | error (reason va : Nat)
deriving DecidableEq, Repr

/-- R362: add a page to the runs of an extent: the last run grows when the page continues it. -/
def addPage (runs : List PRun) (vbase size frame psz : Nat) (attr : BitVec 8) : List PRun :=
  match runs.getLast? with
  | some r =>
    if r.vstart + r.len = vbase ∧ r.pstart + r.len = frame ∧ r.attr = attr ∧ r.psz = psz then
      runs.dropLast ++ [{ r with len := r.len + size }]
    else runs ++ [⟨vbase, size, attr, psz, frame⟩]
  | none => [⟨vbase, size, attr, psz, frame⟩]

/-- R361: walk an extent from an address to the end of its range. -/
def walkFrom (m : List (Nat × Byte)) (root : Nat) (e : Extent) (va : Nat) : Nat → WalkRes
  | 0 => .ok e
  | fuel + 1 =>
    if e.base + e.len ≤ va then .ok e
    else match pageAt m root va with
      | .leaf vb size frame psz attr =>
        walkFrom m root { e with runs := addPage e.runs vb size frame psz attr } (vb + size) fuel
      | .paged => .wait e va
      | .unmapped => .error 2 va
      | .malformed => .error 3 va
      | .refused => .error 4 va

/-- R360, R362: walk the code extent: its runs are whole pages, and those that cannot be fetched from are left out. No page table is walked for an address
of the peer aperture (R371), so such a range has no page to fetch from. -/
def walkCode (m : List (Nat × Byte)) (root : Nat) (e : Extent) (va : Nat) : Nat → WalkRes
  | 0 => .ok e
  | fuel + 1 =>
    if e.base + e.len ≤ va ∨ 2 ^ 56 ≤ va then .ok e
    else match pageAt m root va with
      | .leaf vb size frame psz attr =>
        walkCode m root { e with runs := if attrX attr then addPage e.runs vb size frame psz attr else e.runs } (vb + size) fuel
      | .paged => .wait e va
      | _ => walkCode m root e ((va / 4096 + 1) * 4096) fuel

/-- R371, R372: make a peer extent from its outbound entry. -/
def walkPeer (m : List (Nat × Byte)) (root : Nat) (e : Extent) : WalkRes :=
  let w := e.base / 2 ^ 48 % 256
  let w0 := memW64 m (root + 8 * (131072 + 2 * w))
  let w1 := memW64 m (root + 8 * (131073 + 2 * w))
  if e.base / 2 ^ 42 % 64 ≠ 0 ∨ (e.len ≠ 0 ∧ (e.base + e.len - 1) / 2 ^ 42 ≠ e.base / 2 ^ 42) then .error 5 e.base
  else if !bit w0 63 then .error 2 e.base
  else if bits w0 59 54 ≠ 0 ∨ bits w0 31 0 ≠ 0 then .error 3 e.base
  else if e.x then .error 4 e.base
  else .ok { e with
    runs := [⟨e.base, e.len, 0#8, 3, 0⟩]
    peer := some ⟨bits w0 53 40, bits w0 39 32, w1, bit w0 62, bit w0 61, bit w0 60⟩ }

/-- R359: an extent declaration. -/
def readExtent (k : Nat) (w0 w1 : W64) : Extent :=
  ⟨k, bit w1 63, bit w1 62, bit w1 61, bits w0 56 0, bits w1 47 0, [], none⟩

/-- R361, R371, R372: walk one declared extent, from `start` when a walk resumes. An empty peer extent reads its
outbound entry like any other. An extent that begins below the peer aperture and reaches into it gets reason 5, since
no page table is walked there (DEDUCED, log entry 42). -/
def walkExtent (m : List (Nat × Byte)) (root : Nat) (e : Extent) (start : Nat) : WalkRes :=
  if e.base + e.len > 2 ^ 57 then .error 5 e.base
  else if e.base / 2 ^ 56 = 1 then walkPeer m root e
  else if e.len = 0 then .ok e
  else if e.base + e.len > 2 ^ 56 then .error 5 e.base
  else walkFrom m root e start (e.len / 4096 + 2)

/-- R360: the code extent of a pc. -/
def codeExtent (pc : Nat) : Extent := ⟨16, false, false, true, pc / 65536 * 65536, 65536, [], none⟩

/-! ## The access check (R363) -/

/-- The run of an extent that holds an address. -/
def Extent.runAt (e : Extent) (va : Nat) : Option PRun :=
  e.runs.find? fun r => decide (r.vstart ≤ va ∧ va < r.vstart + r.len)

/-- R359: a declared right of an extent. -/
def Extent.declares (e : Extent) : Right → Bool
  | .r => e.r
  | .w => e.w
  | .x => e.x

/-- R363: the bytes lie whole inside an extent. -/
def Extent.holds (e : Extent) (ea n : Nat) : Bool := decide (e.base ≤ ea ∧ ea + n ≤ e.base + e.len)

/-- R363: the right stands in every run that the bytes touch; for a peer extent the window's rights (R372). -/
def Extent.grants (e : Extent) (ea n : Nat) (right : Right) : Bool :=
  e.declares right &&
  match e.peer with
  | some p => (match right with | .r => p.r | .w => p.w | .x => false)
  | none => e.runs.all fun r => decide (overlap ea n r.vstart r.len = 0) || attrHas r.attr right

/-- R360: of the code extent, every byte must lie in a run. -/
def Extent.mapped (e : Extent) (ea n : Nat) : Bool :=
  e.idx != 16 || decide (n ≤ (e.runs.map fun r => overlap ea n r.vstart r.len).sum)

/-- R363: Covered: the extent that lets the access through, or the reason it fails. -/
def covered (lease : List Extent) (ea n : Nat) (right : Right) : Except Nat Extent :=
  if 2 ^ 57 ≤ ea then .error 3
  else
    let hold := lease.filter fun e => e.holds ea n && e.mapped ea n
    match hold.find? fun e => e.grants ea n right with
    | some e => .ok e
    | none => .error (if hold.isEmpty then 1 else 2)

/-- Where an access goes: a physical address with the page's attributes, or a window of another device. -/
inductive Place where
  | phys (pa : Nat) (attr : BitVec 8)
  | peer (p : PeerWin) (off : Nat)
deriving DecidableEq, Repr

/-- R363, R372: the place of an address inside an extent. -/
def Extent.place (e : Extent) (va : Nat) : Place :=
  match e.peer with
  | some p => .peer p (va % 2 ^ 42)
  | none =>
    match e.runAt va with
    | some r => .phys (r.pstart + (va - r.vstart)) r.attr
    | none => .phys 0 0#8

/-- R363: the declared extent of a logical number, when the number is below EXTN. -/
def extentOf (lease : List Extent) (extn k : Nat) : Option Extent :=
  if k < extn then lease.find? fun e => decide (e.idx = k) else none

/-! ## Messages to other devices and the import table (R370, R373, R374) -/

/-- R374: an import entry. -/
structure Import where
  v    : Bool
  r    : Bool
  w    : Bool
  sa   : Bool
  kind : Nat
  any  : Bool
  rsvd : Bool
  base : Nat
  len  : Nat
  key  : W64
  src  : Nat
deriving DecidableEq, Repr

/-- R373: read an entry of the import table. -/
def readImport (s : State) (win : Nat) : Import :=
  let a := s.dev.imptab + 32 * win
  let w0 := memW64 s.mem a
  let w1 := memW64 s.mem (a + 8)
  let w3 := memW64 s.mem (a + 24)
  { v := bit w0 63, r := bit w0 62, w := bit w0 61, sa := bit w0 60, kind := bits w0 59 58, any := bit w0 57,
    rsvd := decide (bits w0 56 49 ≠ 0 ∨ bits w0 11 0 ≠ 0 ∨ bits w1 63 42 ≠ 0 ∨ bits w3 63 14 ≠ 0),
    base := bits w0 48 12 * 4096, len := bits w1 41 0, key := memW64 s.mem (a + 16), src := bits w3 13 0 }

/-- R374, R390: the checks on an arriving message: the physical address, or the import reason. An atomic asks for
both rights; `sysAtom` marks a .sys atomic. -/
def ingress (s : State) (src win off n : Nat) (needR needW sysAtom : Bool) (key : W64) : Except Nat Nat :=
  let e := readImport s win
  if !e.v || e.rsvd || e.kind == 3 then .error 1
  else if key ≠ e.key ∨ (!e.any ∧ src ≠ e.src) then .error 2
  else if off + n > e.len ∨ !inHbm (e.base + off + n - 1) then .error 3
  else if (needR && !e.r) || (needW && !e.w) then .error 4
  else if sysAtom && !e.sa then .error 5
  else .ok (e.base + off)

/-- R370: a window of this very device, which is served through its own import table. -/
def isSelf (s : State) (p : PeerWin) : Bool := decide (p.dev = s.dev.devno.toNat)

/-- The bytes another device answers a read with: free value number n (DESIGN CHOICE, log entry 1). -/
def peerBytes (n : Nat) (len : Nat) : List Byte := (List.range len).map (Config.peerByte n)

/-- Read n bytes at a place: memory, this device's own window (R370), or another device (R372). The result is the
bytes, or the reason an import refuses. -/
def readPlace (s : State) (p : Place) (n : Nat) : Except Nat (List Byte) × State :=
  match p with
  | .phys pa _ => (.ok (memBytes s.mem pa n), s)
  | .peer w off =>
    if isSelf s w then
      match ingress s s.dev.devno.toNat w.win off n true false false w.key with
      | .ok pa => (.ok (memBytes s.mem pa n), s)
      | .error r => (.error r, s)
    else (.ok (peerBytes s.free n), { s.fresh with out := s.out ++ [.peerRead w.dev w.win off w.key n] })

/-- Write bytes at a place, under the same rules. -/
def writePlace (s : State) (p : Place) (bs : List Byte) : Except Nat Unit × State :=
  match p with
  | .phys pa _ => (.ok (), s.land pa bs)
  | .peer w off =>
    if isSelf s w then
      match ingress s s.dev.devno.toNat w.win off bs.length false true false w.key with
      | .ok pa => (.ok (), s.land pa bs)
      | .error r => (.error r, s)
    else (.ok (), { s with out := s.out ++ [.peerWrite w.dev w.win off w.key bs] })

/-! ## Places through a context's tables (R251, R319) -/

/-- R319, R356, R371: the place of a byte through a context entry as the tables stand, when the mapping or the outbound
entry grants the right. -/
def ctxPlace (m : List (Nat × Byte)) (c : CtxEnt) (va : Nat) (right : Right) : Option Place :=
  if !c.valid then none
  else if va / 2 ^ 56 = 1 then
    match walkPeer m c.root ⟨0, true, true, false, va, 1, [], none⟩ with
    | .ok e => if e.grants va 1 right then e.peer.map fun p => .peer p (va % 2 ^ 42) else none
    | _ => none
  else if 2 ^ 57 ≤ va then none
  else match pageAt m c.root va with
    | .leaf vb _ frame _ attr => if attrHas attr right then some (.phys (frame + (va - vb)) attr) else none
    | _ => none

/-- R319, R371: every byte of a range has a place with a right through a context entry; one piece of an aligned 8 bytes
lies in one page. -/
def ctxCan (m : List (Nat × Byte)) (c : CtxEnt) (va n : Nat) (right : Right) : Bool :=
  decide (n = 0) || (List.range ((va + n - 1) / 8 - va / 8 + 1)).all fun i =>
    (ctxPlace m c (max va (va / 8 * 8 + 8 * i)) right).isSome

/-- R319: n bytes through a context entry, piece by piece; `none` where a piece has no readable place or is refused. -/
def ctxRange (s : State) (c : CtxEnt) (va : Nat) : Nat → Nat → Option (List Byte × State)
  | 0, _ => some ([], s)
  | fuel + 1, n =>
    if n = 0 then some ([], s)
    else
      let k := min n (8 - va % 8)
      match ctxPlace s.mem c va .r with
      | none => none
      | some p =>
        match readPlace s p k with
        | (.error _, _) => none
        | (.ok bs, s1) => (ctxRange s1 c (va + k) fuel (n - k)).map fun r => (bs ++ r.1, r.2)

/-- R319: write bytes through a context entry, piece by piece; `none` where a piece has no writable place or is
refused. -/
def ctxPut (s : State) (c : CtxEnt) (va : Nat) : Nat → List Byte → Option State
  | 0, _ => some s
  | fuel + 1, bs =>
    if bs.isEmpty then some s
    else
      let k := 8 - va % 8
      match ctxPlace s.mem c va .w with
      | none => none
      | some p =>
        match writePlace s p (bs.take k) with
        | (.error _, _) => none
        | (.ok _, s1) => ctxPut s1 c (va + k) fuel (bs.drop k)

/-- Write bytes through a context entry in pieces of 8 bytes; a piece that has no writable place is dropped. -/
def ctxWrite (s : State) (c : CtxEnt) (va : Nat) : Nat → List Byte → State
  | 0, _ => s
  | fuel + 1, bs =>
    if bs.isEmpty then s
    else
      let s1 := match ctxPlace s.mem c va .w with
        | some p => (writePlace s p (bs.take 8)).2
        | none => s
      ctxWrite s1 c (va + 8) fuel (bs.drop 8)

/-! ## Ranges of an extent -/

/-- Bytes of a covered range, read place by place in pieces within aligned units of 8 bytes. -/
def readRange (s : State) (e : Extent) (va : Nat) : Nat → Nat → Except Nat (List Byte) × State
  | 0, _ => (.ok [], s)
  | fuel + 1, n =>
    if n = 0 then (.ok [], s)
    else
      let k := min n (8 - va % 8)
      match readPlace s (e.place va) k with
      | (.error r, s1) => (.error r, s1)
      | (.ok bs, s1) =>
        match readRange s1 e (va + k) fuel (n - k) with
        | (.error r, s2) => (.error r, s2)
        | (.ok cs, s2) => (.ok (bs ++ cs), s2)

/-- Write bytes over a covered range in pieces within aligned units of 8 bytes. -/
def writeRange (s : State) (e : Extent) (va : Nat) : Nat → List Byte → Except Nat Unit × State
  | 0, _ => (.ok (), s)
  | fuel + 1, bs =>
    if bs.isEmpty then (.ok (), s)
    else
      let k := 8 - va % 8
      match writePlace s (e.place va) (bs.take k) with
      | (.error r, s1) => (.error r, s1)
      | (.ok _, s1) => writeRange s1 e (va + k) fuel (bs.drop k)

end Sys2Proof.Machine
end

