-- ==== Sys2Proof/Machine/Image.lean ====
section
/-! DEFINITION. Configuration images: reading and validating them (R51, R52, R154, R188, R289, R290, R305, R306), and
where an image's ports, tiles and sites stand at a placement (R12, R14, R291, R292). -/

namespace Sys2Proof.Machine

/-- R289: a site block of an image: position, operation words, constants, routes. -/
structure Blk where
  row    : Nat
  col    : Nat
  words  : List W64
  consts : List W32
  routes : List Route
deriving DecidableEq, Repr

/-- R12: the site kind of a column: 0 AL, 1 MB, 2 SP, 3 FL. -/
def kindOfCol (col : Nat) : Nat :=
  match col % 6 with
  | 2 => 1
  | 4 => 2
  | 5 => 3
  | _ => 0

/-- R291: the image port attached to a site, for an image of a width in column groups. -/
def portAt (width row col : Nat) : Option Nat :=
  if col = 0 then some row else if col = 6 * width - 1 then some (8 + row) else none

/-- The header word of an image. -/
def headWord (ws : List W64) (i : Nat) : W64 := ws.getD i 0#64

/-- R51: the fields of a header; a ROUND of 0 selects 4,096. -/
def readHdr (addr : Nat) (ws : List W64) : ImageHdr :=
  let w0 := headWord ws 0
  let w1 := headWord ws 1
  { base := addr, scope := bits w0 53 51, stages := bits w0 50 45 + 1, height := bits w0 44 42 + 1,
    width := bits w0 41 40 + 1, ports := bits w1 49 34, tiles := bits w1 33 30, link := bits w1 29 25,
    l2sh := bits w1 24 20, shadow := (bits w1 19 17 + 1) * 16384,
    round := if bits w1 16 0 = 0 then 4096 else bits w1 16 0, tids := headWord ws 2,
    sites := (headWord ws 3).toNat + (headWord ws 4).toNat * 2 ^ 64 + (headWord ws 5).toNat * 2 ^ 128,
    length := bits (headWord ws 6) 63 32, stab := bits (headWord ws 6) 31 0,
    nwords := bits (headWord ws 7) 63 32, slist := bits (headWord ws 7) 31 0 }

/-- R51: the site-use bit of an image position. -/
def ImageHdr.uses (h : ImageHdr) (row col : Nat) : Bool := h.sites.testBit (24 * row + col)

/-- R51, R52, R290: the header is in order. -/
def hdrOk (addr : Nat) (ws : List W64) (h : ImageHdr) : Bool :=
  let w0 := headWord ws 0
  let w1 := headWord ws 1
  let round := bits w1 16 0
  decide (addr % 64 = 0) && decide (bits w0 31 0 = 0x4D495A53) && decide (bits w0 39 32 = 1) &&
  decide (bits w0 63 54 = 0) && decide (bits w1 63 50 = 0) && decide (h.scope ≤ 5) &&
  (round == 0 || decide (256 ≤ round ∧ round ≤ 65536)) && decide (h.l2sh ≤ 16 ∧ h.link ≤ 16) &&
  ((List.range 192).all fun b => !h.sites.testBit b || decide (b / 24 < h.height ∧ b % 24 < 6 * h.width)) &&
  ((List.range 16).all fun k => !h.ports.testBit k || decide (k % 8 < h.height)) &&
  ((List.range 4).all fun t => !h.tiles.testBit t || decide (2 * (t % 2) + 2 ≤ h.width)) &&
  decide (h.stab = 64) && decide (h.slist % 8 = 0) && decide (h.stab + 4 * h.stages ≤ h.length) &&
  decide (h.slist + 8 * h.nwords ≤ h.length)

/-- R289: a route word. -/
def readRoute (w : W64) : Route :=
  ⟨bits w 63 62, bits w 61 60, signedOf 6 (bits w 59 54), signedOf 4 (bits w 53 50), w⟩

/-- R306: the outputs a flow word names in a modifier. -/
def flNamed (op : Nat) (x : SiteArgs) : List Nat :=
  match op with
  | 0x01 => (List.range 4).filter fun o => (x.m 3 0).testBit o
  | 0x02 => if x.m 1 1 = 1 then [x.m 3 2] else []
  | 0x03 => (List.range 4).filter fun o => (x.m 3 0).testBit o
  | 0x04 => [x.m 1 0]
  | 0x05 => if x.m 4 4 = 0 ∨ x.m 7 7 = 1 then [x.m 6 5] else []
  | _ => []

/-- R52, R305, R306: a word of a block is accepted. `outs` are the outputs routed from the site. -/
def wordOk (h : ImageHdr) (row col : Nat) (outs : List Nat) (w : W64) : Bool :=
  let kind := kindOfCol col
  let x := unpackSite w
  let op := opSite w
  let routed := outs ++ (match portAt h.width row col with
    | some k => if h.ports.testBit k then [3] else []
    | none => [])
  kindSite w == kind && siteWordOk kind op x &&
  (kind != 3 || ((flNamed op x).all (routed.contains ·) && (op != 5 || h.ports.testBit (x.m 3 0))))

/-- R289, R290: the constants of a block. -/
def readConsts (nk : Nat) (ws : List W64) : List W32 :=
  (ws.flatMap fun w => [w.extractLsb' 0 32, w.extractLsb' 32 32]).take nk

/-- R289, R290: take a site block off a word list. -/
def takeBlk (h : ImageHdr) (l : List W64) : Option (Blk × List W64) :=
  match l with
  | [] => none
  | w :: l =>
    let row := bits w 63 61
    let col := bits w 60 56
    let nops := bits w 55 52
    let nk := bits w 51 48
    let nrt := bits w 47 45
    let nc := (nk + 1) / 2
    let cw := l.take nc
    let rw := (l.drop nc).take nrt
    let ow := (l.drop (nc + nrt)).take nops
    let outs := rw.map fun r => bits r 63 62
    let ok := decide (bits w 44 0 = 0) && decide (row < h.height) && decide (col < 6 * h.width) && h.uses row col &&
      decide (1 ≤ nops ∧ nops ≤ if kindOfCol col = 0 then 8 else 1) && decide (nk ≤ 8 ∧ nrt ≤ 4) &&
      decide (nc + nrt + nops ≤ l.length) &&
      (decide (nk % 2 = 0) || decide (bits (cw.getD (nc - 1) 0#64) 63 32 = 0)) &&
      (rw.all fun r => decide (bits r 49 0 = 0)) && decide outs.Nodup && ow.all (wordOk h row col outs)
    if ok then some (⟨row, col, ow, readConsts nk cw, rw.map readRoute⟩, l.drop (nc + nrt + nops)) else none

/-- R290: take n blocks, no site twice. -/
def takeBlks (h : ImageHdr) : Nat → List Blk → List W64 → Option (List Blk × List W64)
  | 0, acc, l => some (acc, l)
  | n + 1, acc, l =>
    match takeBlk h l with
    | none => none
    | some (b, l') =>
      if acc.any fun a => decide (a.row = b.row ∧ a.col = b.col) then none else takeBlks h n (acc ++ [b]) l'

/-- R289, R290: take the stages from number k on; nothing may be left over. -/
def takeStages (h : ImageHdr) : Nat → Nat → List W64 → Option (List (List Blk))
  | 0, _, l => if l.isEmpty then some [] else none
  | n + 1, k, l =>
    match l with
    | [] => none
    | w :: l' =>
      if bits w 63 14 ≠ 0 ∨ bits w 5 0 ≠ k ∨ 192 < bits w 13 6 then none
      else match takeBlks h (bits w 13 6) [] l' with
        | none => none
        | some (bs, l'') =>
          match takeStages h n (k + 1) l'' with
          | none => none
          | some r => some (bs :: r)

/-- R188: the L1 partition of a word's code, in bytes. -/
def l1Bytes (w : W64) : Nat := (unpackSite w).m 25 24 * 131072

/-- R154: an MB word that stores to memory or scratchpad. -/
def mbStores (w : W64) : Bool := kindSite w == 1 && [2, 4, 6, 8].contains (opSite w)

/-- The words at one position over all stages. -/
def wordsAt (stages : List (List Blk)) (row col : Nat) : List W64 :=
  stages.flatMap fun bs => (bs.filter fun b => decide (b.row = row ∧ b.col = col)).flatMap (·.words)

/-- R154, R188: the shadow area an MB carves. -/
def shadowBytes (h : ImageHdr) (stages : List (List Blk)) (row col : Nat) : Nat :=
  if (wordsAt stages row col).any mbStores then h.shadow else 0

/-- R188: the L1 partition of an MB. -/
def l1At (stages : List (List Blk)) (row col : Nat) : Nat :=
  match wordsAt stages row col with
  | [] => 0
  | w :: _ => l1Bytes w

/-- R154, R188: the MB words of a position agree and fit. -/
def mbOk (h : ImageHdr) (stages : List (List Blk)) (row col : Nat) : Bool :=
  (wordsAt stages row col).all fun w => decide (l1Bytes w = l1At stages row col ∧
    (¬ (wordsAt stages row col).any mbStores ∨ l1Bytes w + h.shadow ≤ 393216))

/-- R52: the declared cycles of the stages, read through the context's tables. -/
def stageCycles (s : State) (ctx : Nat) (h : ImageHdr) : Option (List Nat) :=
  match ctxBytes s ctx (h.base + h.stab) .r (4 * h.stages) with
  | none => none
  | some bs => some ((List.range h.stages).map fun i => leNat ((bs.drop (4 * i)).take 4))

/-- R51, R52, R154, R290: read and validate the image at an address. `none` is an image error; an image that the
context's tables do not let the device read is one too. -/
def loadImage (s : State) (ctx addr : Nat) : Option (ImageHdr × List Nat × List (List Blk)) :=
  match ctxWords s ctx addr 8 with
  | none => none
  | some ws =>
    let h := readHdr addr ws
    if !hdrOk addr ws h then none
    else match stageCycles s ctx h, ctxWords s ctx (addr + h.slist) h.nwords with
      | some cyc, some body =>
        match takeStages h h.stages 0 body with
        | none => none
        | some st =>
          if cyc.all (· != 0) &&
              ((List.range 8).all fun r => (List.range 24).all fun c => kindOfCol c != 1 || mbOk h st r c) then
            some (h, cyc, st)
          else none
      | _, _ => none

/-- R291: the physical ports and tiles of an image at a placement; `none` when a declared one cannot be reached. -/
def reach (h : ImageHdr) (row0 cgo : Nat) : Option (Nat × Nat) :=
  let west := (List.range 8).all fun k => !h.ports.testBit k || decide (k < h.height ∧ cgo = 0)
  let east := (List.range 8).all fun k => !h.ports.testBit (8 + k) || decide (k < h.height ∧ cgo + h.width = 4)
  let tileOk (t : Nat) : Bool := decide ((if t < 2 then row0 = 0 else row0 + h.height = 8) ∧ cgo % 2 = 0 ∧
    2 * (t % 2) + 2 ≤ h.width)
  let north := (List.range 4).all fun t => !h.tiles.testBit t || tileOk t
  if west && east && north then
    some (h.ports % 256 * 2 ^ row0 + h.ports / 256 * 2 ^ (8 + row0),
      ((List.range 4).map fun t => if h.tiles.testBit t then 2 ^ (t / 2 * 2 + cgo / 2 + t % 2) else 0).sum)
  else none

/-- R449: the number of a physical site. -/
def siteNo (fc row col : Nat) : Nat := 192 * fc + 24 * row + col

/-- R292: no fused-off site that the image uses lies in the rectangle. -/
def fuseOk (s : State) (h : ImageHdr) (fc row0 cgo : Nat) : Bool :=
  (List.range h.height).all fun r => (List.range (6 * h.width)).all fun c =>
    !h.uses r c || !s.dev.fused.contains (siteNo fc (row0 + r) (6 * cgo + c))

end Sys2Proof.Machine
end

