-- ==== Sys2Proof/Machine/Mail.lean ====
section
/-! DEFINITION. The policy core's mailbox: responses and events written to the response ring in host memory (R327),
and the operations that reach a home die (R227). -/

namespace Sys2Proof.Machine

/-- R327: the eight words of an entry as bytes. -/
def mbBytes (m : MbCmd) : List Byte := wordsBytes [m.w0, m.w1, m.w2, m.w3, m.w4, m.w5, m.w6, m.w7]

/-- R327: the EP serves the mailbox once bring-up has ended, the rings are set and the links are enabled (R448,
R449). -/
def State.mailUp (s : State) : Bool :=
  decide (s.dev.st = 2) && s.dev.linken && s.dev.mbcmd != 0#64 && s.dev.mbidx != 0#64

/-- R327: there is room for a response. -/
def State.mailRoom (s : State) : Bool := s.mailUp && decide (s.mbox.resp < s.mbox.respRead + 256)

/-- R327: write one response entry and then the progress word at MBIDX. -/
def State.writeResp (s : State) (m : MbCmd) : State :=
  let k := s.mbox.resp
  let s1 := s.land (farBase + s.dev.mbrsp.toNat + 64 * (k % 256)) (mbBytes m)
  let s2 := { s1 with mbox := { s1.mbox with resp := k + 1 } }
  s2.land (farBase + s.dev.mbidx.toNat)
    (leBytes 8 (fieldAt (s2.mbox.consumed % 2 ^ 32) 32 + s2.mbox.resp % 2 ^ 32))

/-- R327: an event entry: OP, ARG and DATA, sequence number 0. -/
def mbEvent (op arg : Nat) (w1 w2 w3 w4 : W64) : MbCmd :=
  ⟨BitVec.ofNat 64 (fieldAt op 56 + arg), w1, w2, w3, w4, 0#64, 0#64, 0#64⟩

/-- R327: an event is written while the ring has room and no earlier event waits, is kept while fewer than 1,024
wait, and is dropped and counted otherwise. The next event written carries the count in DATA W7. -/
def State.postEvent (s : State) (m : MbCmd) : State :=
  if s.mailRoom && s.mbox.events.isEmpty then
    ({ s with mbox := { s.mbox with dropped := 0 } }).writeResp { m with w7 := BitVec.ofNat 64 s.mbox.dropped }
  else if s.mbox.events.length < 1024 then { s with mbox := { s.mbox with events := s.mbox.events ++ [m] } }
  else { s with mbox := { s.mbox with dropped := s.mbox.dropped + 1 } }

/-- R327: waiting events are written as room appears. -/
def State.drainEvents (s : State) : Nat → State
  | 0 => s
  | fuel + 1 =>
    match s.mbox.events with
    | [] => s
    | m :: ms =>
      if s.mailRoom then
        (({ s with mbox := { s.mbox with events := ms, dropped := 0 } }).writeResp
          { m with w7 := BitVec.ofNat 64 s.mbox.dropped }).drainEvents fuel
      else s

/-! ## Operations on their way to a home (R227) -/

/-- R227: an operation arrives at its home die; performing it is a pending event. -/
def State.toHome (s : State) (op : HomeOp) : State :=
  ({ s with homes := s.homes ++ [op] }).push .homeOperation

/-- R375, R378: whether host copies of a word's line are recalled before an operation on it. -/
def recalls (pa : Nat) (attr : BitVec 8) : Bool := attrSa attr || inFar pa

/-- R370, R375: an operation is sent to another device; its answer is an input (DESIGN CHOICE, log entry 1). -/
def State.sendPeer (s : State) (p : PeerWin) (off : Nat) (va pc : W64) (size8 : Bool) (kind : HomeKind) (sys : Bool)
    (o : Owner) : State :=
  { s.fresh with
    out := s.out ++ [.peerOp s.free p.dev p.win off p.key sys kind size8]
    peers := s.peers ++ [⟨s.free, p.dev, o, va, pc, kind, size8, false⟩] }

/-- R206, R377: whether the S signal's SIGOP can reach its word: the place, or the cause and reason that refuse it. -/
def State.sigPlace (_s : State) (lease : List Extent) (csig : W64) (scope : Nat) : Except (Nat × Nat) Place :=
  match covered lease csig.toNat 8 .r with
  | .error r => .error (0x21, r)
  | .ok _ =>
    match covered lease csig.toNat 8 .w with
    | .error r => .error (0x21, r)
    | .ok e =>
      match e.place csig.toNat with
      | .peer p off => if scope = 5 ∧ !p.sa then .error (0x0B, 0) else .ok (.peer p off)
      | .phys pa attr =>
        if scope = 5 ∧ !attrSa attr then .error (0x0B, 0)
        else .ok (.phys pa attr)

/-- R206: the S signal of a command: a SIGOP sub of 1 on its signal word, widened to .die. A word that can no longer
be reached is not written. R374: a refusal by this device's own import table ends the task. -/
def State.signal (s : State) (lease : List Extent) (k : CmdRef) (csig : W64) (scope : Nat) : State :=
  let sc := max scope 2
  match s.sigPlace lease csig sc with
  | .ok (.phys pa attr) => s.toHome ⟨homeDie pa, pa, true, recalls pa attr, .sigop 2 1#64 sc, .sig k⟩
  | .ok (.peer p off) =>
    if isSelf s p then
      match ingress s s.dev.devno.toNat p.win off 8 true true (decide (sc = 5)) p.key with
      | .ok pa => s.toHome ⟨homeDie pa, pa, true, (readImport s p.win).sa, .sigop 2 1#64 sc, .sig k⟩
      | .error r => s.push (.importRefusal k.task csig ⟨r, 8, 6, 5⟩)
    else s.sendPeer p off csig 0#64 true (.sigop 2 1#64 sc) (decide (sc = 5)) (.sig k)
  | .error _ => s

/-! ## Memory errors (R418 to R421) -/

/-- R416, R421: some byte of a range lies in a sector that holds an uncorrectable error. -/
def State.badAt (s : State) (pa n : Nat) : Option Nat :=
  s.err.bad.find? fun b => decide (0 < overlap pa n b 32)

/-- R416, R418, R370: a sector that holds an uncorrectable error among the bytes of a range of an extent, in this device's
memory, through its own window too. -/
def badIn (s : State) (e : Extent) (va n : Nat) : Option Nat :=
  match e.peer with
  | some w =>
    if isSelf s w then
      match ingress s s.dev.devno.toNat w.win (va % 2 ^ 42) n true false false w.key with
      | .ok pa => s.badAt pa n
      | .error _ => none
    else none
  | none => e.runs.findSome? fun r =>
      let lo := max va r.vstart
      let hi := min (va + n) (r.vstart + r.len)
      if lo < hi then s.badAt (r.pstart + (lo - r.vstart)) (hi - lo) else none

/-- R417: one more corrected error in the log, with its unit and address; CERR is due at 64. -/
def State.correctable (s : State) (unit_ pa : Nat) : State :=
  let s1 := { s with err := { s.err with corr := s.err.corr + 1, log := s.err.log ++ [(unit_, pa)] } }
  if 64 ≤ s1.err.corr then s1.push .cerr else s1

/-- R421: the event the policy core posts for an uncorrectable error. -/
def State.memErr (s : State) (pa : Nat) (again : Bool) : State :=
  s.postEvent (mbEvent 0x82 0 (BitVec.ofNat 64 pa) (if again then 1#64 else 0#64) 0#64 0#64)

/-- R419, R421: an uncorrectable error met on both attempts is posted for each. -/
def State.errTwice (s : State) (pa : Nat) : State := (s.memErr pa false).memErr pa true

end Sys2Proof.Machine
end

