-- ==== Sys2Proof/Machine/Ops.lean ====
section
/-! DEFINITION. The named operations of a control core: registers and their three states (R81 to R86), the loop
stack and the pc (R258), trap entry and return (R391 to R395, R402), fault records (R396), the end of a window
(R252, R265, R395) and of a task. -/

namespace Sys2Proof.Machine

/-! ## Commands -/

/-- The opcode of a command and the fields of its word. -/
def Cmd.op (c : Cmd) : Nat := opCmd c.word
def Cmd.args (c : Cmd) : CmdArgs := unpackCmd c.word

/-! ## Registers -/

/-- R81: the cell of a register. -/
def Run.cell (r : Run) (k : Reg) : RegCell := r.regs[k.toNat]'k.isLt

/-- R81: the value of a register; s0 always reads 0. -/
def Run.reg (r : Run) (k : Reg) : W64 := if k = 0#5 then 0#64 else (r.cell k).val

/-- R81, R82: s0 is always full; another register is full when its full bit is set. -/
def Run.full (r : Run) (k : Reg) : Bool := k == 0#5 || (r.cell k).full

/-- R82: empty and awaited. -/
def Run.awaited (r : Run) (k : Reg) : Bool := !r.full k && (r.cell k).pend

/-- R82: empty and orphaned. -/
def Run.orphan (r : Run) (k : Reg) : Bool := !r.full k && !(r.cell k).pend

/-- Put a cell; s0 discards it. -/
def Run.putCell (r : Run) (k : Reg) (c : RegCell) : Run :=
  if k = 0#5 then r else { r with regs := r.regs.set k.toNat c k.isLt }

/-- R82: a completed write makes a register full; s0 discards it. -/
def Run.setReg (r : Run) (k : Reg) (v : W64) : Run := r.putCell k ⟨v, true, false⟩

/-- R82, R85: a late producer marks its destination empty and awaited; s0 is never marked. -/
def Run.await (r : Run) (k : Reg) : Run := r.putCell k ⟨(r.cell k).val, false, true⟩

/-- R87: empty and orphaned. -/
def Run.orphanReg (r : Run) (k : Reg) : Run := r.putCell k ⟨(r.cell k).val, false, false⟩

def State.reg (s : State) (k : Reg) : W64 := s.cc.reg k
def State.modCc (s : State) (f : Run → Run) : State := { s with cc := f s.cc }
def State.setReg (s : State) (k : Reg) (v : W64) : State := s.modCc fun r => r.setReg k v

/-- R85: start a late producer: mark rd and note the delivery to come. The answer is its number. -/
def State.launch (s : State) (k : Reg) (val : Option W64) : Nat × State :=
  let id := s.cc.nextId
  (id, s.modCc fun r => { r.await k with
    nextId := id + 1, flights := r.flights ++ [⟨id, k, k != 0#5, val⟩] })

/-! ## The pc and the loop stack (R258) -/

/-- R258: an instruction at pc completed without a taken transfer: the entries that end there are counted, innermost
first, until one goes round again. -/
def loopEnd (pc : W64) : List LoopEnt → Option W64 × List LoopEnt
  | [] => (none, [])
  | e :: es =>
    if e.fin = pc then
      if 1 < e.left then (some e.start, { e with left := e.left - 1 } :: es) else loopEnd pc es
    else
      let r := loopEnd pc es
      (r.1, e :: r.2)

/-- R258: the entries left by a taken transfer: every entry whose body does not contain the target is popped. -/
def loopTaken (target : W64) (l : List LoopEnt) : List LoopEnt :=
  l.filter fun e => decide (e.start ≤ target ∧ target ≤ e.fin)

/-- The instruction at the pc of a context completes and control goes on (R258). -/
def Run.retire (c : Run) : Run :=
  let r := loopEnd c.pc c.loops
  { c with pc := r.1.getD (c.pc + 4#64), loops := r.2, stall := 0 }

/-- The instruction at pc completes and control goes on (R258). -/
def State.retire (s : State) : State := s.modCc Run.retire

/-- A taken transfer to a target (R256 to R258). -/
def State.jump (s : State) (target : W64) : State :=
  s.modCc fun c => { c with pc := target, loops := loopTaken target c.loops, stall := 0 }

/-- R408: the context gives way; the CC's switch is a pending event. -/
def State.giveWay (s : State) : State := (s.modCc fun c => { c with yields := true }).push .contextSwitch

/-- R83, R408: the instruction cannot issue in this cycle; after every 16 such cycles the CC may switch. -/
def State.stall (s : State) : State :=
  let s1 := s.modCc fun c => { c with stall := c.stall + 1 }
  if (s.cc.stall + 1) % 16 = 0 then s1.giveWay else s1

/-! ## Cause words and fault records (R390, R396) -/

/-- R390: the layout of sr.cause. -/
def causeWord (code reason detail : Nat) : W64 :=
  BitVec.ofNat 64 (fieldAt reason 24 + fieldAt detail 16 + code)

/-- R396: what a fault record says beside its cause, as the raiser gives it. -/
structure FaultInfo where
  agent : Nat
  pc    : W64
  tval  : W64
  row   : Nat
  col   : Nat
  unit_ : Nat
  lane  : Nat
  size  : Nat
  right : Nat
  extra : Nat
  aux   : W64
deriving DecidableEq, Repr

/-- R396: a record raised by the CC with nothing but a pc and TVAL. -/
def ccInfo (pc tval : W64) : FaultInfo := ⟨0, pc, tval, 0, 0, 0, 0, 0, 0, 0, 0#64⟩

/-- R396: the fault record of a context's task. SIZE is at most 128 (DEDUCED, log entry 102); PLACE of a task without an
image is its placement record, FC and CTXN (DEDUCED, log entry 101). -/
def mkRec (cyc : Nat) (r : Run) (cause : W64) (i : FaultInfo) : Vector W64 8 :=
  #v[BitVec.ofNat 64 (fieldAt 1 63 + fieldAt i.agent 60 + bits cause 31 0),
    BitVec.ofNat 64 cyc,
    r.place,
    BitVec.ofNat 64 (bits i.pc 56 0),
    i.tval,
    BitVec.ofNat 64 (fieldAt i.row 61 + fieldAt i.col 56 + fieldAt i.unit_ 52 + fieldAt i.lane 48 +
      fieldAt (min i.size 128) 40 + fieldAt i.right 37 + i.extra),
    (if r.region.hdr.isSome then
      BitVec.ofNat 64 (fieldAt (boolNat r.region.everCommitted) 14 + fieldAt r.region.stage 8 +
        (if r.region.everCommitted then (r.region.committed + 255) % 256 else 0))
      else 0#64),
    i.aux]

/-- R396: the record of a fault of a task that holds no window: PLACE, CMT, STAGE and ROUND are 0. -/
def unplacedRec (cyc : Nat) (cause : W64) (i : FaultInfo) : Vector W64 8 :=
  #v[BitVec.ofNat 64 (fieldAt 1 63 + fieldAt i.agent 60 + bits cause 31 0), BitVec.ofNat 64 cyc, 0#64,
    BitVec.ofNat 64 (bits i.pc 56 0), i.tval, BitVec.ofNat 64 (fieldAt (min i.size 128) 40 + fieldAt i.right 37), 0#64, 0#64]

/-- R396: the record of a fault before dispatch. -/
def earlyRec (cyc : Nat) (cause tval : W64) : Vector W64 8 := unplacedRec cyc cause { ccInfo 0#64 tval with agent := 7 }

/-! ## The end of a window and of a task -/

/-- R362, R384: the window's lease ends: guest tags that worked under it are invalidated. -/
def State.leaseEnds (s : State) (h : W64) (old : List Extent) : State :=
  let mark (t : GTag) : GTag :=
    match t.owner with
    | .cmd k => if k.task = h ∧ t.inval.isNone then { t with inval := some s.cyc, oldLease := old } else t
    | _ => t
  let hit (t : GTag) : Bool := match t.owner with | .cmd k => decide (k.task = h) && t.inval.isNone | _ => false
  let msgs := s.guests.flatMap fun g => (g.2.tags.filter fun t => hit t.2).map fun t => OutMsg.guestInval g.1 t.1
  { s with guests := s.guests.map fun g => (g.1, { g.2 with tags := g.2.tags.map fun t => (t.1, mark t.2) }),
           out := s.out ++ msgs }

/-- R252, R279, R283: the window's slots are freed from the next slot on, a claim goes with its holder, and a placement
pass follows before anything else is booked; a held reservation
is kept when `keep` says so (R286). -/
def State.freeWindow (s : State) (h : W64) (keep : Bool) : State :=
  ({ s with alm := s.alm.filter fun e => !(decide (e.handle = h) && (!keep || e.st != 3))
            claim := s.claim.filter fun c => !(decide (c.handle = h) && (!keep || !c.book))
            allow := SMap.del s.allow (handleKey h)
            overrun := s.overrun.filter fun x => !(x == h)
            reqs := s.reqs.filter fun q => !(decide (q.handle = h) && (!keep || !q.book)) }).urgent .placementPass

/-- R244, R410: waits and entries that end with a window: those of CC registers, of W waits and of parked records. A
started WAITC runs to completion and keeps its wait. So do the waits among them that a home still holds (R228). The L1 partitions of the task's MBs empty with the window (R188). -/
def State.dropWaits (s : State) (h : W64) : State :=
  let mine (o : Owner) : Bool :=
    match o with
    | .cc t _ => decide (t = h)
    | .wwait k => decide (k.task = h)
    | _ => false
  let mineH (o : Owner) : Bool :=
    match o with
    | .wwait k => decide (k.task = h)
    | .parked t _ _ => decide (t = h)
    | _ => false
  let mineV (w : Waiter) : Bool :=
    match w with
    | .ccReg t _ => decide (t = h)
    | .parked t _ _ => decide (t = h)
    | _ => false
  { s with
    barWaits := s.barWaits.filter fun w => !mine w.owner
    heldOps := s.heldOps.filter fun o => !mineH o.owner
    vigils := s.vigils.filter fun v => !mineV v.waiter
    l1 := s.l1.filter fun c => !decide (c.task = h) }

/-- R244, R409: the accesses of a preempted context that are not yet performed, as the save holds them. One that is
on its way to a home, or to another device, stays on its way; one whose wait ended with the window is performed anew
after the restoring dispatch (DEDUCED, log entry 44). -/
def State.savedAccs (s : State) (h : W64) (l : List Access) : List Access :=
  let out (a : Access) : Bool := (s.homes ++ s.heldOps).any (fun o => decide (o.owner = .cc h a.id)) ||
    s.peers.any fun o => decide (o.owner = .cc h a.id)
  l.map fun a => { a with sent := a.sent && out a }

/-- R387: preempt requests for the work of a task on the guest sites. -/
def State.askGuests (s : State) (h : W64) : State :=
  let hit (t : GTag) : Bool :=
    (match t.owner with | .cmd k => decide (k.task = h) | _ => false) && !t.saved && t.preempt.isNone
  let msgs := s.guests.flatMap fun g => (g.2.tags.filter fun t => hit t.2).map fun t => OutMsg.guestPreempt g.1 t.1
  let gs : SMap GSite := s.guests.map fun g => (g.1, { g.2 with tags := g.2.tags.map fun t =>
    (t.1, if hit t.2 then { t.2 with preempt := some s.cyc } else t.2) })
  { s with guests := gs, out := s.out ++ msgs }

/-- R384, R387: guest work that was saved is discarded at the end of its task: its tags are freed, and may be given
again once their invalidations are acknowledged. -/
def State.freeSaved (s : State) (h : W64) : State :=
  let hit (t : GTag) : Bool := (match t.owner with | .cmd k => decide (k.task = h) | _ => false) && t.saved
  let free (l : SMap GTag) : SMap GTag := l.map fun t =>
    (t.1, if hit t.2 then { t.2 with owner := Owner.none, saved := false, inval := some (t.2.inval.getD s.cyc) } else t.2)
  let msgs := s.guests.flatMap fun g => (g.2.tags.filter fun t => hit t.2).map fun t => OutMsg.guestInval g.1 t.1
  let gs : SMap GSite := s.guests.map fun g => (g.1, { g.2 with tags := free g.2.tags })
  { s with guests := gs, out := s.out ++ msgs }

/-- R251: the words of a completion record before the fault record. -/
def crecWords (status start fin h : W64) : List W64 := [status, start, fin, h, 0#64, 0#64, 0#64, 0#64]

/-- R264: the events of a task's end: armed task ends and child ends that name it, and the parent's child end. -/
def State.endEvents (s : State) (h parent : W64) : State :=
  let s1 := s.tasks.foldl (fun st e =>
    let names := e.2.arms.filter fun a => (decide (a.kind = 0) || decide (a.kind = 4)) && a.src == h
    names.foldl (fun st' a => (st'.armedEvent e.2.handle a.kind fun b => b == a).2) st) s
  match s1.armedEvent parent 4 fun a => a.src == 0#64 with
  | (true, s2) => s2
  | (false, s2) => s2.modTask parent fun t => { t with kids := t.kids + 1 }

/-- R420: the debt of a retry that a task owes is gone. -/
def State.clearDebt (s : State) (h : W64) : State :=
  { s with err := { s.err with owed := s.err.owed.filter fun x => !(x == h) } }

/-- R356: the context entry a task works under: the one its lease was made under, or, before any, the present one. -/
def State.entryOf (s : State) (t : TaskRec) : CtxEnt :=
  if t.cent.valid then t.cent else (SMap.get? s.ctxs t.ctx).getD ⟨false, 0, 0#64⟩

/-- R148, R151: the contributions that a task's end abandons; what a ring holds of them stays with the ring. -/
def State.keepContribs (s : State) (h : W64) : List Contrib :=
  s.contribs.filter fun c => !decide (c.k.task = h) || bit (SMap.get 0#64 s.groups c.key.group.toNat) 62

/-- R251, R252: the end of a task: its completion record is written, its events are delivered, its record is freed
and the generation raised. START of a task that never had a window is a free value (R26, DESIGN CHOICE, log entry 11). -/
def State.endTask (s0 : State) (h status : W64) (rec_ : Option (Vector W64 8)) : State :=
  match s0.task? h with
  | none => s0
  | some t =>
    let start := match t.startC with | some c => BitVec.ofNat 64 c | none => Config.noStart s0.free
    let s := if t.startC.isNone then s0.fresh else s0
    let body := wordsBytes (crecWords status start (BitVec.ofNat 64 s.cyc) h ++
      (match rec_ with | some v => v.toList | none => []))
    let s1 := if t.crec = 0#64 then s else ctxWrite s (s.entryOf t) t.crec.toNat 16 body
    let s2 := s1.endEvents h t.parent
    let s3 := ((s2.freeWindow h false).dropWaits h).freeSaved h
    let key := handleKey h
    let s4 := { s3 with
      tasks := SMap.del s3.tasks key
      taskGen := SMap.put 1#16 s3.taskGen key (handleGen h + 1#16)
      barWaits := s3.barWaits.filter fun w => !decide (w.owner = Owner.arm h)
      vigils := s3.vigils.filter fun v => !decide (v.waiter = Waiter.task h)
      contribs := s3.keepContribs h
      err := { s3.err with owed := s3.err.owed.filter fun x => !(x == h) } }
    let done := s4.queues.flatMap fun q => (q.2.packets.filter fun p => p.started && p.task == h).map fun p =>
      PktRef.mk q.1 p.idx
    done.foldl (fun st p => (st.modPacket p fun x => { x with ended := some rec_.isNone }).push (.packetComplete p)) s4

/-- R410: a started command of a queue that runs to completion at the end of a window. A CBAR is none: one that is not yet
satisfied is kept by a preemption (DEDUCED, log entry 14) and dropped by a fault end (R440). -/
def Cmd.runsOn (c : Cmd) : Bool :=
  c.phase != .waiting &&
  match c.queue with
  | .port _ => false
  | .region => false
  | .barrier => false
  | _ => true

/-- R138, R411: a carrier whose bytes have landed and whose follow-on has not started: the pair is one entry of the
pending commands. -/
def Run.pairPending (r : Run) (c : Cmd) : Bool :=
  c.step == 1 && r.cmds.any fun d => d.carrier == some c.id && d.phase == .waiting

/-- R410, R265: no command of the context is still running. -/
def Run.quiet (r : Run) : Bool :=
  !r.cmds.any fun c => c.phase == .done || (c.phase == .started && c.runsOn && !r.pairPending c)

/-- R396: the status word of a fault end. -/
def faultStatus (cause : W64) : W64 := BitVec.ofNat 64 (fieldAt 1 63 + bits cause 31 0)

/-- R411, R412: the pending commands of a save: a follow-on that has not started stands in its carrier's entry. -/
def Run.pending (r : Run) : List Cmd := r.cmds.filter fun c => c.carrier.isNone && (c.phase == .waiting || r.pairPending c)

/-- R411: the bytes of the sections of a save area, in their order: header, context, TID table, ports, pending commands, port
spill (nothing at an edge, R404, R406), edge state, tiles, fill logs, collective generators, scratchpad mirror. The edge
state is device-defined, at most 256 KiB (DESIGN CHOICE, log entry 73). -/
def saveSections (r : Run) : List Nat :=
  [64, 544, 4096, 2048, 64 * r.pending.length, 0,
    (if r.region.hdr.isSome then min 262144 (Config.edgeBytes r.region.sites.length) else 0),
    131584 * r.tiles.length, (r.tiles.map fun t => 16 * min 8192 t.2.fills.length).sum, 2048,
    (r.region.mbs.map fun m => if m.2.mirror then m.2.size else 0).sum]

/-- R411: sections that follow one another from a byte on, each aligned to 4 KiB: first byte and size of each. -/
def saveLayout (at_ : Nat) : List Nat → List (Nat × Nat)
  | [] => []
  | n :: ns => (at_, n) :: saveLayout ((at_ + n + 4095) / 4096 * 4096) ns

/-- R411, R412: the bytes of the area: its last section's end. -/
def areaBytes (r : Run) : Nat := (saveLayout 0 (saveSections r)).foldl (fun _ x => x.1 + x.2) 0

/-- R411: the bytes of a save that leave the core: every section but the port spill and the scratchpad mirror. -/
def saveBytes (r : Run) : Nat := (((saveSections r).take 10).eraseIdx 5).sum

/-- R411, R412: which MBs of a region are mirrored, as a mask over image positions. -/
def mirrorMask (r : Run) : Nat :=
  ((r.region.mbs.filter fun m => m.2.mirror).map fun m => 2 ^ (4 * (m.1 / 24) + m.1 % 24 / 6)).sum

/-- R412: the save area header of a task at its preemption. No program can read the area, and the model holds its other
sections as data (DESIGN CHOICE, log entry 73). -/
def saveHeader (image : W64) (r : Run) : Vector W64 8 :=
  let g := r.region
  let mask (l : List (Nat × Bool)) : Nat := (l.map fun e => if e.2 then 2 ^ e.1 else 0).sum
  #v[BitVec.ofNat 64 (fieldAt 1 63 + fieldAt (boolNat g.running) 62 + image.toNat % 2 ^ 57 / 64 * 64 + g.stage % 64),
    r.place,
    BitVec.ofNat 64 (fieldAt g.j0 32 + g.j1),
    BitVec.ofNat 64 (fieldAt g.j2 48 + fieldAt g.m2 32 + fieldAt r.pending.length 16 +
      (if g.everCommitted then (g.committed + 255) % 256 else 0)),
    BitVec.ofNat 64 (fieldAt g.m0 32 + g.m1),
    BitVec.ofNat 64 (fieldAt (mirrorMask r) 32 + fieldAt (mask (r.tiles.map fun x => (x.1, true))) 28 +
      fieldAt (mask (r.ports.map fun x => (x.1, x.2.mode != 0))) 12 + fieldAt (mask (r.tiles.map fun x => (x.1, x.2.seeded))) 8 +
      fieldAt (boolNat r.coll.seeded) 7),
    BitVec.ofNat 64 (areaBytes r), 0#64]

/-- R412: the header of an area that holds no save. -/
def emptyHeader : Vector W64 8 := Vector.replicate 8 0#64

/-! ## The resident contexts of a core (R408) -/

/-- R408: a resident context that can issue: it is not stalled and no PAUSE holds it back. -/
def Run.canIssue (r : Run) (cyc : Nat) : Bool :=
  r.task != 0#64 && r.ending.isNone && r.stall == 0 && decide (r.pauseTo ≤ cyc)

/-- The resident context of an FC at a context number. -/
def residentAt (s : State) (fc ctxn : Nat) : Option Run :=
  s.allRuns.find? fun r => decide (r.fc = fc ∧ r.ctxn = ctxn)

/-- R408: the next context of an FC in round-robin order after one that a test accepts. -/
def nextResident (s : State) (fc after : Nat) (ok : Run → Bool) : Option Run :=
  ((List.range 3).filterMap fun i => residentAt s fc ((after + 1 + i) % 3)).find? ok

/-- Make one context of an FC active. -/
def State.activate (s : State) (fc : Nat) (h : W64) : State :=
  let f (r : Run) : Run := if r.fc = fc then { r with active := r.task == h, yields := false } else r
  { s with cc := f s.cc, runs := s.runs.map f }

/-- R408: the active context's window ends: the next in round-robin order that can issue becomes active, or, where none
can, the next whose window has not ended. -/
def State.passOn (s : State) (r : Run) : State :=
  if !r.active then s
  else match nextResident s r.fc r.ctxn fun x => x.task != r.task && x.canIssue s.cyc with
    | some x => s.activate r.fc x.task
    | none =>
      match nextResident s r.fc r.ctxn fun x => x.task != r.task && x.ending.isNone with
      | some x => s.activate r.fc x.task
      | none => s

/-- R395, R409, R411: the window of a context that is ending is over once its started commands have completed: the
task ends, or the context is saved and the task becomes ready. R26 does not say which cycle END is when a fault ends a
task whose started commands still run: here it is the cycle in which the last of them has completed (DESIGN CHOICE, log
entry 43). R394, R409: a deferred trap that waits behind a handler is lost with the window, and so is a missed promise's. -/
def State.settle (s : State) (h : W64) : State :=
  match s.run? h with
  | none => s
  | some r =>
    match r.ending with
    | none => s
    | some k =>
      if !r.quiet then s.passOn r
      else
        let s1 := ((((s.passOn r).leaseEnds h r.lease).dropRun h).pushAll [.contextSwitch, .dispatch]).kickAll
        match k with
        | .done status => s1.endTask h status none
        | .fault cause rec_ => s1.endTask h (faultStatus cause) (some rec_)
        | .preempt =>
          let s2 := s1.dropWaits h
          let s3 := s2.modTask h fun t => { t with area := t.area.map fun _ => saveHeader t.image r, save := some { r with
            ending := none, active := false, preempt := false, lease := [], accs := s2.savedAccs h r.accs
            cmds := r.cmds.map fun c => if c.phase = .waiting then { c with words := [] } else c
            due := if r.sys.hmode then [] else r.due.filter (·.region) } }
          ({ s3 with saveBuf := s3.saveBuf ++ [SaveHeld.mk r.fc h (saveBytes r)] }.freeWindow h true).makeReady h

/-- R204, R248: ARRIVEC. -/
def Cmd.isArrivec (c : Cmd) : Bool := decide ((c.word.extractLsb' 120 8).toNat = 0x41)

/-- R205, R410: a command that a fault end drops: it has not started, or belongs to a port, the region or the barrier queue,
or is a landed carrier of a follow-on that is dropped. A carrier that has started runs on until its bytes have landed. -/
def Run.drops (r : Run) (c : Cmd) : Bool :=
  let first (d : Cmd) : Bool := !d.runsOn && d.phase != .done
  c.phase != .done && (first c || (c.step == 1 && r.cmds.any fun d => d.carrier == some c.id && first d))

/-- R148, R410: a CONTRIB that has started and not completed when its task ends by a fault is abandoned, whether or not it
has sent its messages. -/
def Cmd.abandoned (c : Cmd) : Bool := decide ((c.word.extractLsb' 120 8).toNat = 0x38) && c.phase == .started

/-- R205, R395, R405, R410: a fault end drops what has not started and stops ports and region; each dropped command's token
carries status 11, and its S signal is written. What goes on is tried again. -/
def State.dropCmds (s : State) (h : W64) : State :=
  match s.run? h with
  | none => s
  | some r =>
    let s1 := s.modRun h fun x => { x with cmds := x.cmds.filter fun c => !r.drops c && !c.abandoned }
    ((r.cmds.filter r.drops).foldl (fun st c =>
      let st := st.token h { c with status := 3#2 }
      if c.word.getLsbD 119 then
        st.signal r.lease ⟨h, c.id⟩ c.csig (c.word.extractLsb' 95 3).toNat
      else st) s1).kick h

/-- R248, R395: an ARRIVEC of a task that has reached its home and is not yet performed arrives with FAULT set. -/
def HomeOp.faulted (h : W64) (o : HomeOp) : HomeOp :=
  match o.owner, o.kind with
  | .cmd k, .arrivec p u f => if k.task = h then { o with kind := .arrivec p u true } else { o with kind := .arrivec p u f }
  | _, _ => o

/-- R393 to R395: FaultEnd of the task of a context. -/
def State.faultEnd (s : State) (h cause : W64) (rec_ : Vector W64 8) : State :=
  match s.run? h with
  | none => s
  | some r =>
    match r.ending with
    | some (.fault _ _) => s
    | _ =>
      -- ARRIVECs accepted and not performed arrive with FAULT set, at once
      let arr := r.cmds.filter fun c => c.isArrivec && c.phase == .waiting
      let s0 := arr.foldl (fun st c => st.push (.arrivec ⟨h, c.id⟩
        ⟨false, false, false, false, c.word.extractLsb' 110 6, c.word.extractLsb' 104 6, c.word.extractLsb' 98 6,
          c.word.extractLsb' 95 3, c.word.extractLsb' 64 31, c.word.extractLsb' 32 32, c.word.extractLsb' 0 32⟩)) s
      let late (c : Cmd) : Cmd :=
        if c.isArrivec && c.phase != .done then { c with phase := .started, bad := true } else c
      let s1 := ({ s0 with
        homes := s0.homes.map (HomeOp.faulted h)
        heldOps := s0.heldOps.map (HomeOp.faulted h) }).modRun h fun x => { x with
          ending := some (.fault cause rec_)
          due := []
          accs := []
          cmds := x.cmds.map late }
      ((((s1.modTask h fun t => { t with st := .ending }).askGuests h).dropCmds h).dropWaits h).settle h

/-! ## Traps (R391, R394) -/

/-- R391: TrapEntry on the context whose turn it is. -/
def State.trapEntry (s : State) (cause epc tval : W64) (rec_ : Vector W64 8) : State :=
  if s.cc.sys.tvec = 0#64 ∨ s.cc.sys.hmode then
    if bits cause 15 0 = 0xA ∧ s.cc.sys.tvec = 0#64 then s
    else if s.cc.sys.hmode then
      s.faultEnd s.cc.task (causeWord 0x26 0 0)
        (vec8 (BitVec.ofNat 64 (fieldAt (word8 rec_ 0).toNat 0 / 2 ^ 32 * 2 ^ 32 + 0x26) ::
          (rec_.toList.drop 1).take 6 ++ [BitVec.ofNat 64 (bits cause 31 0)]))
    else s.faultEnd s.cc.task cause rec_
  else s.modCc fun r => { r with
    pc := r.sys.tvec
    aside := r.loops
    loops := []
    stall := 0
    sys := { r.sys with cause := cause, epc := epc, tval := tval, frec := rec_, hmode := true } }

/-- R391: a precise trap of the instruction at pc; `next` for the two causes whose epc is the next instruction. -/
def State.trap (s : State) (code reason detail : Nat) (tval : W64) (next : Bool) : State :=
  let cause := causeWord code reason detail
  let epc := if next then s.cc.pc + 4#64 else s.cc.pc
  s.trapEntry cause epc tval (mkRec s.cyc s.cc cause (ccInfo epc tval))

/-- R391, R396: a precise trap of an access at the pc: its record gives the size and the rights the access needs. -/
def State.trapAcc (s : State) (code : Nat) (ea : W64) (n right : Nat) : State :=
  let cause := causeWord code 0 0
  s.trapEntry cause s.cc.pc ea (mkRec s.cyc s.cc cause { ccInfo s.cc.pc ea with size := n, right := right })

/-- R402: ERET with H = 1: control goes back, and the handler's loop stack gives way to the one set aside. -/
def State.trapReturn (s : State) : State :=
  s.modCc fun r => { r with
    pc := r.sys.epc
    loops := r.aside
    aside := []
    stall := 0
    sys := { r.sys with hmode := false } }

/-- R365: a lease fault of the CC: the task ends with VA, size, right and reason in its record. -/
def State.ccLeaseFault (s : State) (ea : W64) (n right : Nat) (reason : Nat) : State :=
  let cause := causeWord 0x21 reason 0
  s.faultEnd s.cc.task cause
    (mkRec s.cyc s.cc cause { ccInfo s.cc.pc ea with size := n, right := right })

/-- R374, R365, R390: an access that an import refuses ends the task; the record gives the VA, the size, the right
needed, the reason and the agent. -/
def State.importFault (s : State) (h va : W64) (n right reason : Nat) (pc : W64) (agent : Nat) : State :=
  match s.run? h with
  | none => s
  | some r =>
    let cause := causeWord 0x22 reason 0
    s.faultEnd h cause (mkRec s.cyc r cause { ccInfo pc va with agent := agent, size := n, right := right })

/-- R419, R396: a retry that meets an uncorrectable error ends the task; the record gives the size and the rights of the
access. -/
def State.memFault (s : State) (h : W64) (pa : Nat) (pc : W64) (agent n right : Nat) : State :=
  match s.run? h with
  | none => s
  | some r =>
    let cause := causeWord 0x25 0 0
    ((s.memErr pa false).memErr pa true).faultEnd h cause
      (mkRec s.cyc r cause { ccInfo pc (BitVec.ofNat 64 pa) with agent := agent, size := n, right := right })

end Sys2Proof.Machine
end

