-- ==== Sys2Proof/Machine/Operands.lean ====
section
/-! DEFINITION. How a scalar instruction gets its operands: reading sources that wait or trap (R31, R83, R84), waiting
for an awaited destination (R86), immediates (R33), and the three shapes most instructions have. -/

namespace Sys2Proof.Machine

/-- One answer of a meaning. -/
abbrev Result := Host.Outcome State Fault Refusal

/-- A source register with its source bit: true traps on an empty register, false waits (R31). -/
abbrev Src := Reg × Bool

/-- R83: what reading the sources leads to. -/
inductive SrcRes where
  | go
  | wait
  | trap (r : Reg)
deriving DecidableEq, Repr

/-- R84: the first empty source in field order. -/
def firstEmpty (r : Run) : List Src → Reg
  | [] => 0#5
  | (k, _) :: ss => if r.full k then firstEmpty r ss else k

/-- R83: a trapping source that is empty, or a waiting one that is orphaned, traps; otherwise the instruction waits
for every empty one. -/
def readSrcs (r : Run) (ss : List Src) : SrcRes :=
  if ss.any fun x => !r.full x.1 && (x.2 || r.orphan x.1) then .trap (firstEmpty r ss)
  else if ss.all fun x => r.full x.1 then .go
  else .wait

/-- R83, R84: read the sources, then go on; or wait; or take the empty-register trap. -/
def withSrcs (ss : List Src) (s : State) (k : State → Result) : Result :=
  match readSrcs s.cc ss with
  | .go => k s
  | .wait => .next s.stall
  | .trap r => .next (s.trap 0x02 0 r.toNat 0#64 false)

/-- R86: an instruction whose rd is awaited waits until that delivery has landed. -/
def withDest (d : Reg) (s : State) (k : State → Result) : Result :=
  if s.cc.awaited d then .next s.stall else k s

/-- Write rd full and go on to the next instruction. -/
def finish (d : Reg) (v : W64) (s : State) : Result := .next ((s.setReg d v).retire)

/-- R85: a late producer: rd is marked, the effect happens with the producer's number, the pc moves on. -/
def finishLate (d : Reg) (val : Option W64) (s : State) (f : Nat → State → State) : Result :=
  let r := s.launch d val
  .next (f r.1 r.2).retire

/-- R33: immediates sign-extended to 64 bits. -/
def sext64 {n : Nat} (i : BitVec n) : W64 := i.signExtend 64

/-- R33: a branch target, in units of 4 bytes from the instruction. -/
def relTarget {n : Nat} (s : State) (i : BitVec n) : W64 := s.cc.pc + (sext64 i <<< 2)

/-- rd from two sources (R89, R90, R92). -/
def regReg (f : W64 → W64 → W64) (d a b : Reg) (ta tb : Bool) (s : State) : Result :=
  withSrcs [(a, ta), (b, tb)] s fun s => withDest d s fun s => finish d (f (s.reg a) (s.reg b)) s

/-- rd from one source (R89, R91, R93, R94). -/
def regOne (f : W64 → W64) (d a : Reg) (ta : Bool) (s : State) : Result :=
  withSrcs [(a, ta)] s fun s => withDest d s fun s => finish d (f (s.reg a)) s

/-- rd from the pc and an immediate (R95). -/
def regConst (v : State → W64) (d : Reg) (s : State) : Result :=
  withDest d s fun s => finish d (v s) s

/-- R256: a branch on two sources. -/
def branch (c : W64 → W64 → Bool) (b a : Reg) (ta tb : Bool) (i : BitVec 14) (s : State) : Result :=
  withSrcs [(a, ta), (b, tb)] s fun s =>
    .next (if c (s.reg a) (s.reg b) then s.jump (relTarget s i) else s.retire)

end Sys2Proof.Machine
end

