-- ==== Sys2Proof/Machine/CcMemory.lean ====
section
/-! DEFINITION. The control core's own accesses: LD, LDA, ST, STR, FENCE, FLUSH (R183 to R187). The accesses of a
context are performed one at a time in program order, and memory is one coherent store: the model takes, of the
outcomes R163 to R172 allow, those of one interleaving (DESIGN CHOICE, log entry 7). An access that finds an earlier one of its context
not yet performed is queued, and the CC goes on (R185). -/

namespace Sys2Proof.Machine

/-- R168: an access of the context has been issued and not yet performed. -/
def ccBusy (s : State) : Bool := !s.cc.accs.isEmpty

/-- R165: an access takes its place behind the earlier ones of the context whose turn it is. -/
def State.queueAcc (s : State) (id : Nat) (ea : W64) (kind : AccKind) (sent : Bool) : State :=
  s.modCc fun r => { r with accs := r.accs ++ [⟨id, ea, r.pc, kind, sent⟩] }

/-- A number in the context's order for an access that delivers nothing. -/
def State.number (s : State) : Nat × State := (s.cc.nextId, s.modCc fun r => { r with nextId := r.nextId + 1 })

/-- An access that delivers nothing is queued, and the instruction retires. -/
def queueOnly (ea : W64) (kind : AccKind) (s : State) : Result :=
  let r := s.number
  .next (r.2.queueAcc r.1 ea kind false).retire

/-- R183: alignment, then the lease. -/
def withAccess (ea : W64) (n : Nat) (right : Right) (s : State) (k : Extent → State → Result) : Result :=
  if ea.toNat % n ≠ 0 then .next (s.trapAcc 0x03 ea n right.code)
  else match covered s.cc.lease ea.toNat n right with
    | .error r => .next (s.ccLeaseFault ea n right.code r)
    | .ok e => k e s

/-- R36: the bytes of a size code. -/
def sizeBytes (z : BitVec 2) : Nat := 2 ^ z.toNat

/-- R184: the loaded bytes, sign-extended. -/
def loadValue (bs : List Byte) : W64 := BitVec.ofInt 64 (signedOf (8 * bs.length) (leNat bs))

/-- R416, R418: the sector with an uncorrectable error that an access at a place would meet in this device's memory, through
its own window too (R370). -/
def badPlace (s : State) (p : Place) (n : Nat) : Option Nat :=
  match p with
  | .phys pa _ => s.badAt pa n
  | .peer w off =>
    if isSelf s w then
      match ingress s s.dev.devno.toNat w.win off n true false false w.key with
      | .ok pa => s.badAt pa n
      | .error _ => none
    else none

/-- R418, R421: a sector with an uncorrectable error among n bytes read through a context entry. -/
def ctxBad (s : State) (c : CtxEnt) (va n : Nat) : Option Nat :=
  if s.err.bad.isEmpty || n == 0 then none
  else (List.range ((va + n - 1) / 8 - va / 8 + 1)).findSome? fun i =>
    let a := max va (va / 8 * 8 + 8 * i)
    (ctxPlace s.mem c a .r).bind fun p => badPlace s p (min (8 - a % 8) (va + n - a))

/-- R184: a load at an address: the value is fixed now and delivered later. R418, R419: an uncorrectable error met on
both attempts ends the task. R374: so does an import refusal. -/
def loadAt (d : Reg) (ea : W64) (n : Nat) (e : Extent) (s : State) : Result :=
  match badPlace s (e.place ea.toNat) n with
  | some pa => .next (s.memFault s.cc.task pa s.cc.pc 0 n 4)
  | none =>
    match readPlace s (e.place ea.toNat) n with
    | (.error r, s1) => .next (s1.importFault s.cc.task ea n 4 r s.cc.pc 0)
    | (.ok bs, s1) =>
      finishLate d (some (loadValue bs)) s1 fun id t => t.push (.lateDelivery ⟨t.cc.task, id⟩)

/-- R184: a load that waits its turn: rd is marked, and its value is fixed when the access is performed. -/
def loadLater (d : Reg) (ea : W64) (n : Nat) (s : State) : Result :=
  finishLate d none s fun id t => t.queueAcc id ea (.load n) false

/-- R184: a load of either kind. -/
def load (d a : Reg) (ta : Bool) (z : BitVec 2) (o : BitVec 13) (s : State) : Result :=
  withSrcs [(a, ta)] s fun s =>
    let ea := s.reg a + sext64 o
    withAccess ea (sizeBytes z) .r s fun e s => withDest d s fun s =>
      if ccBusy s then loadLater d ea (sizeBytes z) s else loadAt d ea (sizeBytes z) e s

def execLd (d a : Reg) (ta : Bool) (z : BitVec 2) (o : BitVec 13) (s : State) : Result := load d a ta z o s
/-- R184: LDA; as an acquire it is performed before the context's later accesses like every access here. -/
def execLda (d a : Reg) (ta : Bool) (z : BitVec 2) (o : BitVec 13) (s : State) : Result := load d a ta z o s

/-- R185: a store at an address. -/
def storeAt (ea : W64) (bs : List Byte) (e : Extent) (s : State) : Result :=
  match writePlace s (e.place ea.toNat) bs with
  | (.error r, s1) => .next (s1.importFault s.cc.task ea bs.length 2 r s.cc.pc 0)
  | (.ok _, s1) => .next s1.retire

/-- R185: a store of either kind; behind an access that is not yet performed it waits, and the CC goes on. -/
def store (b a : Reg) (ta tb : Bool) (z : BitVec 2) (o : BitVec 12) (s : State) : Result :=
  withSrcs [(a, ta), (b, tb)] s fun s =>
    let ea := s.reg a + sext64 o
    let bs := leBytes (sizeBytes z) (s.reg b).toNat
    withAccess ea (sizeBytes z) .w s fun e s =>
      if ccBusy s then queueOnly ea (.store bs) s else storeAt ea bs e s

def execSt (b a : Reg) (ta tb : Bool) (z : BitVec 2) (o : BitVec 12) (s : State) : Result := store b a ta tb z o s
/-- R185: STR; every earlier access of the context is performed before it. -/
def execStr (b a : Reg) (ta tb : Bool) (z : BitVec 2) (o : BitVec 12) (s : State) : Result := store b a ta tb z o s

/-- R186: FENCE. Accesses of the context are performed in program order, so every access before the FENCE is performed
before every one after it, whatever its sets. -/
def execFence (_e _f _g _h : Bool) (_c : BitVec 3) (s : State) : Result := .next s.retire

/-- R187: the line of a place leaves every L1 partition; its frame already holds the latest value (DESIGN CHOICE, log entry 7). A
peer window's lines are never cached (R157). -/
def State.flushPlace (s : State) (p : Place) : State :=
  match p with
  | .phys pa _ => { s with l1 := invalidate s.l1 pa 1 }
  | .peer _ _ => s

/-- R187: the extent that lets a FLUSH through: right R or W. -/
def flushCovered (lease : List Extent) (ea : Nat) : Except Nat Extent :=
  match covered lease ea 1 .r with
  | .ok e => .ok e
  | .error r =>
    match covered lease ea 1 .w with
    | .ok e => .ok e
    | .error _ => .error r

/-- R187: FLUSH, a store in the context's order (R186). The record of its lease fault names both rights it would do
with. -/
def execFlush (a : Reg) (ta : Bool) (o : BitVec 15) (s : State) : Result :=
  withSrcs [(a, ta)] s fun s =>
    let ea := s.reg a + sext64 o
    match flushCovered s.cc.lease ea.toNat with
    | .ok e => if ccBusy s then queueOnly ea .flush s else .next (s.flushPlace (e.place ea.toNat)).retire
    | .error r => .next (s.ccLeaseFault ea 1 6 r)

end Sys2Proof.Machine
end

