-- ==== Sys2Proof/Machine/Almanac.lean ====
section
/-! DEFINITION. The Almanac: reservation descriptors, candidates, Fits, claims, placement passes and compaction,
extension and overrun, BOOK, EXTEND and RELEASE (R269 to R288, R446). The five Almanacs are one list of entries:
R271 makes their steps act as if a single calendar held every resource. -/

namespace Sys2Proof.Machine

/-! ## Sorting -/

/-- Put an element before the first one it precedes. -/
def insertBy {α : Type} (lt : α → α → Bool) (x : α) : List α → List α
  | [] => [x]
  | y :: ys => if lt x y then x :: y :: ys else y :: insertBy lt x ys

/-- A list in order; ties keep their order. -/
def sortBy {α : Type} (lt : α → α → Bool) (l : List α) : List α := l.foldl (fun acc x => insertBy lt x acc) []

/-! ## Descriptors (R272, R274) -/

/-- R272: a reservation descriptor from its eight words. -/
def readDesc (ws : List W64) : ResDesc :=
  let w0 := ws.getD 0 0#64
  let w1 := ws.getD 1 0#64
  { place := bits w0 63 62, fcn := bits w0 61 56, xlim := bits w0 53 40, win := bits w0 23 0, dies := bits w1 55 52,
    seamsh := bits w1 51 47, l2sh := bits w1 46 42, lsh := bits w1 41 37, lkind := bits w1 36 35,
    lport := bits w1 34 29, gslot := bits w1 28 25, gsite := bits w1 24 24,
    rsvd := decide (bits w0 55 54 ≠ 0 ∨ bits w0 39 24 ≠ 0 ∨ bits w1 63 56 ≠ 0 ∨ bits w1 23 0 ≠ 0) ||
      (ws.drop 2).any (· != 0#64) }

/-- R2: an enabled fabric core. -/
def fcOn (s : State) (fc : Nat) : Bool := decide (fc < 48) && s.dev.enfc.getLsbD fc

/-- R3: only the -KG part has its guest sites wired. -/
def guestsWired (s : State) : Bool := s.dev.part.wired

/-- R272: the window length: WIN, or the one derived from the image's declared cycles. -/
def winOf (d : ResDesc) (cycles : List Nat) : Nat := if d.win = 0 then (cycles.sum + 63) / 64 else d.win

/-- R277: the candidate placements (FC, ROW0, CGO) of a task homed on a die, in order. -/
def candidates (s : State) (die : Nat) (d : ResDesc) (hdr : Option ImageHdr) : List (Nat × Nat × Nat) :=
  let dies := if d.place = 2 then die :: (List.range 4).filter (· != die) else [die]
  let fcs := if d.place = 1 then [d.fcn] else dies.flatMap fun x => (List.range 12).map fun i => 12 * x + i
  (fcs.filter (fcOn s)).flatMap fun fc =>
    match hdr with
    | none => [(fc, 0, 0)]
    | some h =>
      (List.range (9 - h.height)).flatMap fun r => (List.range (5 - h.width)).filterMap fun g =>
        if (reach h r g).isSome && fuseOk s h fc r g then some (fc, r, g) else none

/-- R274: the declaration is acceptable. -/
def descOk (s : State) (die : Nat) (d : ResDesc) (hdr : Option ImageHdr) (win : Nat) : Bool :=
  decide (win + 1 ≤ 16384) && (d.win != 0 || hdr.isSome) && d.place != 3 && (d.place != 1 || fcOn s d.fcn) && !d.rsvd &&
  decide (d.seamsh ≤ 16 ∧ d.l2sh ≤ 16 ∧ d.lsh ≤ 16) && (d.lkind != 1 || decide (d.lport ≤ 47)) &&
  (d.lkind != 3 || decide (d.lport ≤ 1)) && decide (d.gslot ≤ 8) &&
  (guestsWired s || (d.gslot == 0 && d.lkind != 3)) && !(candidates s die d hdr).isEmpty

/-! ## Units and shares (R269, R273) -/

/-- R269: the resources held by share or count; `tiles` is the package-wide tile count of R446. -/
inductive Shared where
  | l2 (die : Nat)
  | seam (a b : Nat)
  | link (kind port : Nat)
  | guest (site : Nat)
  | tiles
deriving DecidableEq, Repr

/-- R446: the tile cap that the power limit gives. -/
def powerCap (d : DevInfo) : Nat := min 192 ((d.watts - 1700) * 192 / 1700)

/-- R446, R447: the tile cap T. -/
def tileCap (s : State) : Nat := powerCap s.dev - s.dev.thermCut

/-- What one slot of a resource can hold. -/
def shareLimit (s : State) : Shared → Nat
  | .guest _ => 8
  | .tiles => tileCap s
  | _ => 16

/-- R11: the seams crossed from one die to another: the east–west one of the source's row, then the north–south
one. -/
def seamRoute (a b : Nat) : List (Nat × Nat) :=
  let m := a / 2 * 2 + b % 2
  (if a % 2 = b % 2 then [] else [(a, m)]) ++ (if a / 2 = b / 2 then [] else [(m, b)])

/-- The number of bits set among the first n. -/
def bitCount (n x : Nat) : Nat := ((List.range n).filter fun i => x.testBit i).length

/-- R273: what an entry holds of the shared resources. -/
def AlmEnt.shares (e : AlmEnt) : List (Shared × Nat) :=
  let dies := (List.range 4).filter fun d => e.dies.testBit d || d == dieOf e.fc
  let home := dieOf e.fc
  (if e.l2sh = 0 then [] else dies.map fun d => (Shared.l2 d, e.l2sh)) ++
  (if e.seamsh = 0 then [] else
    ((dies.flatMap fun d => seamRoute home d ++ seamRoute d home).eraseDups).map fun x => (Shared.seam x.1 x.2, e.seamsh)) ++
  (if e.lsh = 0 ∨ e.lkind = 0 then [] else [(Shared.link e.lkind (if e.lkind = 2 then 0 else e.lport), e.lsh)]) ++
  (if e.gslot = 0 then [] else [(Shared.guest e.gsite, e.gslot)]) ++
  (if e.tiles = 0 then [] else [(Shared.tiles, bitCount 4 e.tiles)])

/-- Two ranges of rows or column groups share one. -/
def meets (a n b m : Nat) : Bool := decide (a < b + m ∧ b < a + n)

/-- R269: two entries need one cell, tile, port or context. -/
def AlmEnt.clash (e f : AlmEnt) : Bool :=
  e.fc == f.fc && (e.ctxn == f.ctxn || decide (e.tiles &&& f.tiles ≠ 0) || decide (e.ports &&& f.ports ≠ 0) ||
    (e.rgn && f.rgn && meets e.row0 (e.hgt + 1) f.row0 (f.hgt + 1) && meets e.cgo (e.wid + 1) f.cgo (f.wid + 1)))

/-- What a list of entries holds of a resource. -/
def heldOf (l : List AlmEnt) (r : Shared) : Nat :=
  (l.map fun e => ((e.shares.filter fun x => decide (x.1 = r)).map (·.2)).sum).sum

/-- R281: the reservation, its closing slot included, covers a slot. -/
def AlmEnt.covers (e : AlmEnt) (slot : Nat) : Bool := decide (e.start ≤ slot ∧ slot ≤ e.last + 1)

/-- R278, R446: the shares that a claim counts for; guest slots and the tiles booked in a slot are counted as held alone. -/
def Shared.claimed : Shared → Bool
  | .guest _ => false
  | .tiles => false
  | _ => true

/-- R278: an entry's units are free in one slot, other entries and a claim that stands against it considered. -/
def fitsAt (s : State) (others : List AlmEnt) (claim : Option AlmEnt) (e : AlmEnt) (slot : Nat) : Bool :=
  let held := others.filter fun o => o.covers slot
  let both := held ++ (match claim with | some c => if c.start ≤ slot then [c] else [] | none => [])
  both.all (fun o => !e.clash o) &&
  e.shares.all fun x => decide (heldOf (if x.1.claimed then both else held) x.1 + x.2 ≤ shareLimit s x.1)

/-- R278: Fits over the slots a to z. -/
def fits (s : State) (others : List AlmEnt) (claim : Option AlmEnt) (e : AlmEnt) (a z : Nat) : Bool :=
  (List.range (z + 1 - a)).all fun i => fitsAt s others claim e (a + i)

/-! ## Requests (R276, R277) -/

/-- R276: the order of requests and entries: EPRIO, cycle, die, index. -/
def orderKey (s : State) (h : W64) (made : Nat) : List Nat :=
  [7 - (match s.task? h with | some t => t.eprio | none => 0), made, handleDie h, handleIdx h]

/-- Lexicographic order. -/
def keyLt : List Nat → List Nat → Bool
  | x :: xs, y :: ys => decide (x < y) || (decide (x = y) && keyLt xs ys)
  | _, _ => false

def reqBefore (s : State) (p q : Req) : Bool := keyLt (orderKey s p.handle p.made) (orderKey s q.handle q.made)

/-- R273: the entry a request would get at a candidate, a context and a start slot. -/
def entryFor (q : Req) (c : Nat × Nat × Nat) (ctxn start : Nat) : AlmEnt :=
  let d := q.desc
  let un := match q.hdr with | some h => (reach h c.2.1 c.2.2).getD (0, 0) | none => (0, 0)
  let link := match q.hdr with | some h => h.link | none => 0
  { st := if q.book then 3 else 1
    floor := q.floor
    made := q.made
    dies := d.dies ||| 2 ^ dieOf c.1
    gslot := d.gslot
    gsite := d.gsite
    rgn := q.hdr.isSome
    handle := q.handle
    start := start
    last := start + q.win - 1
    fc := c.1
    row0 := c.2.1
    cgo := c.2.2
    hgt := match q.hdr with | some h => h.height - 1 | none => 0
    wid := match q.hdr with | some h => h.width - 1 | none => 0
    ctxn := ctxn
    tiles := un.2
    ports := un.1
    l2sh := max d.l2sh (match q.hdr with | some h => h.l2sh | none => 0)
    seamsh := d.seamsh
    lsh := max link d.lsh
    lkind := if d.lkind = 0 ∧ 0 < link then 1 else d.lkind
    lport := if d.lkind = 0 then 0 else d.lport
    xlim := d.xlim }

/-- The claim a request must keep clear of: another request's, unless the request is earlier in the order (R279). -/
def claimAgainst (s : State) (q : Req) : Option AlmEnt :=
  match s.claim with
  | some c =>
    if c.handle = q.handle ∧ c.book = q.book then none
    else match s.reqs.find? fun r => decide (r.handle = c.handle) with
      | some r => if reqBefore s q r then none else some c.ent
      | none => none
  | none => none

/-- R275: the Almanacs that hold something of an entry: dies 0 to 3, and 4 for the link Almanac. -/
def AlmEnt.almanacs (e : AlmEnt) : List Nat :=
  (List.range 5).filter fun a => a == dieOf e.fc || e.shares.any fun x =>
    match x.1 with
    | .l2 d => d == a
    | .seam p q => min p q == a
    | .link _ _ => a == 4
    | .guest _ => a == 4
    | .tiles => false

/-- R270: every Almanac the entry needs has a free entry. -/
def hasRoom (s : State) (e : AlmEnt) : Bool :=
  e.almanacs.all fun a => decide ((s.alm.filter fun x => x.almanacs.contains a).length < 65536)

/-- The first context of a candidate through whose whole reservation everything fits. -/
def fitCtx (s : State) (q : Req) (claim : Option AlmEnt) (t : Nat) (c : Nat × Nat × Nat) : Option AlmEnt :=
  (([0, 1, 2].map fun k => entryFor q c k t).find? fun e => fits s s.alm claim e t (t + q.win))

/-- R278: the earliest slot from t on, within a number of slots, at which some candidate fits. -/
def searchFrom (s : State) (q : Req) (claim : Option AlmEnt) (cands : List (Nat × Nat × Nat)) (t : Nat) :
    Nat → Option AlmEnt
  | 0 => none
  | n + 1 =>
    match cands.findSome? (fitCtx s q claim t) with
    | some e => some e
    | none => searchFrom s q claim cands (t + 1) n

/-- R411: a task with an image or tiles that holds no save area finds room for one in its die's overflow area beside
those of other tasks: four have room, as R340 has four regions placed, and beyond them the device decides (DESIGN CHOICE, log
entry 73). -/
def saveAreaRoom (s : State) (q : Req) : Bool :=
  let die := handleDie q.handle
  let n := (s.tasks.filter fun t => t.2.handle != q.handle && handleDie t.2.handle == die && t.2.area.isSome).length
  decide (n < 4) || ((s.task? q.handle).any fun t => t.area.isSome) || Config.saveRoom die n

/-- R278: the entry a request gets in the present slot, if any. -/
def placeReq (s : State) (q : Req) : Option AlmEnt :=
  let lo := max (s.slot + 1) q.floor
  match searchFrom s q (claimAgainst s q) (candidates s (handleDie q.handle) q.desc q.hdr) lo
      (s.slot + 16386 - (q.win + 1) - lo) with
  | some e => if hasRoom s e && (!(e.rgn || e.tiles != 0) || saveAreaRoom s q) then some e else none
  | none => none

/-! ## Claims (R279) -/

/-- The lowest slot from which everything up to `hi` passes a test, going down n slots. -/
def lowestFrom (f : Nat → Bool) (hi : Nat) : Nat → Nat
  | 0 => hi + 1
  | n + 1 => if f hi then lowestFrom f (hi - 1) n else hi + 1

/-- R279: the claim of a request at its first candidate: on the context that gives the earliest slot. -/
def claimFor (s : State) (q : Req) : Option Claim :=
  match candidates s (handleDie q.handle) q.desc q.hdr with
  | [] => none
  | c :: _ =>
    let at_ (k : Nat) : AlmEnt :=
      let e := entryFor q c k 0
      { e with start := lowestFrom (fitsAt s s.alm none e) (s.slot + 16384) 16384 }
    let e01 := if (at_ 1).start < (at_ 0).start then at_ 1 else at_ 0
    some ⟨q.handle, q.book, if (at_ 2).start < e01.start then at_ 2 else e01⟩

/-- R279: the claim's slot moves with the calendar; a claim whose holder no longer waits is given up. -/
def State.refreshClaim (s : State) : State :=
  match s.claim with
  | none => s
  | some c =>
    match s.reqs.find? fun q => decide (q.handle = c.handle) with
    | none => { s with claim := none }
    | some q => { s with claim := claimFor s q }

/-- R279: an unplaced request takes the claim unless an earlier one, or itself, holds it. -/
def State.takeClaim (s : State) (q : Req) : State :=
  match s.claim with
  | none => { s with claim := claimFor s q }
  | some c =>
    match s.reqs.find? fun r => decide (r.handle = c.handle) with
    | some r => if reqBefore s q r then { s with claim := claimFor s q } else s
    | none => { s with claim := claimFor s q }

/-! ## Passes (R278, R283) -/

/-- The order of an entered grant: START, then that of its request. -/
def entKey (s : State) (e : AlmEnt) : List Nat := e.start :: orderKey s e.handle e.made

/-- The earliest slot from t on, among n, at which an entry's own units fit. -/
def earlier (s : State) (others : List AlmEnt) (claim : Option AlmEnt) (e : AlmEnt) (t : Nat) : Nat → Option Nat
  | 0 => none
  | n + 1 =>
    if fits s others claim e t (t + (e.last + 1 - e.start)) then some t else earlier s others claim e (t + 1) n

/-- R283: move one entered grant to the earliest slot at which it fits. -/
def State.compactOne (s : State) (e : AlmEnt) : State :=
  let others := s.alm.erase e
  let lo := max (s.slot + 1) e.floor
  match earlier s others (s.claim.map (·.ent)) e lo (e.start - lo) with
  | some t => { s with alm := s.alm.replace e { e with start := t, last := t + (e.last - e.start) } }
  | none => s

/-- R283: compaction, in ascending START. -/
def State.compact (s : State) : State :=
  (sortBy (fun a b => keyLt (entKey s a) (entKey s b)) (s.alm.filter fun e => e.st == 1)).foldl State.compactOne s

/-- R411: a task whose grant holds cells or tiles holds a save area, until the task ends or is suspended. -/
def State.holdArea (s : State) (e : AlmEnt) : State :=
  if e.rgn || e.tiles != 0 then s.modTask e.handle fun t => { t with area := some (t.area.getD emptyHeader) } else s

/-- R278: Enter. -/
def State.enter (s : State) (q : Req) (e : AlmEnt) : State :=
  ({ s with alm := s.alm ++ [e], reqs := s.reqs.filter fun r => !decide (r.handle = q.handle ∧ r.book = q.book) }).holdArea e

/-- R278, R279: one request in its turn. -/
def State.passOne (s : State) (q : Req) : State :=
  match placeReq s q with
  | some e => (s.enter q e).refreshClaim
  | none => s.takeClaim q

/-- R278: Pass. -/
def State.pass (s : State) : State :=
  let s1 := s.refreshClaim.compact.refreshClaim
  (sortBy (reqBefore s1) s1.reqs).foldl State.passOne s1

/-- R278: PLACEMENT_PASS. -/
def execPlacementPass (s : State) : Result := .next s.pass

/-! ## Windows (R280 to R282, R286) -/

/-- The entry of a task's started window. -/
def startedEnt (s : State) (h : W64) : Option AlmEnt := s.alm.find? fun e => decide (e.handle = h ∧ e.st = 2)

/-- R286: the entry of a task's held reservation. -/
def heldEnt (s : State) (h : W64) : Option AlmEnt := s.alm.find? fun e => decide (e.handle = h ∧ e.st = 3)

/-- R296: an early-edge request of a task's region; it is served by the MARK sites. -/
def State.askEdge (s : State) (h : W64) : State :=
  (s.modRun h fun r => { r with region := { r.region with early := true, edgeDue := true } }).push .earlyEdge

/-- R282, R368, R409: a task is to be preempted: at its region's next edge, or at once where no stage runs. -/
def State.askPreempt (s : State) (h : W64) : State :=
  let s1 := s.modRun h fun r => { r with preempt := true }
  match s1.run? h with
  | some r => if r.region.running then s1.askEdge h else s1.push (.preemption h)
  | none => s1

/-- R281: the allowance of a window. -/
def allowanceOf (s : State) (h : W64) : Nat := SMap.get 0 s.allow (handleKey h)

/-- R281: the step at the end of a window's last slot. -/
def State.endSlot (s : State) (e : AlmEnt) : State :=
  let a := allowanceOf s e.handle
  let x := min 64 a
  if 0 < x ∧ fits s (s.alm.erase e) (s.claim.map (·.ent)) e (e.last + 2) (e.last + x + 1) then
    { s with alm := s.alm.replace e { e with last := e.last + x }
             allow := SMap.put 0 s.allow (handleKey e.handle) (a - x) }
  else ({ s with overrun := s.overrun ++ [e.handle] }).askPreempt e.handle

/-- R281, R282: WINDOW_END. A window whose last slot has ended is extended or overruns; one whose closing slot has
ended, every one whose context has not begun to end, is preempted at its last committed edge. -/
def execWindowEnd (s : State) : Result :=
  match s.alm.find? fun e => decide (e.st = 2 ∧ e.last < s.slot) && !s.overrun.contains e.handle with
  | some e => .next (s.endSlot e)
  | none =>
    let late := s.alm.filter fun e =>
      decide (e.st = 2 ∧ e.last + 1 < s.slot) && (s.run? e.handle).any fun r => r.ending.isNone
    .next (s.pushAll (late.map fun e => .preemption e.handle))

/-- R286, R283: RESERVATION_LAPSE: a held reservation whose START has arrived frees its slots. -/
def execReservationLapse (s : State) : Result :=
  match s.alm.find? fun e => decide (e.st = 3 ∧ e.start ≤ s.slot) with
  | some e => .next ({ s with alm := s.alm.erase e }.urgent .placementPass)
  | none => .next s

/-- R252, R274, R286: a task enters Booking: it takes a held reservation, whose floor is then the slot after this one
(R276), or makes a request. The reservation keeps its BOOK's cycle as its place in the order (DESIGN CHOICE, log entry
117). -/
def State.request (s : State) (h : W64) (d : ResDesc) (win : Nat) (hdr : Option ImageHdr) : State :=
  let s1 := s.modTask h fun t => { t with st := .booking, bookAt := s.cyc }
  match heldEnt s1 h with
  | some e =>
    if s1.slot < e.start then 
      (({ s1 with alm := s1.alm.replace e { e with st := 1, floor := s1.slot + 1 } }).holdArea e).push .placementPass
    else ({ s1 with reqs := s1.reqs ++ [Req.mk h false (s1.slot + 1) s1.cyc d win hdr] }).push .placementPass
  | none => ({ s1 with reqs := s1.reqs ++ [Req.mk h false (s1.slot + 1) s1.cyc d win hdr] }).push .placementPass

/-! ## The instructions -/

/-- The words at an address of the CC's lease. -/
def ccWords (s : State) (e : Extent) (ea : W64) (n : Nat) : Except Nat (List W64) × State :=
  match readRange s e ea.toNat (n + 2) (8 * n) with
  | (.error r, s1) => (.error r, s1)
  | (.ok bs, s1) => (.ok ((List.range n).map fun i => BitVec.ofNat 64 (leNat ((bs.drop (8 * i)).take 8))), s1)

/-- R418, R419: the n words at an address; an uncorrectable error met on both attempts, or an import that refuses, ends the
task. -/
def withTable (ea : W64) (e : Extent) (n : Nat) (s : State) (k : List W64 → State → Result) : Result :=
  match badIn s e ea.toNat (8 * n) with
  | some pa => .next (s.memFault s.cc.task pa s.cc.pc 0 (8 * n) 4)
  | none =>
    match ccWords s e ea n with
    | (.error r, s1) => .next (s1.importFault s.cc.task ea (8 * n) 4 r s.cc.pc 0)
    | (.ok ws, s1) => k ws s1

/-- The declared cycles of the running task's image (R51). -/
def ownCycles (s : State) : List Nat :=
  match s.cc.region.hdr with
  | some h => (stageCycles s s.cc.ctx h).getD []
  | none => []

/-- R286: BOOK. -/
def execBook (d a b : Reg) (ta tb : Bool) (s : State) : Result :=
  withSrcs [(a, ta), (b, tb)] s fun s =>
    let ea := s.reg a
    withAccess ea 64 .r s fun e s => if ccBusy s then .next s.stall else withTable ea e 8 s fun ws s1 =>
      let desc := readDesc ws
      let h := s1.cc.task
      let win := winOf desc (ownCycles s1)
      if !descOk s1 (handleDie h) desc s1.cc.region.hdr win || (heldEnt s1 h).isSome then
        .next (s1.trap 0x07 0 0 ea false)
      else withDest d s1 fun s =>
        let q : Req := ⟨h, true, max (s.reg b).toNat (s.slot + 1), s.cyc, desc, win, s.cc.region.hdr⟩
        match placeReq s q with
        | some x =>
          finishLate d (some (BitVec.ofNat 64 x.start)) (s.enter q x).refreshClaim fun id t =>
            t.push (.lateDelivery ⟨t.cc.task, id⟩)
        | none =>
          finishLate d (some (BitVec.allOnes 64)) s fun id t => t.push (.lateDelivery ⟨t.cc.task, id⟩)

/-- R287: the step of EXTEND: the new calendar and LAST. R281: a window whose last slot has ended is the Almanac's to settle. -/
def extendBy (s : State) (x : Nat) : Nat × State :=
  match startedEnt s s.cc.task with
  | none => (0, s)
  | some e =>
    if 0 < x ∧ s.slot ≤ e.last ∧ !s.overrun.contains e.handle ∧ e.last + x + 1 ≤ s.slot + 16384 then
      if fits s (s.alm.erase e) (s.claim.map (·.ent)) e (e.last + 2) (e.last + x + 1) then
        (e.last + x, { s with alm := s.alm.replace e { e with last := e.last + x } })
      else (e.last, s)
    else (e.last, s)

/-- R287: EXTEND. -/
def execExtend (d a : Reg) (ta : Bool) (s : State) : Result :=
  withSrcs [(a, ta)] s fun s => withDest d s fun s =>
    let r := extendBy s (s.reg a).toNat
    finishLate d (some (BitVec.ofNat 64 r.1)) r.2 fun id t => t.push (.lateDelivery ⟨t.cc.task, id⟩)

/-- R288: the queues of the region and the tiles. -/
def QueueId.booked : QueueId → Bool
  | .port _ => true
  | .region => true
  | .tileArray _ => true
  | .tileBank _ => true
  | .tileFetch _ => true
  | _ => false

/-- R288: an entry after RELEASE of the current window: only the CC context is held. -/
def AlmEnt.bare (e : AlmEnt) : AlmEnt :=
  { e with rgn := false, tiles := 0, ports := 0, l2sh := 0, seamsh := 0, lsh := 0, gslot := 0 }

/-- R288: give back what s[a] names. -/
def State.releaseUnits (s : State) (x : W64) : State :=
  let h := s.cc.task
  let s1 := if x = 0#64 ∨ x = BitVec.allOnes 64 then
      match startedEnt s h with
      | some e => ({ s with alm := s.alm.replace e e.bare }.modCc fun r => { r with relCur := true }).urgent .placementPass
      | none => s.modCc fun r => { r with relCur := true }
    else s
  match heldEnt s1 h with
  | some e =>
    if x = 0#64 ∨ x = BitVec.ofNat 64 e.start then { s1 with alm := s1.alm.erase e }.urgent .placementPass else s1
  | none => s1

/-- R288: RELEASE. -/
def execRelease (a : Reg) (ta : Bool) (s : State) : Result :=
  withSrcs [(a, ta)] s fun s =>
    let x := s.reg a
    if (x = 0#64 ∨ x = BitVec.allOnes 64) ∧ s.cc.cmds.any (fun c => c.queue.booked) then .next s.stall
    else .next (s.releaseUnits x).retire

end Sys2Proof.Machine
end

