-- ==== Sys2Proof/Machine/Flags.lean ====
section
/-! DEFINITION. Comparisons and conditions. The machine has no flags: a comparison's answer is a register value
(R90, R114) or decides a branch (R256). The condition codes of site operations are here too (R105, R114, R306). -/

namespace Sys2Proof.Machine

/-- 1 or 0 as a register value. -/
def flagWord (b : Bool) : W64 := if b then 1#64 else 0#64

/-- Signed and natural comparisons of 64-bit words (R90, R256). -/
def ltS (x y : W64) : Bool := decide (x.toInt < y.toInt)
def ltU (x y : W64) : Bool := decide (x.toNat < y.toNat)

/-- R114, R306: the integer conditions 0 eq, 1 ne, 2 lt, 3 le, 4 gt, 5 ge on ordered values. -/
def intCond (c : Nat) (x y : Int) : Bool :=
  match c with
  | 0 => decide (x = y)
  | 1 => decide (x ≠ y)
  | 2 => decide (x < y)
  | 3 => decide (x ≤ y)
  | 4 => decide (y < x)
  | _ => decide (y ≤ x)

/-- R105: the float conditions, given whether some operand is a NaN and, if not, how the values compare. -/
def floatCond (c : Nat) (unordered : Bool) (o : Ordering) : Bool :=
  match c with
  | 0 => !unordered && o == .eq
  | 1 => unordered || o != .eq
  | 2 => !unordered && o == .lt
  | 3 => !unordered && o != .gt
  | 4 => !unordered && o == .gt
  | 5 => !unordered && o != .lt
  | 6 => unordered
  | _ => !unordered

end Sys2Proof.Machine
end

