-- ==== Sys2Proof/Machine/Numeric.lean ====
section
/-! DEFINITION. Number formats, exact values and the one rounding procedure (R60 to R77, R103, R104). A format is
named by its type code (R49). -/

namespace Sys2Proof.Machine

/-! ## Exact values -/

/-- An exact value: NaN, an infinity, or sign, m and e for m × 2^e. With `more` the magnitude lies strictly between
m × 2^e and (m + 1) × 2^e; only the irrational and repeating results of R104 carry it. -/
inductive Num where
  | nan
  | inf (neg : Bool)
  | fin (neg : Bool) (m : Nat) (e : Int) (more : Bool)
deriving DecidableEq, Repr

/-- A dyadic value. -/
def dyad (neg : Bool) (m : Nat) (e : Int) : Num := .fin neg m e false

/-- An exact zero of a sign. -/
def zeroNum (neg : Bool) : Num := dyad neg 0 0

/-- An exact integer. -/
def intNum (x : Int) : Num := dyad (decide (x < 0)) x.natAbs 0

/-- R60: fraction bits, bias and the largest finite magnitude code of a float format. -/
def floatOf (ty : Nat) : Nat × Nat × Nat :=
  match ty with
  | 8 => (23, 127, 0x7F7FFFFF)
  | 9 => (10, 15, 0x7BFF)
  | 10 => (7, 127, 0x7F7F)
  | 11 => (3, 7, 0x7E)
  | 12 => (2, 15, 0x7B)
  | _ => (1, 1, 0x7)

/-- R64: an integer type, a signed one. -/
def isInt (ty : Nat) : Bool := decide (ty < 8)
def isSigned (ty : Nat) : Bool := decide (ty < 4)
/-- R70: the formats that the flush mode touches. -/
def flushes (ty : Nat) : Bool := decide (8 ≤ ty ∧ ty ≤ 10)

/-- R66: the summation table. -/
def l6T (f : Nat) : Nat :=
  match f with
  | 0 => 0x8000
  | 1 => 0x9838
  | 2 => 0xB505
  | _ => 0xD745

/-- R66, R67: the value of a quantised logarithm q (in quarters), without sign. -/
def l6Val (neg : Bool) (q : Int) : Num := dyad neg (l6T (q % 4).toNat) (q / 4 - 15)

/-- R60, R61, R64, R66: the exact value of a code of a type; with `fz` a subnormal of R70's formats reads as zero. -/
def decodeNum (ty : Nat) (fz : Bool) (code : Nat) : Num :=
  if isInt ty then
    let w := fmtBits ty
    let c := code % 2 ^ w
    if isSigned ty ∧ 2 ^ (w - 1) ≤ c then intNum ((c : Int) - 2 ^ w) else intNum c
  else if ty = 14 then
    let c := code % 64
    let q : Int := if c % 32 < 16 then (c % 32 : Nat) else (c % 32 : Nat) - 32
    if q = -16 then zeroNum (decide (32 ≤ c)) else l6Val (decide (32 ≤ c)) q
  else
    let w := fmtBits ty
    let fb := (floatOf ty).1
    let bias := (floatOf ty).2.1
    let c := code % 2 ^ w
    let neg := decide (2 ^ (w - 1) ≤ c)
    let mag := c % 2 ^ (w - 1)
    let ex := mag / 2 ^ fb
    let fr := mag % 2 ^ fb
    let top := 2 ^ (w - 1 - fb) - 1
    if ty = 11 ∧ mag = 0x7F then .nan
    else if ty ≠ 11 ∧ ty ≠ 13 ∧ ex = top then (if fr = 0 then .inf neg else .nan)
    else if ex = 0 then
      if fz ∧ flushes ty then zeroNum neg else dyad neg fr (1 - (bias : Int) - fb)
    else dyad neg (fr + 2 ^ fb) ((ex : Int) - bias - fb)

/-! ## Generators (R74) -/

/-- R74: Next. -/
def genNext (g : W32) : W32 := if g.getLsbD 0 then (g >>> 1) ^^^ 0x80200003#32 else g >>> 1

/-- R74: Seed. -/
def genSeed (seed : W64) (id : Nat) : W32 :=
  let x := seed.setWidth 32 ^^^ (seed >>> 32).setWidth 32 ^^^ (BitVec.ofNat 32 (id + 1) * 0x9E3779B9#32)
  if x = 0#32 then 1#32 else x

/-! ## Codes of special results (R62, R71 to R73) -/

/-- The sign bit of a format. -/
def signBit (ty : Nat) (neg : Bool) : Nat := if neg then 2 ^ (fmtBits ty - 1) else 0

/-- Zero(F, s). -/
def zeroCode (ty : Nat) (neg : Bool) : Nat := if isInt ty then 0 else signBit ty neg + (if ty = 14 then 0x10 else 0)

/-- R62: the NaN written; 0 for an integer, +0 for E2M1 and log6. -/
def nanCode (ty : Nat) : Nat :=
  match ty with
  | 8 => 0x7FC00000
  | 9 => 0x7E00
  | 10 => 0x7FC0
  | 11 => 0x7F
  | 12 => 0x7E
  | 14 => 0x10
  | _ => 0

/-- Max(F) with a sign. -/
def maxCode (ty : Nat) (neg : Bool) : Nat := signBit ty neg + (if ty = 14 then 15 else (floatOf ty).2.2)

/-- R64: the range of an integer type and a value kept in it. -/
def intLo (ty : Nat) : Int := if isSigned ty then -(2 ^ (fmtBits ty - 1)) else 0
def intHi (ty : Nat) : Int := if isSigned ty then 2 ^ (fmtBits ty - 1) - 1 else 2 ^ fmtBits ty - 1
def clampInt (ty : Nat) (x : Int) : Nat :=
  ((if x < intLo ty then intLo ty else if intHi ty < x then intHi ty else x) % (2 ^ fmtBits ty : Int)).toNat

/-- R72: the code beyond Max: infinity, or NaN for E4M3. -/
def beyond (ty : Nat) (neg : Bool) : Nat := if ty = 11 then nanCode 11 else signBit ty neg + (floatOf ty).2.2 / 2 ^ (floatOf ty).1 * 2 ^ (floatOf ty).1 + 2 ^ (floatOf ty).1

/-- R72, R73: the sat bit counts only for FP8; E2M1 and log6 always saturate. -/
def saturates (ty : Nat) (sat : Bool) : Bool := ty == 13 || ty == 14 || ((ty == 11 || ty == 12) && sat)

/-- R73: InfCode. -/
def infCode (ty : Nat) (neg sat : Bool) : Nat :=
  if isInt ty then clampInt ty (if neg then intLo ty else intHi ty)
  else if saturates ty sat then maxCode ty neg else beyond ty neg

/-- R72: Overflow. -/
def overCode (ty : Nat) (neg : Bool) (mode : Nat) (sat : Bool) : Nat :=
  let big := match mode with
    | 1 => false
    | 2 => !neg
    | 3 => neg
    | _ => true
  if saturates ty sat || !big then maxCode ty neg else beyond ty neg

/-! ## Round (R71) -/

/-- R71: between two neighbours: does the value, d of u parts above the lower one, take the upper one? -/
def goesUp (mode : Nat) (neg even : Bool) (d u : Nat) (more : Bool) (rnd : Nat) : Bool :=
  match mode with
  | 0 => decide (u < 2 * d) || (decide (2 * d = u) && (more || !even))
  | 1 => false
  | 2 => !neg
  | 3 => neg
  | _ => if more then decide (rnd * u ≤ d * 2 ^ 32) else decide (rnd * u < d * 2 ^ 32)

/-- R71 on a grid of even spacing 2^ulp: the multiple chosen. -/
def roundLin (ulp : Int) (mode : Nat) (neg : Bool) (m : Nat) (e : Int) (more : Bool) (rnd : Nat) : Nat :=
  if ulp ≤ e then m * 2 ^ (e - ulp).toNat
  else
    let sh := (ulp - e).toNat
    let q := m / 2 ^ sh
    let d := m % 2 ^ sh
    if d = 0 ∧ !more then q
    else if goesUp mode neg (decide (q % 2 = 0)) d (2 ^ sh) more rnd then q + 1 else q

/-- The exponent of the leading bit of m × 2^e, m nonzero. -/
def leadExp (m : Nat) (e : Int) : Int := e + Nat.log2 m

/-- A comparison of two dyadic magnitudes. -/
def magLe (m : Nat) (e : Int) (m' : Nat) (e' : Int) : Bool :=
  let b := min e e'
  decide (m * 2 ^ (e - b).toNat ≤ m' * 2 ^ (e' - b).toNat)

/-- R71: the largest q of the log6 grid, from a start down, whose value is at most m × 2^e; `none` is the grid's 0. -/
def l6Below (m : Nat) (e : Int) (q : Int) : Nat → Option Int
  | 0 => none
  | n + 1 =>
    if q < -15 then none
    else if magLe (l6T (q % 4).toNat) (q / 4 - 15) m e then some q else l6Below m e (q - 1) n

/-- R71 for log6: the code of a nonzero magnitude. -/
def roundL6 (mode : Nat) (neg : Bool) (m : Nat) (e : Int) (rnd : Nat) : Nat :=
  let top := 4 * (leadExp m e + 15 - 15) + 3
  let lo := l6Below m e top 5
  let loV : Nat × Int := match lo with | some q => (l6T (q % 4).toNat, q / 4 - 15) | none => (0, 0)
  let hiQ : Int := match lo with | some q => q + 1 | none => -15
  let hiV : Nat × Int := (l6T (hiQ % 4).toNat, hiQ / 4 - 15)
  let b := min e (min loV.2 hiV.2)
  let at_ (x : Nat × Int) : Nat := x.1 * 2 ^ (x.2 - b).toNat
  let d := at_ (m, e) - at_ loV
  let even := match lo with | some q => decide (q % 2 = 0) | none => true
  let r := if d = 0 then lo
    else if goesUp mode neg even d (at_ hiV - at_ loV) false rnd then some hiQ else lo
  match r with
  | none => zeroCode 14 neg
  | some q => if 15 < q then maxCode 14 neg else signBit 14 neg + (q % 32).toNat

/-- R71: Round of a nonzero finite magnitude to a float format. -/
def roundFloat (ty mode : Nat) (sat fz neg : Bool) (m : Nat) (e : Int) (more : Bool) (rnd : Nat) : Nat :=
  let fb := (floatOf ty).1
  let bias := (floatOf ty).2.1
  let k := leadExp m e
  if fz ∧ flushes ty ∧ k < 1 - (bias : Int) then signBit ty neg
  else
    let ulp := max (k - fb) (1 - (bias : Int) - fb)
    let mag := (ulp + fb + bias - 1).toNat * 2 ^ fb + roundLin ulp mode neg m e more rnd
    if (floatOf ty).2.2 < mag then overCode ty neg mode sat
    else if fz ∧ flushes ty ∧ mag < 2 ^ fb then signBit ty neg
    else signBit ty neg + mag

/-- R71 to R73, R77: Round(v, F, mode, sat) with the drawn number. -/
def roundTo (ty mode : Nat) (sat fz : Bool) (rnd : Nat) (v : Num) : Nat :=
  match v with
  | .nan => nanCode ty
  | .inf neg => infCode ty neg sat
  | .fin neg m e more =>
    if isInt ty then
      let q : Int := roundLin 0 mode neg m e more rnd
      clampInt ty (if neg then -q else q)
    else if m = 0 ∧ !more then zeroCode ty neg
    else if ty = 14 then roundL6 mode neg m e rnd
    else roundFloat ty mode sat fz neg m e more rnd

/-- R71, R75: Round with a generator: under mode 4 it draws once, whatever the value. -/
def roundG (ty mode : Nat) (sat fz : Bool) (g : W32) (v : Num) : Nat × W32 :=
  if mode = 4 then (roundTo ty mode sat fz (genNext g).toNat v, genNext g) else (roundTo ty mode sat fz 0 v, g)

/-- R71: Round under a mode that does not draw. -/
def roundN (ty mode : Nat) (sat fz : Bool) (v : Num) : Nat := roundTo ty mode sat fz 0 v

/-! ## Exact arithmetic (R103) -/

def negNum : Num → Num
  | .nan => .nan
  | .inf n => .inf (!n)
  | .fin n m e x => .fin (!n) m e x

/-- A finite value as an integer at an exponent not above its own. -/
def scaled (neg : Bool) (m : Nat) (e b : Int) : Int :=
  let x : Int := m * 2 ^ (e - b).toNat
  if neg then -x else x

/-- R103: an exact sum; an exact zero from unlike signs is −0 only under RDN. -/
def addNum (mode : Nat) (a b : Num) : Num :=
  match a, b with
  | .nan, _ => .nan
  | _, .nan => .nan
  | .inf s, .inf t => if s = t then .inf s else .nan
  | .inf s, _ => .inf s
  | _, .inf t => .inf t
  | .fin s m e _, .fin t n f _ =>
    let c := min e f
    let x := scaled s m e c + scaled t n f c
    if x = 0 then zeroNum (if m = 0 ∧ n = 0 ∧ s = t then s else mode == 3)
    else dyad (decide (x < 0)) x.natAbs c

/-- R103: an exact product. -/
def mulNum (a b : Num) : Num :=
  match a, b with
  | .nan, _ => .nan
  | _, .nan => .nan
  | .inf s, .inf t => .inf (s != t)
  | .inf s, .fin t n _ _ => if n = 0 then .nan else .inf (s != t)
  | .fin s m _ _, .inf t => if m = 0 then .nan else .inf (s != t)
  | .fin s m e _, .fin t n f _ => dyad (s != t) (m * n) (e + f)

/-- An exact value times a power of two. -/
def shiftNum (v : Num) (x : Int) : Num :=
  match v with
  | .fin s m e r => .fin s m (e + x) r
  | v => v

/-- How two values compare; a NaN compares with nothing. Signed zeros are equal. -/
def cmpNum (a b : Num) : Option Ordering :=
  match a, b with
  | .nan, _ => none
  | _, .nan => none
  | .inf s, .inf t => some (if s = t then .eq else if s then .lt else .gt)
  | .inf s, _ => some (if s then .lt else .gt)
  | _, .inf t => some (if t then .gt else .lt)
  | .fin s m e _, .fin t n f _ =>
    let c := min e f
    some (compare (scaled s m e c) (scaled t n f c))

/-- R62: is this f32 value a NaN. -/
def isNan (v : Num) : Bool := v == .nan

/-- The sign of a value. -/
def numNeg : Num → Bool
  | .nan => false
  | .inf s => s
  | .fin s _ _ _ => s

/-- R103: the smaller (or larger) of two values; −0 is below +0; one NaN gives way. -/
def minMax (wantMax : Bool) (a b : Num) : Num :=
  match cmpNum a b with
  | none => if isNan a then b else a
  | some .lt => if wantMax then b else a
  | some .gt => if wantMax then a else b
  | some .eq => if numNeg a != wantMax then a else b

/-- R70: an f32, f16 or bf16 code read under FZ. -/
def f32Of (fz : Bool) (x : W32) : Num := decodeNum 8 fz x.toNat

/-- R103: the code of an f32 that is not rounded: a NaN is written as 0x7FC0_0000. -/
def f32Code (v : Num) : W32 := BitVec.ofNat 32 (roundN 8 0 false false v)

/-- R62, R70: a value read in a word's type and written as it is: an f32 NaN becomes 0x7FC0_0000, and under FZ a
subnormal zero. -/
def asRead (ty : Nat) (fz : Bool) (w : W32) : W32 := if ty = 8 then f32Code (f32Of fz w) else w

/-! ## log6 products (R67, R111) -/

/-- R66: sign and q of a log6 code; no q for the zero code. -/
def l6Q (code : Nat) : Bool × Option Int :=
  let c := code % 64
  let q : Int := if c % 32 < 16 then (c % 32 : Nat) else (c % 32 : Nat) - 32
  (decide (32 ≤ c), if q = -16 then none else some q)

/-- R67: the exact product of two log6 codes. -/
def l6Prod (x y : Nat) : Num :=
  let neg := (l6Q x).1 != (l6Q y).1
  match (l6Q x).2, (l6Q y).2 with
  | some p, some q => l6Val neg (p + q)
  | _, _ => zeroNum neg

/-! ## Block quantisation (R69) -/

/-- R69: Emax. -/
def emaxOf (ty : Nat) : Int :=
  match ty with
  | 11 => 8
  | 12 => 15
  | 13 => 2
  | _ => 3

/-- R69: the exponent of the leading bit of the largest magnitude. -/
def amaxExp (vs : List Num) : Option Int :=
  vs.foldl (fun b v =>
    match v with
    | .fin _ m e _ => if m = 0 then b else match b with | some x => some (max x (leadExp m e)) | none => some (leadExp m e)
    | _ => b) none

/-- R69: QuantBlock: the scale byte, and each element's code with its generator afterwards. -/
def quantBlock (ty mode : Nat) (sat : Bool) (vs : List (Num × W32)) : Nat × List (Nat × W32) :=
  if vs.any fun v => match v.1 with | .fin _ _ _ _ => false | _ => true then (0xFF, vs.map fun v => (zeroCode ty false, v.2))
  else
    let x : Int := match amaxExp (vs.map (·.1)) with
      | none => -127
      | some a => max (-127) (min 127 (a - emaxOf ty))
    ((x + 127).toNat, vs.map fun v => roundG ty mode sat false v.2 (shiftNum v.1 (-x)))

/-- R68: an element with its block's scale byte. -/
def scaleNum (byte : Nat) (v : Num) : Num := if byte = 0xFF then .nan else shiftNum v ((byte : Int) - 127)

/-! ## Conversions (R77, R107) -/

/-- R77: an integer value into an integer type: exact where the type is wider and keeps the signs, else clamped or cut. -/
def intToInt (src dst : Nat) (sat : Bool) (x : Int) : Nat :=
  let sw := fmtBits src
  let dw := fmtBits dst
  let same := isSigned src == isSigned dst
  let exact := (decide (sw < dw) && (same || !isSigned src)) || (sw == dw && same)
  if sat && !exact then clampInt dst x else (x % (2 ^ dw : Int)).toNat

/-- The integer a finite value rounds to (R71 onto the integers). -/
def roundInt (mode rnd : Nat) (v : Num) : Int :=
  match v with
  | .fin neg m e more =>
    let q : Int := roundLin 0 mode neg m e more rnd
    if neg then -q else q
  | _ => 0

/-- R107: an integer under no scale (exponent 0) is not rounded and draws nothing. -/
def drawsInt : Num → Bool
  | .fin _ _ e _ => e != 0
  | _ => true

/-- R77: Convert of an exact value of a source type. An integer under no scale goes by the integer rows; under a scale
it comes from no type that could hold every result, so with sat = 1 it is clamped (R107). -/
def convertG (src dst mode : Nat) (sat fz : Bool) (g : W32) (v : Num) : Nat × W32 :=
  if isInt src ∧ isInt dst then
    let g' := if mode = 4 ∧ drawsInt v then genNext g else g
    let x := roundInt mode g'.toNat v
    (if sat && drawsInt v then clampInt dst x else intToInt src dst sat x, g')
  else roundG dst mode sat fz g v

/-! ## FRCP, FRSQ, FEXP2, FLOG2 (R104) -/

/-- Bits of result kept before the truncation mark: more than binary32 and a 32-bit draw can tell apart. -/
def fnBits : Nat := 96

/-- 1 / (m × 2^e). -/
def rcpNum (neg : Bool) (m : Nat) (e : Int) : Num :=
  let k := fnBits + Nat.log2 m + 1
  .fin neg (2 ^ k / m) (-e - k) (decide (2 ^ k % m ≠ 0))

/-- 1 / sqrt (m × 2^e). -/
def rsqNum (m : Nat) (e : Int) : Num :=
  let m' := if e % 2 = 0 then m else 2 * m
  let e' := if e % 2 = 0 then e else e - 1
  let k := fnBits + Nat.log2 m'
  let r := Nat.sqrt (2 ^ (2 * k) / m')
  .fin false r (-(e' / 2) - k) (decide (r * r * m' ≠ 2 ^ (2 * k)))

/-- Bounds of 2^(b / 2^q) at a precision of k bits, for 0 < b < 2^q: the factors 2^(1 / 2^j) are found by square
roots, rounded down in the one chain and up in the other. -/
def exp2Bounds (k b : Nat) : Nat → Nat × Nat × Nat × Nat
  | 0 => (2 ^ k, 2 ^ k, 2 * 2 ^ k, 2 * 2 ^ k)
  | j + 1 =>
    let r := exp2Bounds k (b / 2) j
    let cl := Nat.sqrt (r.2.2.1 * 2 ^ k)
    let ch := Nat.sqrt (r.2.2.2 * 2 ^ k) + 1
    if b % 2 = 1 then (r.1 * cl / 2 ^ k, r.2.1 * ch / 2 ^ k + 1, cl, ch) else (r.1, r.2.1, cl, ch)

/-- The leading bits of 2^(b / 2^q), at the first precision at which both bounds agree. -/
def exp2Frac (b q : Nat) : Nat → Nat → Nat
  | 0, k => (exp2Bounds k b q).1 / 2 ^ (k - fnBits)
  | n + 1, k =>
    let r := exp2Bounds k b q
    let lo := r.1 / 2 ^ (k - fnBits)
    if lo = r.2.1 / 2 ^ (k - fnBits) then lo else exp2Frac b q n (2 * k)

/-- 2^a for a finite a; beyond ±1024 every such result rounds as 2^±1024 does. -/
def exp2Num (neg : Bool) (m : Nat) (e : Int) : Num :=
  if m = 0 then dyad false 1 0
  else if 10 ≤ leadExp m e then dyad false 1 (if neg then -1024 else 1024)
  else if 0 ≤ e then
    let n : Int := m * 2 ^ e.toNat
    dyad false 1 (if neg then -n else n)
  else
    let q := (-e).toNat
    let a : Int := if neg then -(m : Int) else m
    let n := a / 2 ^ q
    let b := (a % 2 ^ q).toNat
    if b = 0 then dyad false 1 n else .fin false (exp2Frac b q 6 256) (n - fnBits) true

/-- The next n bits of log2 y by squaring, for bounds of y in [1, 2) at k bits; `none` when the bounds part. -/
def log2Bits (k : Nat) : Nat → Nat → Nat → Nat → Option Nat
  | 0, _, _, acc => some acc
  | n + 1, lo, hi, acc =>
    let lo2 := lo * lo / 2 ^ k
    let hi2 := hi * hi / 2 ^ k + 1
    if 2 * 2 ^ k ≤ lo2 then log2Bits k n (lo2 / 2) (hi2 / 2 + 1) (2 * acc + 1)
    else if hi2 < 2 * 2 ^ k then log2Bits k n lo2 hi2 (2 * acc)
    else none

/-- The first bits of log2 of m / 2^l, 2^l the leading power of m, at the first precision that decides them. -/
def log2Frac (m : Nat) : Nat → Nat → Nat
  | 0, k => (log2Bits k fnBits (m * 2 ^ (k - Nat.log2 m)) (m * 2 ^ (k - Nat.log2 m)) 0).getD 0
  | n + 1, k =>
    match log2Bits k fnBits (m * 2 ^ (k - Nat.log2 m)) (m * 2 ^ (k - Nat.log2 m)) 0 with
    | some f => f
    | none => log2Frac m n (2 * k)

/-- log2 of a positive finite value. -/
def log2Num (m : Nat) (e : Int) : Num :=
  let l := leadExp m e
  if m = 2 ^ Nat.log2 m then intNum l
  else
    let f := log2Frac m 6 512
    let x : Int := l * 2 ^ fnBits + f
    if 0 ≤ l then .fin false x.toNat (-fnBits) true else .fin true ((-x).toNat - 1) (-fnBits) true

/-- R104: F(a) for the four functions: 0 FRCP, 1 FRSQ, 2 FEXP2, 3 FLOG2. -/
def fnNum (k : Nat) (v : Num) : Num :=
  match v with
  | .nan => .nan
  | .inf s =>
    match k with
    | 0 => zeroNum s
    | 1 => if s then .nan else zeroNum false
    | 2 => if s then zeroNum false else .inf false
    | _ => if s then .nan else .inf false
  | .fin s m e _ =>
    if m = 0 then
      match k with
      | 0 => .inf s
      | 1 => .inf s
      | 2 => dyad false 1 0
      | _ => .inf true
    else match k with
      | 0 => rcpNum s m e
      | 1 => if s then .nan else rsqNum m e
      | 2 => exp2Num s m e
      | _ => if s then .nan else log2Num m e

/-! ## Packing (R65) -/

/-- R65: element j of a record field of a type. -/
def elemOf (ty j : Nat) (x : W32) : Nat := x.toNat / 2 ^ (fmtBits ty * j) % 2 ^ fmtBits ty

/-- R65: a record field with element j replaced. In a field of log6 elements bits [31:24] are written 0. -/
def setElem (ty j : Nat) (x0 : W32) (code : Nat) : W32 :=
  let x := if ty = 14 then x0 &&& 0xFFFFFF#32 else x0
  let lo := fmtBits ty * j
  let m := 2 ^ fmtBits ty
  BitVec.ofNat 32 (x.toNat / 2 ^ (lo + fmtBits ty) * 2 ^ (lo + fmtBits ty) + code % m * 2 ^ lo + x.toNat % 2 ^ lo)

/-- R65: codes packed into one field from element 0 up. -/
def packCodes (ty : Nat) (cs : List Nat) : Nat :=
  match cs with
  | [] => 0
  | c :: cs => c % 2 ^ fmtBits ty + 2 ^ fmtBits ty * packCodes ty cs

end Sys2Proof.Machine
end

