-- ==== Sys2Proof/Machine/Tensor.lean ====
section
/-! DEFINITION. Tensor identifier entries (R78 to R80), accesses through a lease by engines (R363, R364, R418), and
tensor elements in memory (R65, R78). -/

namespace Sys2Proof.Machine

/-! ## The entry (R78) -/

def tidV (t : Tid) : Bool := bit (word8 t 0) 63
def tidSparse (t : Tid) : Nat := bits (word8 t 0) 62 61
def tidFmt (t : Tid) : Nat := bits (word8 t 0) 60 57
def tidRank (t : Tid) : Nat := bits (word8 t 0) 56 55 + 1
def tidExt (t : Tid) : Nat := bits (word8 t 0) 54 51
def tidSfmt (t : Tid) : Nat := bits (word8 t 0) 50 48
def tidSloc (t : Tid) : Nat := bits (word8 t 0) 47 44
def tidOffset (t : Tid) : Nat := bits (word8 t 0) 43 0
def tidDim (t : Tid) (k : Nat) : Nat :=
  match k with
  | 0 => bits (word8 t 1) 31 0
  | 1 => bits (word8 t 1) 63 32
  | 2 => bits (word8 t 2) 31 0
  | _ => bits (word8 t 2) 63 32
/-- Stride of dimension k, 1 to 3. -/
def tidStride (t : Tid) (k : Nat) : Nat := bits (word8 t (k + 2)) 47 0
def tidTile (t : Tid) (k : Nat) : Nat := if k = 0 then bits (word8 t 6) 55 48 else bits (word8 t 6) 63 56
def tidSbase (t : Tid) : Nat := bits (word8 t 6) 43 0
def tidMext (t : Tid) : Nat := bits (word8 t 7) 47 44
def tidMbase (t : Tid) : Nat := bits (word8 t 7) 43 0

/-- R78: the entry that nothing has written. -/
def Tid.zero : Tid := Vector.replicate 8 0#64

/-- The entry of a context. -/
def Run.tid (r : Run) (k : Nat) : Tid := SMap.get Tid.zero r.tids k

/-- R78: valid and dense. -/
def tidDense (t : Tid) : Bool := tidV t && tidSparse t == 0

/-- R65, R79: bytes of an element's container, and elements in it. -/
def contBytes (ty : Nat) : Nat :=
  match ty with
  | 14 => 3
  | 13 => 1
  | _ => fmtBits ty / 8
def contElems (ty : Nat) : Nat :=
  match ty with
  | 14 => 4
  | 13 => 2
  | _ => 1

/-- R79: the limits on an entry. -/
def tidOk (t : Tid) : Bool :=
  let f := tidFmt t
  let c := contBytes f
  let dims := [0, 1, 2, 3]
  let mult := if f = 13 then 2 else if f = 14 then 4 else 1
  tidV t && tidSparse t != 3 && f != 15 && decide (tidSfmt t ≤ 1) &&
  (dims.all fun k => decide (1 ≤ tidDim t k)) && (dims.all fun k => decide (k < tidRank t) || tidDim t k == 1) &&
  ([1, 2, 3].all fun k => decide (k < tidRank t) || tidStride t k == 0) &&
  decide (tidDim t 0 % mult = 0) && decide ((tidTile t 0 + 1) % mult = 0) && decide (tidOffset t % c = 0) &&
  ([1, 2, 3].all fun k => decide (tidRank t ≤ k) || decide (tidStride t k % c = 0)) &&
  (if f = 13 ∨ f = 14 then tidSfmt t == 1 else if f = 11 ∨ f = 12 then true else tidSfmt t == 0) &&
  (tidSparse t != 1 || (tidRank t == 2 && tidTile t 0 == 15 && tidTile t 1 == 15)) &&
  ([3, 4, 5, 7].all fun k => decide (bits (word8 t k) 63 48 = 0)) && decide (bits (word8 t 6) 47 44 = 0)

/-! ## Accesses through a lease (R363, R364) -/

/-- Why an access fails: the lease or an import (address, size, right needed as R396 codes it, reason), an uncorrectable
error met twice (physical address, size and right). -/
inductive AccErr where
  | lease (va n right reason : Nat)
  | import (va n right reason : Nat)
  | memory (pa n right : Nat)
deriving DecidableEq, Repr

/-- R419: the failure is an uncorrectable memory error. -/
def AccErr.isMemory : AccErr → Bool
  | .memory _ _ _ => true
  | _ => false

/-- Read n bytes through a lease. -/
def readVa (s : State) (lease : List Extent) (va n : Nat) : Except AccErr (List Byte) × State :=
  match covered lease va n .r with
  | .error r => (.error (.lease va n 4 r), s)
  | .ok e =>
    match badIn s e va n with
    | some pa => (.error (.memory pa n 4), s)
    | none =>
      match readRange s e va (n + 1) n with
      | (.error r, s1) => (.error (.import va n 4 r), s1)
      | (.ok bs, s1) => (.ok bs, s1)

/-- R421: the sectors that a range overwrites whole hold no error any more (DEDUCED, log entry 15). -/
def healRange (s : State) (e : Extent) (va n : Nat) : State :=
  if e.peer.isSome then s
  else { s with err := { s.err with bad := e.runs.foldl (fun bad r =>
    let lo := max va r.vstart
    let hi := min (va + n) (r.vstart + r.len)
    if lo < hi then healed bad (r.pstart + (lo - r.vstart)) (hi - lo) else bad) s.err.bad } }

/-- Write bytes through a lease. -/
def writeVa (s : State) (lease : List Extent) (va : Nat) (bs : List Byte) : Except AccErr Unit × State :=
  match covered lease va bs.length .w with
  | .error r => (.error (.lease va bs.length 2 r), s)
  | .ok e =>
    match writeRange s e va (bs.length + 1) bs with
    | (.error r, s1) => (.error (.import va bs.length 2 r), s1)
    | (.ok _, s1) => (.ok (), healRange s1 e va bs.length)

/-- R363: the address of an offset in a logical extent; a number at or above EXTN is a lease fault, reason 1. -/
def extAddr (lease : List Extent) (extn k off n : Nat) (right : Right) : Except AccErr Nat :=
  match extentOf lease extn k with
  | some e => .ok (e.base + off)
  | none => .error (.lease off n right.code 1)

/-- Read n bytes at an offset of a logical extent. -/
def readExt (s : State) (lease : List Extent) (extn k off n : Nat) : Except AccErr (List Byte) × State :=
  match extAddr lease extn k off n .r with
  | .error e => (.error e, s)
  | .ok va => readVa s lease va n

/-- Write bytes at an offset of a logical extent. -/
def writeExt (s : State) (lease : List Extent) (extn k off : Nat) (bs : List Byte) : Except AccErr Unit × State :=
  match extAddr lease extn k off bs.length .w with
  | .error e => (.error e, s)
  | .ok va => writeVa s lease va bs

/-- R365, R374, R419: an engine's access that fails ends the task. -/
def State.accFault (s : State) (h : W64) (pc : W64) (agent unit_ row col lane : Nat) (e : AccErr) : State :=
  match s.run? h with
  | none => s
  | some r =>
    let info (tval : Nat) : FaultInfo :=
      { ccInfo pc (BitVec.ofNat 64 tval) with agent := agent, unit_ := unit_, row := row, col := col, lane := lane }
    match e with
    | .lease va n right reason =>
      let cause := causeWord 0x21 reason 0
      s.faultEnd h cause (mkRec s.cyc r cause { info va with size := min n 128, right := right })
    | .import va n right reason =>
      let cause := causeWord 0x22 reason 0
      s.faultEnd h cause (mkRec s.cyc r cause { info va with size := min n 128, right := right })
    | .memory pa n right =>
      let cause := causeWord 0x25 0 0
      ((s.memErr pa false).memErr pa true).faultEnd h cause
        (mkRec s.cyc r cause { info pa with size := min n 128, right := right })

/-! ## Elements (R65, R78) -/

/-- R65, R78: byte offset of the container of element i0 of a row, and its first bit in the container. -/
def elemPos (ty i0 : Nat) : Nat × Nat :=
  match ty with
  | 14 => (i0 / 4 * 3, 6 * (i0 % 4))
  | 13 => (i0 / 2, 4 * (i0 % 2))
  | _ => (i0 * (fmtBits ty / 8), 0)

/-- R78: the offset in extent EXT of a row (i1, i2, i3). -/
def rowOff (t : Tid) (i1 i2 i3 : Nat) : Nat :=
  tidOffset t + i1 * tidStride t 1 + i2 * tidStride t 2 + i3 * tidStride t 3

/-- R78: the code of element (i0, i1) of a tensor of rank at most 2. -/
def readElem (s : State) (lease : List Extent) (extn : Nat) (t : Tid) (i0 i1 : Nat) : Except AccErr Nat × State :=
  let f := tidFmt t
  let p := elemPos f i0
  match readExt s lease extn (tidExt t) (rowOff t i1 0 0 + p.1) (contBytes f) with
  | (.error e, s1) => (.error e, s1)
  | (.ok bs, s1) => (.ok (leNat bs / 2 ^ p.2 % 2 ^ fmtBits f), s1)

/-- R78: where the scale byte of the block of element (i0, i1) stands in extent SLOC. -/
def scaleOff (t : Tid) (i0 i1 : Nat) : Nat := tidSbase t + i1 * ((tidDim t 0 + 31) / 32) + i0 / 32

/-- R78: the scale byte of the block of element (i0, i1). -/
def readScale (s : State) (lease : List Extent) (extn : Nat) (t : Tid) (i0 i1 : Nat) : Except AccErr Nat × State :=
  match readExt s lease extn (tidSloc t) (scaleOff t i0 i1) 1 with
  | (.error e, s1) => (.error e, s1)
  | (.ok bs, s1) => (.ok (leNat bs), s1)

/-- R68, R78: the exact value of element (i0, i1), with its block scale; FZ under R70. -/
def readValue (s : State) (lease : List Extent) (extn : Nat) (t : Tid) (fz : Bool) (i0 i1 : Nat) :
    Except AccErr Num × State :=
  match readElem s lease extn t i0 i1 with
  | (.error e, s1) => (.error e, s1)
  | (.ok c, s1) =>
    let v := decodeNum (tidFmt t) fz c
    if tidSfmt t = 1 then
      match readScale s1 lease extn t i0 i1 with
      | (.error e, s2) => (.error e, s2)
      | (.ok b, s2) => (.ok (scaleNum b v), s2)
    else (.ok v, s1)

/-- R363: the bytes and the bit mask of a code in its container. -/
def elemBytes (ty i0 code : Nat) : List Byte × List Byte :=
  let p := elemPos ty i0
  let w := fmtBits ty
  (leBytes (contBytes ty) (code % 2 ^ w * 2 ^ p.2), leBytes (contBytes ty) ((2 ^ w - 1) * 2 ^ p.2))

/-- R363: merge bytes through a mask at one place. -/
def mergePlace (s : State) (p : Place) (bs ms : List Byte) : Except Nat Unit × State :=
  match p with
  | .phys pa _ => (.ok (), s.landMasked pa bs ms)
  | .peer w off =>
    if isSelf s w then
      match ingress s s.dev.devno.toNat w.win off bs.length false true false w.key with
      | .ok pa => (.ok (), s.landMasked pa bs ms)
      | .error r => (.error r, s)
    else (.ok (), { s with out := s.out ++ [.peerMerge w.dev w.win off w.key bs ms] })

/-- R174, R363: merge bytes over a covered range: each page's part goes to its own frame. -/
def mergeRange (s : State) (e : Extent) (va : Nat) : Nat → List Byte → List Byte → Except Nat Unit × State
  | 0, _, _ => (.ok (), s)
  | fuel + 1, bs, ms =>
    if bs.isEmpty then (.ok (), s)
    else
      let k := 4096 - va % 4096
      match mergePlace s (e.place va) (bs.take k) (ms.take k) with
      | (.error r, s1) => (.error r, s1)
      | (.ok _, s1) => mergeRange s1 e (va + k) fuel (bs.drop k) (ms.drop k)

/-- R363: write through a mask: the written bits are merged at the home as one step, with the right W alone. -/
def writeMasked (s : State) (lease : List Extent) (va : Nat) (bs ms : List Byte) : Except AccErr Unit × State :=
  match covered lease va bs.length .w with
  | .error r => (.error (.lease va bs.length 2 r), s)
  | .ok e =>
    match mergeRange s e va 2 bs ms with
    | (.error r, s1) => (.error (.import va bs.length 2 r), s1)
    | (.ok _, s1) => (.ok (), s1)

/-- R78, R363: write the code of element (i0, i1). -/
def writeElem (s : State) (lease : List Extent) (extn : Nat) (t : Tid) (i0 i1 code : Nat) : Except AccErr Unit × State :=
  let f := tidFmt t
  let b := elemBytes f i0 code
  match extAddr lease extn (tidExt t) (rowOff t i1 0 0 + (elemPos f i0).1) (contBytes f) .w with
  | .error e => (.error e, s)
  | .ok va =>
    if contElems f = 1 then writeVa s lease va b.1 else writeMasked s lease va b.1 b.2

/-- Run a step for each number of a list, stopping at the first failure. -/
def forAcc (l : List Nat) (f : Nat → State → Except AccErr Unit × State) (s : State) : Except AccErr Unit × State :=
  match l with
  | [] => (.ok (), s)
  | i :: is =>
    match f i s with
    | (.ok _, s1) => forAcc is f s1
    | (.error e, s1) => (.error e, s1)

/-- Collect a result for each number of a list, stopping at the first failure. -/
def mapAcc {α ε : Type} (l : List Nat) (f : Nat → State → Except ε α × State) (s : State) :
    Except ε (List α) × State :=
  match l with
  | [] => (.ok [], s)
  | i :: is =>
    match f i s with
    | (.error e, s1) => (.error e, s1)
    | (.ok x, s1) =>
      match mapAcc is f s1 with
      | (.error e, s2) => (.error e, s2)
      | (.ok xs, s2) => (.ok (x :: xs), s2)

end Sys2Proof.Machine
end

