-- ==== Sys2Proof/Machine/Sync.lean ====
section
/-! DEFINITION. Atomics, barriers, signals and futures: the scalar instructions and their performance at the home
(R227 to R248). -/

namespace Sys2Proof.Machine

/-! ## Updates of a word (R231, R234) -/

/-- R231: the new value of a word of w bits: 0 add, 1 and, 2 or, 3 xor, 4 min, 5 max, 6 minu, 7 maxu, 8 xchg, 9 cas. -/
def atomNew (op w : Nat) (old v cmp : Nat) : Nat :=
  let m := 2 ^ w
  let x := v % m
  match op with
  | 0 => (old + x) % m
  | 1 => old &&& x
  | 2 => old ||| x
  | 3 => old ^^^ x
  | 4 => if signedOf w x < signedOf w old then x else old
  | 5 => if signedOf w old < signedOf w x then x else old
  | 6 => if x < old then x else old
  | 7 => if old < x then x else old
  | 8 => x
  | _ => if old = cmp % m then x else old

/-- R234: 0 set, 1 add, 2 sub, 3 or, 4 and. -/
def sigNew (op w : Nat) (old v : Nat) : Nat :=
  let m := 2 ^ w
  let x := v % m
  match op with
  | 0 => x
  | 1 => (old + x) % m
  | 2 => (old + (m - x)) % m
  | 3 => old ||| x
  | _ => old &&& x

/-- R146: the new value of an element of a CRED: 0 add, 1 min, 2 max, on f32 (8), i32 (2) or n32. FZ covers the add
alone (R70). -/
def credNew (op ty mode : Nat) (sat fz : Bool) (old v : W32) : Nat :=
  if ty = 8 then
    let z := fz && decide (op = 0)
    let x := f32Of z old
    let y := f32Of z v
    roundN 8 mode false z (if op = 0 then addNum mode x y else minMax (decide (op = 2)) x y)
  else
    let val (w : W32) : Int := if ty = 2 then w.toInt else w.toNat
    let r := if op = 0 then val old + val v else if op = 1 then min (val old) (val v) else max (val old) (val v)
    if sat then clampInt ty r else wrapNat 32 r

/-! ## Atomic routines (R232, R233) -/

/-- Register k of a routine; x0 reads 0. -/
def rvReg (rs : List W32) (k : Nat) : W32 := if k = 0 then 0#32 else rs.getD k 0#32
def rvSet (rs : List W32) (k : Nat) (v : W32) : List W32 := if k = 0 then rs else rs.set k v

/-- RV32I register–register and register–immediate operations by funct3, with the alternate bit (SUB, SRA). -/
def rvAlu (f3 : Nat) (alt : Bool) (x y : W32) : W32 :=
  match f3 with
  | 0 => if alt then x - y else x + y
  | 1 => x <<< (y.toNat % 32)
  | 2 => if x.toInt < y.toInt then 1#32 else 0#32
  | 3 => if x.toNat < y.toNat then 1#32 else 0#32
  | 4 => x ^^^ y
  | 5 => if alt then x.sshiftRight (y.toNat % 32) else x >>> (y.toNat % 32)
  | 6 => x ||| y
  | _ => x &&& y

/-- RV32I branch conditions by funct3. -/
def rvCond (f3 : Nat) (x y : W32) : Bool :=
  match f3 with
  | 0 => x == y
  | 1 => x != y
  | 4 => decide (x.toInt < y.toInt)
  | 5 => !decide (x.toInt < y.toInt)
  | 6 => decide (x.toNat < y.toNat)
  | _ => !decide (x.toNat < y.toNat)

/-- RV32I: the offset of a branch, in bytes. -/
def rvBranchOff (i : W32) : Int :=
  (i.extractLsb' 31 1 ++ i.extractLsb' 7 1 ++ i.extractLsb' 25 6 ++ i.extractLsb' 8 4 ++ 0#1 : BitVec 13).toInt

/-- R232: the words a routine may hold at position pos of n. -/
def rvOk (i : W32) (pos n : Nat) : Bool :=
  let op := (i.extractLsb' 0 7).toNat
  let f3 := (i.extractLsb' 12 3).toNat
  let f7 := (i.extractLsb' 25 7).toNat
  if op = 0x37 then true
  else if op = 0x13 then (if f3 = 1 then f7 == 0 else if f3 = 5 then f7 == 0 || f7 == 0x20 else true)
  else if op = 0x33 then (if f3 = 0 ∨ f3 = 5 then f7 == 0 || f7 == 0x20 else f7 == 0)
  else if op = 0x63 then
    f3 != 2 && f3 != 3 && decide (0 < rvBranchOff i ∧ rvBranchOff i % 4 = 0 ∧ (pos : Int) + rvBranchOff i / 4 ≤ n)
  else false

/-- R233: run a routine from a position; branches only go forward, so the fuel is its length. -/
def rvRun (code : List W32) (pos : Nat) (rs : List W32) : Nat → List W32
  | 0 => rs
  | fuel + 1 =>
    match code[pos]? with
    | none => rs
    | some i =>
      let op := (i.extractLsb' 0 7).toNat
      let rd := (i.extractLsb' 7 5).toNat
      let f3 := (i.extractLsb' 12 3).toNat
      let x := rvReg rs (i.extractLsb' 15 5).toNat
      let y := rvReg rs (i.extractLsb' 20 5).toNat
      let imm : W32 := (i.extractLsb' 20 12).signExtend 32
      let alt := i.getLsbD 30
      if op = 0x37 then rvRun code (pos + 1) (rvSet rs rd (i.extractLsb' 12 20 ++ 0#12)) fuel
      else if op = 0x13 then rvRun code (pos + 1) (rvSet rs rd (rvAlu f3 (alt && f3 == 5) x imm)) fuel
      else if op = 0x33 then rvRun code (pos + 1) (rvSet rs rd (rvAlu f3 alt x y)) fuel
      else if rvCond f3 x y then rvRun code (pos + (rvBranchOff i / 4).toNat) rs fuel
      else rvRun code (pos + 1) rs fuel

/-- R233: the new value and the result of a routine. -/
def atomrRun (code : List W32) (old v : W64) : W64 × W64 :=
  let lo (x : W64) : W32 := x.extractLsb' 0 32
  let hi (x : W64) : W32 := x.extractLsb' 32 32
  let rs0 := (((((List.replicate 32 0#32).set 10 (lo old)).set 11 (hi old)).set 12 (lo v)).set 13 (hi v))
  let rs := rvRun code 0 ((rs0.set 14 (lo old)).set 15 (hi old)) 16
  (rvReg rs 11 ++ rvReg rs 10, rvReg rs 15 ++ rvReg rs 14)

/-! ## Performing at the home -/

/-- The result of an operation reaches whoever asked for it. -/
def State.answer (s : State) (o : Owner) (v : W64) : State :=
  match o with
  | .cc h f => s.deliver h f v
  | .cmd k => s.cmdDone k 0#2
  | .pkt p => (s.modPacket p fun q => { q with ended := some true }).push (.packetComplete p)
  | .peer src tag => s.reply src tag v
  | .arm h => s.countDown h 1
  | .wwait k =>
    if v = 1#64 then (s.modCmd k fun y => { y with wDone := true }).push (.commandStart k) else s.cmdDone k 3#2
  | .parked h site id => s.unpark h site id v
  | _ => s

/-- R230: a new value that equals the old one performs no write. -/
def State.update (s : State) (pa n old new : Nat) : State :=
  if new = old then s else s.land pa (leBytes n new)

/-- R241: what TESTPH reports: 1 left, 0 not, 2 not valid, 3 out of range. -/
def phaseResult (s : State) (pa : Nat) (tok : W64) : W64 :=
  if !s.bars.any fun b => decide (b.pa = pa) then 2#64
  else match leftPhase (barPhase s pa) tok with
    | some true => 1#64
    | some false => 0#64
    | none => 3#64

/-- R241: set up an object. Its waiters, if it was valid, are told first (R242). -/
def State.binit (s : State) (pa : Nat) (counting : Bool) (expect : W32) (scope rpa rlen : Nat) : State :=
  let s1 := if s.bars.any fun b => decide (b.pa = pa) then s.destroyBar pa 6#64 else s
  let w0 := fieldAt 1 63 + fieldAt (boolNat counting) 62 + fieldAt scope 59 + expect.toNat
  let s2 := { s1 with
    bars := s1.bars ++ [Bar.mk pa counting rpa rlen],
    mem := memPuts (memPuts s1.mem pa (leBytes 8 w0 ++ leBytes 8 0)) (pa + 32) (leBytes 8 0) }
  s2.fireVigils pa 40

/-- R241: BINV. -/
def State.binv (s : State) (pa : Nat) : State :=
  if s.bars.any fun b => decide (b.pa = pa) then
    let s1 := s.destroyBar pa 2#64
    ({ s1 with mem := memPuts s1.mem pa (leBytes 8 ((memW64 s1.mem pa).toNat % 2 ^ 63)) }).fireVigils pa 8
  else s

/-- R238, R239, R241: ARRIVE: the token of the phase counted into. -/
def State.arriveNow (s : State) (pa : Nat) : W64 × State :=
  match s.bars.find? fun b => decide (b.pa = pa) with
  | none => (0x10000#64, s)
  | some b =>
    let ph := barPhase s pa
    (ph.setWidth 64, if b.counting then s else s.arriveAt pa ph)

/-- R248: ARRIVEC: the bits it ORs, then the arrival; the status of its token. -/
def State.arriveCmd (s : State) (pa : Nat) (phase : Option (BitVec 16)) (user : Byte) (fault : Bool) : BitVec 2 × State :=
  match s.bars.find? fun b => decide (b.pa = pa) with
  | none => (2#2, s)
  | some b =>
    let bits := BitVec.ofNat 64 (fieldAt user.toNat 32 + boolNat fault)
    let s1 := s.orStatus pa bits
    (0#2, if b.counting then s1 else s1.arriveAt pa (phase.getD (barPhase s1 pa)))

/-- R245: the entry of a context's WATCH is armed: its access has been performed, and the WATCH retires. -/
def State.watchArmed (s : State) (h : W64) (f : Nat) : State := (s.deliver h f 0#64).modCtx h Run.retire

/-- R245, R322: arm the entry of a WATCH, or of a BARRIER packet's slot. -/
def State.watchAt (s : State) (o : Owner) (cmp : Nat) (size8 : Bool) (pa : Nat) (mask v : W64) : State :=
  match o with
  | .cc h f => (s.armVigil ⟨cmp, size8, pa, mask, v, .task h⟩).watchArmed h f
  | .slot p i => s.armVigil ⟨cmp, size8, pa, mask, v, .packet p.q (BitVec.ofNat 39 (p.idx / 64)) i⟩
  | .peer src tag => (s.reply src tag 0#64).armVigil ⟨cmp, size8, pa, mask, v, .peer src tag⟩
  | _ => s

/-- R200, R246: FUTRD or PARK of an empty future waits in the vigil table. -/
def State.futureAt (s : State) (o : Owner) (size8 : Bool) (pa : Nat) : State :=
  let v (w : Waiter) : Vigil := ⟨1, size8, pa, BitVec.allOnes 64, BitVec.allOnes 64, w⟩
  match o with
  | .cc h f => s.armVigil (v (.ccReg h f))
  | .parked h site id => s.armVigil (v (.parked h site id))
  | .peer src tag => s.armVigil (v (.peer src tag))
  | _ => s

/-- R227 to R248: one operation is performed at its home. -/
def State.perform (s : State) (o : HomeOp) : State :=
  let n := if o.size8 then 8 else 4
  let old := leNat (memBytes s.mem o.pa n)
  match o.kind with
  | .atom op v cmp _ =>
    (s.update o.pa n old (atomNew op (8 * n) old v.toNat cmp.toNat)).answer o.owner (extWord o.size8 old)
  | .atomr r ctx v =>
    let res := atomrRun (SMap.get [] s.routines (64 * ctx + r)) (BitVec.ofNat 64 old) v
    (s.update o.pa 8 old res.1.toNat).answer o.owner res.2
  | .sigop op v _ =>
    (s.update o.pa n old (sigNew op (8 * n) old v.toNat)).answer o.owner (extWord o.size8 old)
  | .binit c ex sc rpa rlen => (s.binit o.pa c ex sc rpa rlen).answer o.owner 0#64
  | .binv => (s.binv o.pa).answer o.owner 0#64
  | .arrive =>
    let r := s.arriveNow o.pa
    r.2.answer o.owner r.1
  | .testph tok => s.answer o.owner (phaseResult s o.pa tok)
  | .waitph tok =>
    if phaseResult s o.pa tok = 0#64 then { s with barWaits := s.barWaits ++ [⟨o.pa, tok, o.owner⟩] }
    else s.answer o.owner (phaseResult s o.pa tok)
  | .watch cmp mask v =>
    s.watchAt o.owner cmp o.size8 o.pa mask (if cmp = 10 then BitVec.ofNat 64 old &&& mask else v)
  | .futrd =>
    if old = 2 ^ (8 * n) - 1 then s.futureAt o.owner o.size8 o.pa
    else s.answer o.owner (extWord o.size8 old)
  | .futwr v => (s.land o.pa (leBytes n v.toNat)).answer o.owner 0#64
  | .arrivec ph user fault =>
    let r := s.arriveCmd o.pa ph user fault
    match o.owner with
    | .cmd k => r.2.cmdDone k r.1
    | .peer src tag => r.2.reply src tag (r.1.setWidth 64)
    | _ => r.2
  | .waitc tok =>
    if phaseResult s o.pa tok = 0#64 then { s with barWaits := s.barWaits ++ [⟨o.pa, tok, o.owner⟩] }
    else s.answer o.owner (phaseResult s o.pa tok)
  | .cred op ty mode sat fz v =>
    (s.update o.pa 4 old (credNew op ty mode sat fz (BitVec.ofNat 32 old) v)).answer o.owner 0#64

/-- R375, R378: an operation on a word whose host copies are recalled finds none; on another word they stay as they
are, whatever it writes. -/
def State.performAt (s : State) (o : HomeOp) : State :=
  if o.sa then ({ s with hostHeld := recallHost s.hostHeld o.pa (if o.size8 then 8 else 4) }).perform o
  else { s.perform o with hostHeld := s.hostHeld }

/-- R228: barrier objects of a die, and its vigil entries with the waiters at its objects. -/
def State.objects (s : State) (die : Nat) : Nat := (s.bars.filter fun b => decide (homeDie b.pa = die)).length
def State.entries (s : State) (die : Nat) : Nat :=
  (s.vigils.filter fun v => decide (homeDie v.pa = die)).length +
    (s.barWaits.filter fun w => decide (homeDie w.pa = die)).length

/-- R228: an engine's SRAM has 49,152 places; beyond them the overflow area of its die serves (DESIGN CHOICE, log entry 10). -/
def roomIn (die n : Nat) : Bool := decide (n < 49152) || decide (n < 49152 + Config.overflow die)

/-- R228: there is room for the new state that an operation needs, if it needs any: a FUTRD of a full future, and a WATCH whose
condition holds, leave no entry. -/
def State.roomFor (s : State) (o : HomeOp) : Bool :=
  match o.kind with
  | .binit _ _ _ _ _ => (s.bars.any fun b => decide (b.pa = o.pa)) || roomIn o.die (s.objects o.die)
  | .waitph tok => phaseResult s o.pa tok != 0#64 || roomIn o.die (s.entries o.die)
  | .waitc tok => phaseResult s o.pa tok != 0#64 || roomIn o.die (s.entries o.die)
  | .watch cmp mask v => (decide (cmp < 10) && Vigil.holds ⟨cmp, o.size8, o.pa, mask, v, .guestQueue 0⟩ s) ||
      roomIn o.die (s.entries o.die)
  | .futrd => leNat (memBytes s.mem o.pa (if o.size8 then 8 else 4)) != 2 ^ (if o.size8 then 64 else 32) - 1 ||
      roomIn o.die (s.entries o.die)
  | _ => true

/-- R418: the operation reads its word or its object; FUTWR only writes. -/
def HomeKind.reads : HomeKind → Bool
  | .futwr _ => false
  | _ => true

/-- R396: the bytes an operation reaches, and the rights it needs. -/
def HomeOp.span (o : HomeOp) : Nat :=
  match o.kind with
  | .atom _ _ _ _ | .atomr _ _ _ | .sigop _ _ _ | .watch _ _ _ | .futrd | .futwr _ | .cred _ _ _ _ _ _ => if o.size8 then 8 else 4
  | _ => 40
def HomeOp.right (o : HomeOp) : Nat :=
  match o.kind with
  | .watch _ _ _ | .futrd => 4
  | .futwr _ => 2
  | _ => 6

/-- The AGENT number of a command's engine (R396). -/
def Cmd.agent (c : Cmd) : Nat :=
  match c.queue with
  | .port _ => 2
  | .tileArray _ => 3
  | .tileBank _ => 3
  | .tileFetch _ => 3
  | .sync => 5
  | .guest => 6
  | _ => 4

/-- The UNIT number of a command's engine (R396). -/
def Cmd.unit (c : Cmd) : Nat :=
  match c.queue with
  | .port p => p
  | .tileArray t => t
  | .tileBank t => t
  | .tileFetch t => t
  | _ => 0

/-- R365, R374, R419: an access of a command fails: the command is over without a token, and its task ends by a fault.
A carrier falls with its follow-on (R138). R419: a command whose retry meets a memory error writes its S signal. -/
def State.cmdFault (s : State) (k : CmdRef) (c : Cmd) (e : AccErr) : State :=
  match s.run? k.task with
  | none => s
  | some r =>
    let carriers := r.cmds.filter fun d => c.carrier == some d.id
    let s1 := s.modRun k.task fun q => { q with cmds := q.cmds.filter fun d => d.id != c.id && c.carrier != some d.id }
    let signs := (if e.isMemory then [c] else []) ++ carriers
    let s2 := signs.foldl (fun st d =>
      if d.args.fs then st.signal r.lease ⟨k.task, d.id⟩ d.csig d.args.scope.toNat else st) s1
    (s2.accFault k.task c.pc c.agent c.unit 0 0 0 e).settle k.task

/-- R418, R419: a command whose operation meets an uncorrectable error on both attempts. -/
def State.cmdMemFault (s : State) (k : CmdRef) (o : HomeOp) (pa : Nat) : State :=
  match (s.run? k.task).bind fun r => r.cmds.find? fun c => decide (c.id = k.id) with
  | some c => s.cmdFault k c (.memory pa o.span o.right)
  | none => s.memFault k.task pa 0#64 5 o.span o.right

/-- R320, R419: a packet whose operation meets an uncorrectable error on both attempts ends in packet error. -/
def State.pktMemFault (s : State) (p : PktRef) (pa : Nat) : State :=
  (((s.memErr pa false).memErr pa true).modPacket p fun q => { q with ended := some (q.ended.getD false) }).push (.packetComplete p)

/-- R418, R419, R421: an operation finds an uncorrectable error in its word on both attempts, and performs nothing. Its task
ends, or its packet; another device is answered without data, and nobody else is told (DESIGN CHOICE, log entry 114). -/
def State.opFault (s : State) (o : HomeOp) (pa : Nat) : State :=
  let task (h : W64) : State := s.memFault h pa 0#64 5 o.span o.right
  let told := (s.memErr pa false).memErr pa true
  match o.owner with
  | .cc h _ => task h
  | .cmd k => s.cmdMemFault k o pa
  | .elem k => s.cmdMemFault k o pa
  | .wwait k => s.cmdMemFault k o pa
  | .sig k => task k.task
  | .arm h => task h
  | .parked h _ _ => s.memFault h pa 0#64 1 o.span o.right
  | .pkt p => s.pktMemFault p pa
  | .slot p _ => s.pktMemFault p pa
  | .peer src tag => { told with out := told.out ++ [.peerAnswer src tag 0 []] }
  | .none => told

/-- R227, R228: an operation is performed, or held at its home for want of room; one behind it on the same word or
object is held with it. -/
def State.attempt (s : State) (o : HomeOp) : State :=
  if s.roomFor o && !s.heldOps.any fun x => x.pa == o.pa then
    match if o.kind.reads then s.badAt o.pa o.span else none with
    | some pa => s.opFault o pa
    | none =>
      let s1 := s.performAt o
      match o.owner with
      | .cc h _ => s1.modCtx h fun r => { r with stall := 0 }
      | _ => s1
  else { s with heldOps := s.heldOps ++ [o] }

/-- R227: the operation that arrived first is performed. -/
def State.performFirst (s : State) : State :=
  match s.homes with
  | [] => s
  | o :: rest => ({ s with homes := rest }).attempt o

/-- R227: HOME_OPERATION. -/
def execHomeOperation (s : State) : Result := .next s.performFirst

/-- R228: HOME_RETRY: the operations that homes still hold are tried again, in the order in which they arrived. -/
def execHomeRetry (s : State) : Result :=
  .next (s.heldOps.foldl State.attempt { s with heldOps := [] })

/-! ## The scalar instructions -/

/-- R229, R375 to R377: what an instruction needs of its address. `pcie` says whether a PCIe path carries it. -/
structure SyncNeed where
  align : Nat
  size  : Nat
  r     : Bool
  w     : Bool
  pcie  : Bool
deriving DecidableEq, Repr

/-- R229: both rights where both are needed. -/
def coveredRW (lease : List Extent) (ea n : Nat) (r w : Bool) : Except Nat Extent :=
  if 2 ^ 57 ≤ ea then .error 3
  else
    let hold := lease.filter fun e => e.holds ea n && e.mapped ea n
    match hold.find? fun e => (!r || e.grants ea n .r) && (!w || e.grants ea n .w) with
    | some e => .ok e
    | none => .error (if hold.isEmpty then 1 else 2)

/-- R396: the rights needed, as a fault record codes them. -/
def rightCode (r w : Bool) : Nat := 4 * boolNat r + 2 * boolNat w

/-- R372, R375, R376: the scope and path checks at an address: the cause that refuses, if any. -/
def pathRefuses (s : State) (p : Place) (scope : Nat) (pcie : Bool) : Option Nat :=
  match p with
  | .peer w _ => if scope = 5 ∧ !w.sa then some 0x0B else none
  | .phys _ attr =>
    if scope = 5 ∧ !attrSa attr then some 0x0B
    else if attrTier attr ∧ !s.dev.cxl ∧ !pcie ∧ 2 ≤ scope then some 0x0C
    else none

/-- R229: the checks in order. -/
def withSync (ea : W64) (need : SyncNeed) (scope : BitVec 3) (s : State) (k : Extent → State → Result) : Result :=
  if ea.toNat % need.align ≠ 0 then .next (s.trapAcc 0x03 ea need.size (rightCode need.r need.w))
  else match coveredRW s.cc.lease ea.toNat need.size need.r need.w with
    | .error r => .next (s.ccLeaseFault ea need.size (rightCode need.r need.w) r)
    | .ok e =>
      match pathRefuses s (e.place ea.toNat) scope.toNat need.pcie with
      | some c => .next (s.trapAcc c ea need.size (rightCode need.r need.w))
      | none => k e s

/-- R227, R370, R374: an operation goes to the home of its word: on this device to the SE, through the import table
for a window of its own, to another device as a message whose answer is an input (DESIGN CHOICE, log entry 1). An import
asks for both rights wherever the word is read and written (R374), RED's included. R396: the record of an SE gives no pc of
the CC. -/
def State.send (s : State) (h : W64) (p : Place) (ea : W64) (size8 : Bool) (kind : HomeKind) (scope n : Nat)
    (needW : Bool) (o : Owner) : State :=
  match p with
  | .phys pa attr => s.toHome ⟨homeDie pa, pa, size8, recalls pa attr, kind, o⟩
  | .peer w off =>
    if isSelf s w then
      match ingress s s.dev.devno.toNat w.win off n kind.reads needW (decide (scope = 5)) w.key with
      | .ok pa => s.toHome ⟨homeDie pa, pa, size8, (readImport s w.win).sa, kind, o⟩
      | .error r => s.importFault h ea n (rightCode kind.reads needW) r 0#64 5
    else s.sendPeer w off ea 0#64 size8 kind (decide (scope = 5)) o

/-- R320, R356: the entry of a context; one that was never written is not valid. -/
def ctxEnt (s : State) (ctx : Nat) : CtxEnt := (SMap.get? s.ctxs ctx).getD ⟨false, 0, 0#64⟩

/-- R320, R321: the place of a word that an operation updates through a context's tables: both rights are needed. -/
def ctxWord (s : State) (c : CtxEnt) (va : Nat) : Option Place :=
  if (ctxPlace s.mem c va .r).isSome then ctxPlace s.mem c va .w else none

/-- R319 to R321: the scope by which the page of an operation is looked at: the .sys SIGOP of a packet is performed on a page of
this device whether or not it has SA, as R354 and R355 have it on the pages of R347. -/
def ctxScope (host : Bool) (p : Place) (scope : Nat) : Nat :=
  match host, p with
  | true, .phys _ _ => min scope 4
  | _, _ => scope

/-- R321, R370, R375, R377: an operation that no window holds a lease for goes to the home of its word through a
context's tables; `none` where the word has no such place, or the scope, the path or this device's own import refuses. -/
def State.sendCtx (s : State) (c : CtxEnt) (va n : Nat) (size8 : Bool) (kind : HomeKind) (scope : Nat) (host pcie : Bool)
    (o : Owner) : Option State :=
  match ctxWord s c va with
  | none => none
  | some p =>
    if (pathRefuses s p (ctxScope host p scope) pcie).isSome then none
    else match p with
      | .phys pa attr => some (s.toHome ⟨homeDie pa, pa, size8, recalls pa attr, kind, o⟩)
      | .peer w off =>
        if isSelf s w then
          match ingress s s.dev.devno.toNat w.win off n true true (decide (scope = 5)) w.key with
          | .ok pa => some (s.toHome ⟨homeDie pa, pa, size8, (readImport s w.win).sa, kind, o⟩)
          | .error _ => none
        else some (s.sendPeer w off (BitVec.ofNat 64 va) 0#64 size8 kind (decide (scope = 5)) o)

/-- R418, R419: an operation that reads a word with an uncorrectable error on both attempts ends its task. -/
def withSound (reads : Bool) (ea : W64) (n right : Nat) (e : Extent) (s : State) (k : State → Result) : Result :=
  match if reads then badIn s e ea.toNat n else none with
  | some pa => .next (s.memFault s.cc.task pa 0#64 5 n right)
  | none => k s

/-- R165: a synchronisation access of a given number is sent to its home. -/
def State.issueSync (s : State) (id : Nat) (e : Extent) (ea : W64) (size8 : Bool) (kind : HomeKind) (scope n : Nat)
    (needR needW : Bool) : State :=
  (s.queueAcc id ea (.sync size8 kind scope n needR needW) true).send s.cc.task (e.place ea.toNat) ea size8 kind
    scope n needW (.cc s.cc.task id)

/-- A synchronisation instruction that delivers a value into rd (R85). -/
def syncRet (d : Reg) (ea : W64) (size8 : Bool) (kind : HomeKind) (scope n : Nat) (needR needW : Bool) (e : Extent)
    (s : State) : Result :=
  if ccBusy s then finishLate d none s fun id t => t.queueAcc id ea (.sync size8 kind scope n needR needW) false
  else withSound kind.reads ea n (rightCode needR needW) e s fun s =>
    finishLate d none s fun id t => t.issueSync id e ea size8 kind scope n needR needW

/-- One that delivers nothing. -/
def syncOnly (ea : W64) (size8 : Bool) (kind : HomeKind) (scope n : Nat) (needR needW : Bool) (e : Extent)
    (s : State) : Result :=
  if ccBusy s then queueOnly ea (.sync size8 kind scope n needR needW) s
  else withSound kind.reads ea n (rightCode needR needW) e s fun s =>
    let r := s.number
    .next (r.2.issueSync r.1 e ea size8 kind scope n needR needW).retire

/-- One that retires only once it has been performed (R245). -/
def syncHeld (ea : W64) (size8 : Bool) (kind : HomeKind) (scope n : Nat) (needR needW : Bool) (e : Extent)
    (s : State) : Result :=
  let r := s.number
  if ccBusy s then .next (r.2.queueAcc r.1 ea (.sync size8 kind scope n needR needW) false)
  else withSound kind.reads ea n (rightCode needR needW) e s fun _ =>
    .next (r.2.issueSync r.1 e ea size8 kind scope n needR needW)

/-- The bytes of a word. -/
def wordLen (z : Bool) : Nat := if z then 8 else 4

/-- R227, R231: an update at .fc is performed at once in the CC's cache, or at the home where the line is kept there;
in either case before the next access. -/
def atomLocal (d : Reg) (ea : W64) (z : Bool) (kind : HomeKind) (e : Extent) (s : State) : Result :=
  match e.place ea.toNat with
  | .phys pa _ =>
    if ccBusy s then syncRet d ea z kind 1 (wordLen z) true true e s
    else withSound true ea (wordLen z) 6 e s fun s =>
      finishLate d none s fun id t => t.performAt ⟨homeDie pa, pa, z, true, kind, .cc t.cc.task id⟩
  | .peer _ _ => syncRet d ea z kind 1 (wordLen z) true true e s

/-- R231: ATOM. For cas the compare value is read from rd, always waiting; R84 names a before b, and rd, read last, comes
after them in the number that an empty-register trap reports (DEDUCED, log entry 45). -/
def execAtom (d a b : Reg) (ta tb : Bool) (o : BitVec 4) (z : Bool) (c : BitVec 3) (s : State) : Result :=
  let srcs := if o = 9#4 then [(a, ta), (b, tb), (d, false)] else [(a, ta), (b, tb)]
  withSrcs srcs s fun s =>
    let ea := s.reg a
    let kind := HomeKind.atom o.toNat (s.reg b) (s.reg d) c.toNat
    withSync ea ⟨wordLen z, wordLen z, true, true, o == 0#4 || o == 8#4 || o == 9#4⟩ c s fun e s =>
      withDest d s fun s =>
        if c = 1#3 then atomLocal d ea z kind e s
        else syncRet d ea z kind c.toNat (wordLen z) true true e s

/-- R231, R229: RED needs the right W alone. -/
def execRed (a b : Reg) (ta tb : Bool) (o : BitVec 4) (z : Bool) (c : BitVec 3) (s : State) : Result :=
  withSrcs [(a, ta), (b, tb)] s fun s =>
    let ea := s.reg a
    withSync ea ⟨wordLen z, wordLen z, false, true, o == 0#4⟩ c s fun e s =>
      syncOnly ea z (.atom o.toNat (s.reg b) 0#64 c.toNat) c.toNat (wordLen z) false true e s

/-- R233: ATOMR. -/
def execAtomr (d a b : Reg) (ta tb : Bool) (n : BitVec 6) (c : BitVec 3) (s : State) : Result :=
  withSrcs [(a, ta), (b, tb)] s fun s =>
    let ea := s.reg a
    withSync ea ⟨8, 8, true, true, false⟩ c s fun e s => withDest d s fun s =>
      syncRet d ea true (.atomr n.toNat s.cc.ctx (s.reg b)) c.toNat 8 true true e s

/-- R234: SIGOP. -/
def execSigop (d a b : Reg) (ta tb : Bool) (o : BitVec 3) (z : Bool) (c : BitVec 3) (s : State) : Result :=
  withSrcs [(a, ta), (b, tb)] s fun s =>
    let ea := s.reg a
    withSync ea ⟨wordLen z, wordLen z, true, true, decide (o.toNat ≤ 2)⟩ c s fun e s => withDest d s fun s =>
      syncRet d ea z (.sigop o.toNat (s.reg b) c.toNat) c.toNat (wordLen z) true true e s

/-- R229: a barrier object's address. -/
def barNeed : SyncNeed := ⟨64, 40, true, true, false⟩

/-- R241: the range of a counting barrier as its home sees it: none where the synchronisation argument trap is raised,
else its first byte (physical, or the offset in the object's own window) and length. It lies within one run of an extent
leased with W, clear of the object. A range whose bytes are not written at the object's home has no byte that the home
could count: length 0 (DEDUCED, log entry 46). -/
def barRange (s : State) (lease : List Extent) (obj : W64) (p : Place) (rbase rlen : Nat) : Option (Nat × Nat) :=
  if rlen = 0 ∨ 0 < overlap rbase rlen obj.toNat 40 then none
  else match covered lease rbase rlen .w with
    | .error _ => none
    | .ok e =>
      match e.runAt rbase with
      | none => none
      | some r =>
        if r.vstart + r.len < rbase + rlen then none
        else match p, e.place rbase with
          | .phys pa _, .phys rpa _ => if 0 < overlap rpa rlen pa 40 then none else some (rpa, rlen)
          | .phys _ _, .peer w off =>
            if isSelf s w then
              match ingress s s.dev.devno.toNat w.win off rlen false true false w.key with
              | .ok rpa => some (rpa, rlen)
              | .error _ => some (0, 0)
            else some (0, 0)
          | .peer v _, .peer w off =>
            if v.dev = w.dev ∧ v.win = w.win then
              if isSelf s w then
                match ingress s s.dev.devno.toNat w.win off rlen false true false w.key with
                | .ok rpa => some (rpa, rlen)
                | .error _ => some (0, 0)
              else some (off, rlen)
            else some (0, 0)
          | .peer v _, .phys rpa _ => if isSelf s v then some (rpa, rlen) else some (0, 0)

/-- R241: W2 and W3 of an object, read as the CC's own load would. -/
def barWords (s : State) (e : Extent) (ea : W64) : Except Nat (Nat × Nat) × State :=
  match readRange s e (ea.toNat + 16) 3 16 with
  | (.error r, s1) => (.error r, s1)
  | (.ok bs, s1) => (.ok (leNat (bs.take 8) % 2 ^ 57, leNat (bs.drop 8) % 2 ^ 32), s1)

/-- R241: BINIT. Of a counting barrier W2 and W3 are read once every earlier access has been performed. -/
def execBinit (a b : Reg) (ta tb : Bool) (c : BitVec 3) (s : State) : Result :=
  withSrcs [(a, ta), (b, tb)] s fun s =>
    let ea := s.reg a
    let v := s.reg b
    withSync ea barNeed c s fun e s =>
      if bits v 63 63 ≠ 0 ∨ bits v 61 32 ≠ 0 ∨ bits v 31 0 = 0 then .next (s.trap 0x06 0 0 v false)
      else if bit v 62 then
        if ccBusy s then .next s.stall
        else match barWords s e ea with
          | (.error r, s1) => .next (s1.importFault s.cc.task ea 40 6 r 0#64 5)
          | (.ok w, s1) =>
            match barRange s1 s.cc.lease ea (e.place ea.toNat) w.1 w.2 with
            | some r => syncOnly ea true (.binit true (v.setWidth 32) c.toNat r.1 r.2) c.toNat 40 true true e s1
            | none => .next (s1.trap 0x06 0 0 v false)
      else syncOnly ea true (.binit false (v.setWidth 32) c.toNat 0 0) c.toNat 40 true true e s

/-- R241: BINV. -/
def execBinv (a : Reg) (ta : Bool) (c : BitVec 3) (s : State) : Result :=
  withSrcs [(a, ta)] s fun s =>
    withSync (s.reg a) barNeed c s fun e s => syncOnly (s.reg a) true .binv c.toNat 40 true true e s

/-- R241: ARRIVE. -/
def execArrive (d a : Reg) (ta : Bool) (c : BitVec 3) (s : State) : Result :=
  withSrcs [(a, ta)] s fun s =>
    withSync (s.reg a) barNeed c s fun e s => withDest d s fun s =>
      syncRet d (s.reg a) true .arrive c.toNat 40 true true e s

/-- R241: TESTPH. -/
def execTestph (d a b : Reg) (ta tb : Bool) (c : BitVec 3) (s : State) : Result :=
  withSrcs [(a, ta), (b, tb)] s fun s =>
    withSync (s.reg a) barNeed c s fun e s => withDest d s fun s =>
      syncRet d (s.reg a) true (.testph (s.reg b)) c.toNat 40 true true e s

/-- R241: WAITPH. -/
def execWaitph (d a b : Reg) (ta tb : Bool) (c : BitVec 3) (s : State) : Result :=
  withSrcs [(a, ta), (b, tb)] s fun s =>
    withSync (s.reg a) barNeed c s fun e s => withDest d s fun s =>
      syncRet d (s.reg a) true (.waitph (s.reg b)) c.toNat 40 true true e s

/-- R245: the access of a WATCH at a pc, which has been issued and not performed: the instruction there has not retired. -/
def Access.watches (pc : W64) (a : Access) : Bool :=
  a.pc == pc && match a.kind with | .sync _ (.watch _ _ _) _ _ _ _ => true | _ => false

/-- R245: the context waits at a WATCH for its entry to be armed. -/
def Run.watching (r : Run) : Bool := r.accs.any (Access.watches r.pc)

/-- R245: WATCH; rd names the mask register, read as a source that waits, last in the order of R84 (DEDUCED, log
entry 45). It retires when its entry is armed: until then the CC issues nothing after it. -/
def execWatch (d a b : Reg) (ta tb : Bool) (m : BitVec 4) (z : Bool) (c : BitVec 3) (s : State) : Result :=
  if s.cc.watching then .next s.stall
  else withSrcs [(a, ta), (b, tb), (d, false)] s fun s =>
    let ea := s.reg a
    withSync ea ⟨wordLen z, wordLen z, true, false, false⟩ c s fun e s =>
      syncHeld ea z (.watch m.toNat (s.reg d) (s.reg b)) c.toNat (wordLen z) true false e s

/-- R246: FUTRD. -/
def execFutrd (d a : Reg) (ta : Bool) (z : Bool) (c : BitVec 3) (s : State) : Result :=
  withSrcs [(a, ta)] s fun s =>
    let ea := s.reg a
    withSync ea ⟨wordLen z, wordLen z, true, false, false⟩ c s fun e s => withDest d s fun s =>
      syncRet d ea z .futrd c.toNat (wordLen z) true false e s

/-- R246: FUTWR stores s[b] whatever the word held; a PCIe path does not carry it (R376). -/
def execFutwr (a b : Reg) (ta tb : Bool) (z : Bool) (c : BitVec 3) (s : State) : Result :=
  withSrcs [(a, ta), (b, tb)] s fun s =>
    let ea := s.reg a
    withSync ea ⟨wordLen z, wordLen z, false, true, false⟩ c s fun e s =>
      syncOnly ea z (.futwr (s.reg b)) c.toNat (wordLen z) false true e s

/-! ## Accesses that waited their turn (R165, R185) -/

/-- R183, R363: an access fails its lease check when it is performed. -/
def State.accLease (s : State) (h : W64) (a : Access) (n right reason : Nat) : State :=
  match s.run? h with
  | none => s
  | some r =>
    let cause := causeWord 0x21 reason 0
    s.faultEnd h cause (mkRec s.cyc r cause { ccInfo a.pc a.ea with size := n, right := right })

/-- R184: a load whose turn has come. -/
def State.performLoad (s : State) (h : W64) (r : Run) (a : Access) (n : Nat) : State :=
  match covered r.lease a.ea.toNat n .r with
  | .error q => s.accLease h a n 4 q
  | .ok e =>
    match badPlace s (e.place a.ea.toNat) n with
    | some pa => s.memFault h pa a.pc 0 n 4
    | none =>
      match readPlace s (e.place a.ea.toNat) n with
      | (.error q, s1) => s1.importFault h a.ea n 4 q a.pc 0
      | (.ok bs, s1) => s1.deliver h a.id (loadValue bs)

/-- R185: a store whose turn has come. -/
def State.performStore (s : State) (h : W64) (r : Run) (a : Access) (bs : List Byte) : State :=
  match covered r.lease a.ea.toNat bs.length .w with
  | .error q => s.accLease h a bs.length 2 q
  | .ok e =>
    match writePlace s (e.place a.ea.toNat) bs with
    | (.error q, s1) => s1.importFault h a.ea bs.length 2 q a.pc 0
    | (.ok _, s1) => s1.deliver h a.id 0#64

/-- R187: a FLUSH whose turn has come. -/
def State.performFlush (s : State) (h : W64) (r : Run) (a : Access) : State :=
  match flushCovered r.lease a.ea.toNat with
  | .error q => s.accLease h a 1 6 q
  | .ok e => (s.flushPlace (e.place a.ea.toNat)).deliver h a.id 0#64

/-- R227: a synchronisation operation whose turn has come is sent to its home. -/
def State.performSync (s : State) (h : W64) (r : Run) (a : Access) (size8 : Bool) (kind : HomeKind) (scope n : Nat)
    (needR needW : Bool) : State :=
  match coveredRW r.lease a.ea.toNat n needR needW with
  | .error q => s.accLease h a n (rightCode needR needW) q
  | .ok e =>
    match if kind.reads then badIn s e a.ea.toNat n else none with
    | some pa => s.memFault h pa 0#64 5 n (rightCode needR needW)
    | none =>
      (s.modRun h fun x => { x with
        accs := x.accs.map fun y => if y.id = a.id then { y with sent := true } else y }).send h (e.place a.ea.toNat) a.ea
        size8 kind scope n needW (.cc h a.id)

/-- R165, R168, R185: the oldest access of a dispatched context is performed unless it is on its way already; a window
that is ending performs no more (R409). -/
def State.drain (s : State) (h : W64) : State :=
  match s.run? h with
  | none => s
  | some r =>
    match r.ending, r.accs with
    | none, a :: _ =>
      if a.sent then s
      else match a.kind with
        | .load n => s.performLoad h r a n
        | .store bs => s.performStore h r a bs
        | .flush => s.performFlush h r a
        | .sync z kind scope n needR needW => s.performSync h r a z kind scope n needR needW
    | _, _ => s

end Sys2Proof.Machine
end

