-- ==== Sys2Proof/Machine/Issue.lean ====
section
/-! DEFINITION. The port scoreboard (R202 to R211): the checks of an ISSUE, acceptance, start, W waits, completion
tokens and signals, follow-ons (R138), missed promises (R218, R284), and the tokens and pins a completion releases. -/

namespace Sys2Proof.Machine

/-! ## What a command names -/

/-- R43: MMA and MMAZ. -/
def isMma (op : Nat) : Bool := decide (0x20 ≤ op ∧ op ≤ 0x2D)

/-- R202: the queue of a command. -/
def queueOf (op : Nat) (x : CmdArgs) : QueueId :=
  let t := x.tc.toNat
  match op with
  | 0x01 | 0x07 => .region
  | 0x02 | 0x03 | 0x04 | 0x05 | 0x06 => .port t
  | 0x08 | 0x09 => .tid
  | 0x0A => .barrier
  | 0x10 | 0x11 => .copy
  | 0x12 | 0x13 | 0x14 => .l2
  | 0x15 | 0x16 => .tileFetch t
  | 0x30 | 0x31 | 0x32 => .tileBank t
  | 0x38 | 0x39 => .coll
  | 0x40 | 0x41 | 0x42 => .sync
  | 0x48 => .guest
  | _ => .tileArray t

/-- R45: the TIDs a command names. -/
def tidsNamed (op : Nat) (x : CmdArgs) : List (BitVec 6) :=
  match op with
  | 0x02 => if x.fld 94 92 = 0 then [] else [x.ta]
  | 0x08 | 0x09 | 0x11 | 0x14 | 0x15 | 0x30 | 0x31 => [x.ta]
  | 0x10 | 0x39 => [x.ta, x.tc]
  | 0x12 | 0x13 => [x.ta, x.tb, x.tc]
  | 0x32 => (if x.bit 87 then [x.ta] else []) ++ (if x.bit 86 then [x.tb] else [])
  | 0x38 => [x.ta, x.tc] ++ (if x.fc then [x.tb] else [])
  | 0x40 | 0x41 | 0x42 => [x.tc]
  | _ => if isMma op then [x.ta, x.tb] else []

/-- R45: the tile a command names. -/
def tileNamed (op : Nat) (x : CmdArgs) : Option Nat :=
  if isMma op ∨ op ∈ [0x11, 0x15, 0x16, 0x30, 0x31, 0x32] then some x.tc.toNat else none

/-- R133: the column size of an operand format. -/
def colBytes (ty : Nat) : Nat :=
  match ty with
  | 11 | 12 => 128
  | 9 | 10 => 256
  | 13 => 64
  | _ => 96

/-- R43: the operand format of a matrix opcode. -/
def mmaFmt (op : Nat) : Nat :=
  match op % 8 with
  | 0 => 11
  | 1 => 12
  | 2 => 10
  | 3 => 9
  | 4 => 13
  | _ => 14

/-- R132: bytes of a panel of K steps. -/
def panelBytes (ty k : Nat) (scaled : Bool) : Nat := colBytes ty * k + (if scaled then 4 * k else 0)

/-- R132: bytes of one side of an operand store. -/
def sideBytes : Nat := 524288

/-- R140: K of an MMA. -/
def mmaK (x : CmdArgs) : Nat := 32 * (x.fld 87 79 + 1)

/-- R224: K of a TFETCH. -/
def fetchK (x : CmdArgs) : Nat := 32 * (x.fld 81 73 + 1)

/-- R137: the bytes of the operand stores an MMA reads: side, first byte, count. -/
def Cmd.mmaReads (c : Cmd) : List (Nat × Nat × Nat) :=
  if isMma c.op then
    [(0, c.args.p0.toNat, panelBytes (tidFmt c.tidA) (mmaK c.args) (tidSfmt c.tidA == 1)),
     (1, c.args.p1.toNat, panelBytes (tidFmt c.tidB) (mmaK c.args) (tidSfmt c.tidB == 1))]
  else []

/-- R220, R224: the bytes of an operand store that a word's fill writes: side, first byte, count. -/
def fillRangeOf (w : W128) (a : Tid) : Option (Nat × Nat × Nat) :=
  let x := unpackCmd w
  match opCmd w with
  | 0x11 => some (x.fld 94 94, 128 * x.fld 93 82, x.p1.toNat)
  | 0x15 => some (x.fld 94 94, 128 * x.fld 93 82, panelBytes (tidFmt a) (fetchK x) (tidSfmt a == 1))
  | _ => none

/-- R220, R224: the bytes of an operand store a fill writes. -/
def Cmd.fillRange (c : Cmd) : Option (Nat × Nat × Nat) := fillRangeOf c.word c.tidA

/-- A fill writes bytes that an MMA reads. -/
def fillMeets (f : Cmd) (m : Cmd) : Bool :=
  match f.fillRange with
  | some (side, off, n) => m.mmaReads.any fun r => r.1 == side && decide (0 < overlap off n r.2.1 r.2.2)
  | none => false

/-- R136: the bank a matrix command touches. -/
def Cmd.bank (c : Cmd) : Option (Nat × Nat) :=
  if isMma c.op ∨ c.op ∈ [0x30, 0x31, 0x32] then some (c.args.tc.toNat, c.args.fld 88 88) else none

/-- R211: the queues a CBAR masks; an all-zero mask masks every queue. -/
def cbarMasks (x : CmdArgs) (q : QueueId) : Bool :=
  x.fld 94 68 == 0 ||
  match q with
  | .port k => (x.fld 94 79).testBit k
  | .tileArray t => (x.fld 78 75).testBit t
  | .tileBank t => (x.fld 78 75).testBit t
  | .tileFetch t => (x.fld 78 75).testBit t
  | .region => x.bit 74
  | .copy => x.bit 73
  | .l2 => x.bit 72
  | .coll => x.bit 71
  | .sync => x.bit 70
  | .guest => x.bit 69
  | .tid => x.bit 68
  | .barrier => false

/-! ## The checks of an ISSUE (R46 and each command's entry) -/

/-- R28: the ports and tiles the image declares. -/
def Run.declPorts (r : Run) : Nat := match r.region.hdr with | some h => h.ports | none => 0
def Run.declTiles (r : Run) : Nat := match r.region.hdr with | some h => h.tiles | none => 0

/-- A valid dense unscaled tensor of rank 1. -/
def tidVec (t : Tid) : Bool := tidDense t && tidSfmt t == 0 && tidRank t == 1

/-- R140: one side of an MMA. -/
def mmaSideOk (t : Tid) (off k : Nat) : Bool :=
  tidDense t && tidRank t == 2 && decide (off % 128 = 0) &&
  decide (off + panelBytes (tidFmt t) k (tidSfmt t == 1) ≤ sideBytes)

/-- R140: the limits of an MMA. -/
def mmaOk (op : Nat) (x : CmdArgs) (a b : Tid) : Bool :=
  let f := mmaFmt op
  let fp8 := f == 11 || f == 12
  mmaSideOk a x.p0.toNat (mmaK x) && mmaSideOk b x.p1.toNat (mmaK x) && tidFmt a == f && (fp8 || !x.bit 89) &&
  (tidFmt b == f || (x.bit 89 && (tidFmt b == 11 || tidFmt b == 12)))

/-- R141, R142: the tensor of an MLOAD or MSTORE. -/
def bankTidOk (x : CmdArgs) (a : Tid) : Bool :=
  tidDense a && decide (tidRank a ≤ 2) && decide (8 ≤ tidFmt a) && (tidSfmt a != 1 || decide (x.p1.toNat % 32 = 0))

/-- R144: a factor vector of an MSCALE. -/
def factorOk (t : Tid) (i : Nat) : Bool := tidVec t && tidFmt t == 8 && decide (i + 128 ≤ tidDim t 0)

/-- R299, R122: what a PBIND asks for. A sparse entry in modes 1 to 3 binds its value stream. -/
def pbindOk (x : CmdArgs) (a : Tid) : Bool :=
  let mode := x.fld 94 92
  let e := x.fld 91 87 + 1
  let f := tidFmt a
  let plain := x.fld 86 71 == 0 && x.p0 == 0#32
  let fits := decide (e * fmtBits f ≤ 256) && (f != 14 || decide (e % 4 = 0)) && (f != 13 || decide (e % 2 = 0))
  match mode with
  | 0 => plain && x.ta == 0#6 && e == 1
  | 1 | 2 => plain && tidV a && fits
  | 3 => tidV a && fits
  | 4 => plain && tidV a && tidSparse a != 0 && fits
  | 5 => plain && tidVec a && f == 6 && fits
  | _ => false

/-- R216: a range of bytes of the tensors of a COPY needs only valid dense entries. -/
def copyOk (a c : Tid) : Bool := tidDense a && tidDense c

/-- R221: the tensors of a GATHER or SCATTER. -/
def rowsOk (a b c : Tid) (e0 n : Nat) (gather : Bool) : Bool :=
  tidDense a && tidDense c && tidRank a == 2 && tidRank c == 2 && tidSfmt a == 0 && tidSfmt c == 0 &&
  tidFmt a == tidFmt c && tidDim a 0 == tidDim c 0 && tidVec b && tidFmt b == 6 &&
  decide (e0 + n ≤ tidDim b 0) && decide (n ≤ tidDim (if gather then c else a) 1)

/-- R224: the panel of a TFETCH. -/
def tfetchOk (x : CmdArgs) (a : Tid) : Bool :=
  let f := tidFmt a
  let scaled := tidSfmt a == 1
  tidDense a && tidRank a == 2 && decide (9 ≤ f ∧ f ≤ 14) &&
  (!(scaled || f == 13 || f == 14) || decide (x.p1.toNat % 32 = 0)) &&
  decide (128 * x.fld 93 82 + panelBytes f (fetchK x) scaled ≤ sideBytes)

/-- R148: the tensors and the group of a CONTRIB. -/
def contribOk (s : State) (x : CmdArgs) (a b c : Tid) : Bool :=
  let e0 := x.p0.toNat
  let n := x.p1.toNat
  let vec (t : Tid) : Bool := tidVec t && tidFmt t == 8 && decide (e0 + n ≤ tidDim t 0)
  let g := SMap.get 0#64 s.groups (x.fld 87 80)
  vec a && vec c && (if x.fc then vec b else x.tb == 0#6) && x.scope == 4#3 && decide (x.fld 94 92 ≤ 2) &&
  decide (x.fld 91 89 ≤ 4) && bit g 63 && decide (bits g 61 54 < 48) &&
  (match extentOf s.cc.lease s.cc.extn (tidExt c) with | some e => e.peer.isSome | none => true)

/-- R146: the tensors and the operation of a CRED. -/
def credOk (x : CmdArgs) (a c : Tid) : Bool :=
  let e0 := x.p0.toNat
  let n := x.p1.toNat
  let f := tidFmt a
  let op := x.fld 94 92
  tidVec a && tidVec c && f == tidFmt c && (f == 8 || f == 2 || f == 6) && decide (e0 + n ≤ tidDim a 0) &&
  decide (e0 + n ≤ tidDim c 0) && decide (2 ≤ x.scope.toNat) && decide (op ≤ 2) &&
  (x.fld 91 89 == 0 || (f == 8 && op == 0 && decide (x.fld 91 89 ≤ 3))) && (!x.bit 88 || (f != 8 && op == 0))

/-- R240, R248: a chunk map and a row of it. -/
def chunkOk (x : CmdArgs) (c : Tid) : Bool :=
  tidDense c && decide (2 ≤ x.scope.toNat) && tidFmt c == 7 && tidRank c == 2 && tidDim c 0 == 8 &&
  decide (tidOffset c % 64 = 0) && decide (tidStride c 1 % 64 = 0) && decide (x.p0.toNat < tidDim c 1)

/-- R247: the tensor of a SIGNAL. -/
def signalOk (x : CmdArgs) (c : Tid) : Bool :=
  tidDense c && decide (2 ≤ x.scope.toNat) && decide (x.fld 94 92 ≤ 4) && tidRank c == 1 &&
  [2, 3, 6, 7].contains (tidFmt c) && decide (x.p0.toNat < tidDim c 0)

/-- R381: the current window holds a guest engine slot of the site. -/
def guestSlots (s : State) (h : W64) (site : Nat) : Nat :=
  match startedEnt s h with
  | some e => if e.gsite = site then e.gslot else 0
  | none => 0

/-- R46: the limits of a command's own entry, on the state that every earlier TIDSET and TIDCLR left. -/
def entryOk (s : State) (op : Nat) (x : CmdArgs) : Bool :=
  let r := s.cc
  let a := r.tid x.ta.toNat
  let b := r.tid x.tb.toNat
  let c := r.tid x.tc.toNat
  let portOk := (r.declPorts).testBit x.tc.toNat
  let tileOk := (r.declTiles).testBit x.tc.toNat
  match op with
  | 0x01 => match r.region.hdr with | some h => decide (x.fld 85 80 < h.stages) | none => false
  | 0x02 => portOk && pbindOk x a
  | 0x03 => portOk && decide (x.off48 % 64 = 0)
  | 0x04 | 0x05 | 0x06 => portOk
  | 0x08 => decide (x.off48 % 64 = 0)
  | 0x0A => ((List.range 16).all fun k => !(x.fld 94 79).testBit k || (r.declPorts).testBit k) &&
      (List.range 4).all fun t => !(x.fld 78 75).testBit t || (r.declTiles).testBit t
  | 0x10 => copyOk a c
  | 0x11 => tileOk && tidDense a && decide (128 * x.fld 93 82 + x.p1.toNat ≤ sideBytes)
  | 0x12 => rowsOk a b c x.p0.toNat x.p1.toNat true
  | 0x13 => rowsOk a b c x.p0.toNat x.p1.toNat false
  | 0x14 => tidDense a && tidRank a == 2 && tidSfmt a == 0 && x.fld 78 75 != 0 &&
      decide (x.p0.toNat + x.p1.toNat ≤ tidDim a 1)
  | 0x15 => tileOk && tfetchOk x a
  | 0x16 => tileOk && x.fld 94 93 != 0
  | 0x30 => tileOk && bankTidOk x a
  | 0x31 => tileOk && bankTidOk x a && decide (x.fld 91 89 ≤ 4)
  | 0x32 => tileOk && decide (x.fld 91 89 ≤ 4) && (x.bit 87 || x.bit 86) &&
      (if x.bit 87 then factorOk a x.p0.toNat else x.ta == 0#6) &&
      (if x.bit 86 then factorOk b x.p1.toNat else x.tb == 0#6)
  | 0x38 => contribOk s x a b c
  | 0x39 => credOk x a c
  | 0x40 => signalOk x c
  | 0x41 | 0x42 => chunkOk x c
  | 0x48 => x.scope == 5#3 && decide (x.off48 % 64 = 0) && decide (0 < guestSlots s r.task (x.fld 90 90))
  | _ => if isMma op then tileOk && mmaOk op x a b else true

/-- R206, R207: the registers a command's S and W flags name are usable. -/
def flagRegsOk (r : Run) (x : CmdArgs) : Bool :=
  (!x.fs || (r.sys.csig != 0#64 && decide (r.sys.csig.toNat % 8 = 0))) &&
  (!x.fw || (r.sys.wbar != 0#64 && decide (r.sys.wbar.toNat % 64 = 0)))

/-- R44, R138: the template a carrier names as its follow-on may follow it. -/
def followOk (r : Run) (x : CmdArgs) (f : W128) : Bool :=
  let y := unpackCmd f
  decide (0x20 ≤ opCmd f ∧ opCmd f ≤ 0x32) && cmdStaticOk (opCmd f) y && y.tc == x.tc && flagRegsOk r y

/-! ## Acceptance (R203, R208) -/

/-- The commands of a context that have not completed and stand in a queue. -/
def Run.inQueue (r : Run) (q : QueueId) : List Cmd := r.cmds.filter fun c => c.queue == q

/-- R203: an earlier TIDSET or TIDCLR of a named TID has not completed. -/
def Run.tidBusy (r : Run) (names : List (BitVec 6)) : Bool :=
  r.cmds.any fun c => c.queue == .tid && names.contains c.args.ta

/-- R218: bytes of a range that lie in far-tier pages, or in a peer window. -/
def touchesFar (e : Extent) (va n : Nat) : Bool :=
  e.peer.isNone && e.runs.any fun r => attrTier r.attr && decide (0 < overlap va n r.vstart r.len)

/-- R131: a tile of a fresh dispatch. -/
def Tile.zero : Tile := ⟨[], [], [], [], [], false, [], []⟩

/-- A tile of a context. -/
def Run.tile (r : Run) (t : Nat) : Tile := SMap.get Tile.zero r.tiles t
def Run.setTile (r : Run) (t : Nat) (x : Tile) : Run := { r with tiles := SMap.ins r.tiles t x }

/-- R143: the tile generators are seeded by the first accepted command that names the tile. -/
def Run.seedTile (r : Run) (t : Nat) : Run :=
  let x := r.tile t
  if x.seeded then r
  else r.setTile t { x with seeded := true, gens := (List.range 128).map fun j => genSeed r.sys.seed (3072 + 128 * t + j) }

/-- R148: the collective generators are seeded by the first accepted CONTRIB. -/
def Run.seedColl (r : Run) : Run :=
  if r.coll.seeded then r
  else { r with coll := ⟨(List.range 512).map fun i => (i, genSeed r.sys.seed (3584 + i)), true⟩ }

/-- A command at its acceptance, with the registers and entries it reads then (R80, R206, R207). -/
def Run.mkCmd (r : Run) (id : Nat) (w : W128) (carrier : Option Nat) : Cmd :=
  let x := unpackCmd w
  { id := id, word := w, queue := queueOf (opCmd w) x, phase := .waiting, csig := r.sys.csig, wbar := r.sys.wbar,
    wtok := r.sys.wtok, pc := r.pc, carrier := carrier, held := carrier.isSome, tidA := r.tid x.ta.toNat,
    tidB := r.tid x.tb.toNat, tidC := r.tid x.tc.toNat, wDone := false, status := 0#2, ce := 0, prom := none,
    missed := false, step := 0, bad := false, recv := [], sent := 0, words := [] }

/-- R210, R219, R222, R146, R148: commands that complete at acceptance. -/
def atAcceptance (op : Nat) (x : CmdArgs) : Bool :=
  op == 0x09 || ([0x10, 0x12, 0x13, 0x38, 0x39].contains op && x.p1 == 0#32)

/-- The accepted commands of a context before one. -/
def Run.before (r : Run) (c : Cmd) : List Cmd := r.cmds.filter fun d => decide (d.id < c.id)

/-- R202: queues that run one command at a time. -/
def oneAtATime : QueueId → Bool
  | .port _ => true
  | .region => true
  | .tileArray _ => true
  | .tileBank _ => true
  | .tid => true
  | .barrier => true
  | _ => false

/-- R204: the command is at the head of its queue's start order. -/
def Run.heads (r : Run) (c : Cmd) : Bool :=
  (r.before c).all fun d => d.queue != c.queue || (d.phase != .waiting && !oneAtATime c.queue)

/-- R211: an earlier CBAR that has not completed holds a queue. -/
def Run.barred (r : Run) (c : Cmd) (q : QueueId) : Bool :=
  (r.before c).any fun d => d.op == 0x0A && cbarMasks d.args q

/-- R218: the copy engine, the latency and the rate of a copy. -/
def copyEngine (r : Run) (src dst n : Nat) (a c : Tid) : Nat × Nat × Nat :=
  let ext (t : Tid) := extentOf r.lease r.extn (tidExt t)
  let far (t : Tid) (off : Nat) : Bool :=
    match ext t with | some e => touchesFar e (e.base + off) n | none => false
  let peer (t : Tid) : Bool := match ext t with | some e => e.peer.isSome | none => false
  let f := far a src || far c dst
  if f || peer a || peer c then (100 + 4 * (r.fc / 24) + r.fc % 12 % 4, (if f then 7000 else 4000), 32)
  else (8 * (r.fc / 12) + r.fc % 12 % 8, 600, 64)

/-- R218: a COPY may start for all that a W wait or a CBAR says: its own, or that of a command before it in the copy queue. -/
def Run.copyMay (r : Run) (c : Cmd) : Bool :=
  c.op == 0x10 && c.prom.isNone && c.phase == .waiting && !r.barred c .copy && (!c.args.fw || c.wDone) &&
  (r.before c).all fun d => d.queue != .copy || d.phase != .waiting || !d.args.fw || d.wDone

/-- R218: when a COPY may start its token is delivered with the promise P. -/
def State.promise (s : State) (k : CmdRef) (r : Run) (c : Cmd) : State :=
  let x := c.args
  let n := x.p1.toNat
  let e := copyEngine r (tidOffset c.tidA + x.p0.toNat) (tidOffset c.tidC + x.fixed.toNat) n c.tidA c.tidC
  let p := max s.cyc (SMap.get 0 r.prevP e.1) + e.2.1 + (n + e.2.2 - 1) / e.2.2
  let s1 := s.modRun k.task fun q => { q with prevP := SMap.put 0 q.prevP e.1 p }
  (s1.modCmd k fun y => { y with ce := e.1, prom := some p }).deliver k.task k.id (BitVec.ofNat 64 (p % 2 ^ 62))

/-- R177, R218: a COPY's token is delivered at its acceptance, or once the last W wait or CBAR that holds it has ended; the CC's
earlier accesses, which its own accesses follow, do not hold it. The copies behind it are tried. -/
def State.copyToken (s : State) (k : CmdRef) (r : Run) (c : Cmd) : State :=
  if r.copyMay c then
    (s.promise k r c).pushAll ((r.cmds.filter fun d => decide (c.id < d.id) && d.queue == .copy && d.phase == .waiting).map
      fun d => .commandStart ⟨k.task, d.id⟩)
  else s

/-- One accepted command of a context. -/
def Run.cmd? (r : Run) (id : Nat) : Option Cmd := r.cmds.find? fun c => decide (c.id = id)

/-- What an accepted command's word does to the generators it may draw from. -/
def Run.seedFor (r : Run) (w : W128) : Run :=
  let r1 := match tileNamed (opCmd w) (unpackCmd w) with | some t => r.seedTile t | none => r
  if opCmd w = 0x38 then r1.seedColl else r1

/-- R42, R203: hand a command, and its follow-on, to the scoreboard: rd becomes empty, a COPY that nothing holds has its
token (R218), and the ISSUE retires. -/
def State.accept (s : State) (d : Reg) (w : W128) (fw : Option W128) : State :=
  let id := s.cc.nextId
  let h := s.cc.task
  let r0 := s.cc.seedFor w
  let c := r0.mkCmd id w none
  let s1 := s.modCc fun _ => { r0 with cmds := r0.cmds ++ [c] }
  let r := s1.launch d none
  let s2 := match fw with
    | none => r.2
    | some f => r.2.modCc fun r =>
        let r1 := r.seedFor f
        { r1 with nextId := id + 2, cmds := r1.cmds ++ [r1.mkCmd (id + 1) f (some id)] }
  let s3 := if opCmd w = 0x07 ∧ s2.cc.region.running then s2.askEdge h else s2
  let s4 := if atAcceptance (opCmd w) (unpackCmd w) then
      match cmdInstr (opCmd w) ⟨h, id⟩ (unpackCmd w) with
      | some i => ({ s3 with work := i :: s3.work }.modCmd ⟨h, id⟩ fun c => { c with phase := .started }).deliver h id
          (tokenWord s3 0#2)
      | none => s3
    else (s3.copyToken ⟨h, id⟩ s3.cc c).push (.commandStart ⟨h, id⟩)
  (match fw with | some _ => s4.push (.commandStart ⟨h, id + 1⟩) | none => s4).retire

/-- R206, R377: the checks of the S signal word of one command, then go on. -/
def withSignal (x : CmdArgs) (s : State) (k : State → Result) : Result :=
  if !x.fs then k s
  else
    let ea := s.cc.sys.csig
    match coveredRW s.cc.lease ea.toNat 8 true true with
    | .error r => .next (s.ccLeaseFault ea 8 6 r)
    | .ok e =>
      match pathRefuses s (e.place ea.toNat) (max x.scope.toNat 2) true with
      | some c => .next (s.trapAcc c ea 8 6)
      | none => k s

/-- R148, R377: the address of a CONTRIB's first destination element, when the partner of its port does not reduce. -/
def contribPath (s : State) (x : CmdArgs) : Option W64 :=
  let g := SMap.get 0#64 s.groups (x.fld 87 80)
  let t := s.cc.tid x.tc.toNat
  if bit g 62 ∨ Config.linkReduces (bits g 61 54) ∨ x.p1 = 0#32 then none
  else match extentOf s.cc.lease s.cc.extn (tidExt t) with
    | some e => some (BitVec.ofNat 64 (e.base + tidOffset t + 4 * x.p0.toNat))
    | none => none

/-- R42: a template after patching. -/
def patched (t : W128) (r : Run) (a b : Reg) : W128 :=
  let x := unpackCmd t
  packCmd (opCmd t) { x with
    p0 := if a = 0#5 then x.p0 else (r.reg a).setWidth 32
    p1 := if b = 0#5 then x.p1 else (r.reg b).setWidth 32 }

/-- R389: a guest site. -/
def GSite.absent : GSite := ⟨false, []⟩
def State.guest (s : State) (site : Nat) : GSite := SMap.get GSite.absent s.guests site

/-- R42 to R46, R203, R206 to R208: ISSUE on a patched word. R381: a GQPOST to an absent guest site raises the guest
fault instead of every other check; a site whose image is not authenticated is absent (R379) like a blanked one
(DEDUCED, log entry 49). -/
def issueWord (d : Reg) (n : BitVec 11) (w : W128) (s : State) : Result :=
  let ill := .next (s.trap 0x08 0 0 (n.setWidth 64) false)
  let x := unpackCmd w
  let op := opCmd w
  let fw : Option W128 := if x.ff then some (SMap.get 0#128 s.cc.cmdMem (n.toNat + 1)) else none
  let fNames := match fw with | some f => tidsNamed (opCmd f) (unpackCmd f) | none => []
  if op = 0x48 ∧ !(s.guest (x.fld 90 90)).present then
    .next (s.trap 0x0D 0 0 (BitVec.ofNat 64 (x.fld 90 90)) false)
  else if !cmdStaticOk op x || (x.ff && decide (n.toNat + 1 > 2047)) ||
      !(match fw with | some f => followOk s.cc x f | none => true) || !flagRegsOk s.cc x then ill
  else if s.cc.relCur && ((queueOf op x).booked || x.ff) then ill
  else if s.cc.tidBusy (tidsNamed op x ++ fNames) then .next s.stall
  else if !entryOk s op x || !(match fw with | some f => entryOk s (opCmd f) (unpackCmd f) | none => true) then ill
  else withSignal x s fun s =>
    (match fw with | some f => withSignal (unpackCmd f) s | none => fun k => k s) fun s =>
      let full (q : QueueId) : Bool := decide (16 ≤ (s.cc.inQueue q).length)
      if full (queueOf op x) || (match fw with | some f => full (queueOf (opCmd f) (unpackCmd f)) | none => false) then
        .next s.stall
      else match (if op = 0x38 then contribPath s x else none) with
        | some ea => .next (s.trapAcc 0x0C ea 4 2)
        | none => .next (s.accept d w fw)

/-- R42, R208: ISSUE. R175: the command waits in its queue for the context's earlier accesses. -/
def execIssue (d a b : Reg) (n : BitVec 11) (s : State) : Result :=
  withSrcs [(a, false), (b, false)] s fun s => withDest d s fun s =>
    issueWord d n (patched (SMap.get 0#128 s.cc.cmdMem n.toNat) s.cc a b) s

/-! ## Starting (R204, R207, R211) -/

/-- R202: the queue of a port. -/
def isPortQueue : QueueId → Bool
  | .port _ => true
  | _ => false

/-- R136, R137: what holds a matrix command: its bank, fills it reads that have not landed, its carrier's landing. -/
def Run.tileReady (r : Run) (c : Cmd) : Bool :=
  !c.held &&
  (r.before c).all fun d =>
    (c.bank.isNone || d.bank != c.bank) &&
    !(d.step == 0 && d.fillRange.isSome && d.args.tc == c.args.tc && fillMeets d c)

/-- R223: the receivers of an L2PUSH: one for each named FC, or none as long as one is missing. -/
def receivers (s : State) (r : Run) (c : Cmd) : Option (List (W64 × Nat)) :=
  let x := c.args
  let fcs := ((List.range 4).filter fun m => (x.fld 78 75).testBit m).map fun m => 4 * (r.fc / 4) + m
  let found := fcs.filterMap fun f => s.allRuns.findSome? fun q =>
    if q.fc = f ∧ q.ctx = r.ctx then
      (q.ports.find? fun p => decide (p.2.mode = 3 ∧ p.2.key = x.fld 94 79)).map fun p => (q.task, p.1)
    else none
  if found.length = fcs.length then some found else none

/-- R381: GQPOSTs of the task on a site that have started and not completed. -/
def guestRunning (r : Run) (site : Nat) : Nat :=
  (r.cmds.filter fun c => c.queue == .guest && c.phase != .waiting && c.args.fld 90 90 == site).length

/-- R380: the lowest free context tag of a site. -/
def freeTag (g : GSite) : Option Nat := (List.range 256).find? fun t => (SMap.get? g.tags t).isNone

/-- R387: the tag that holds the saved work of a command. -/
def savedTag (g : GSite) (k : CmdRef) : Option (Nat × GTag) :=
  g.tags.find? fun t => t.2.saved && decide (t.2.owner = .cmd k)

/-- R202: the landing of an earlier COPYM of the same tile has not begun. -/
def Run.copymBefore (r : Run) (c : Cmd) : Bool :=
  (r.before c).any fun d => d.op == 0x11 && d.args.tc == c.args.tc && d.step == 0

/-- R303: a stage runs, from the start of its CFG on. -/
def Run.stageRuns (r : Run) : Bool := r.region.cfg.isSome || r.cmds.any fun d => d.op == 0x01 && d.phase == .started

/-- What a command's own entry asks for before it starts. R303: a port command waits while a stage runs; a CFG that
has not started is no running stage, but a PSTART accepted after a CFG marks its port for the stage after that CFG's (R332 to
R335; DEDUCED, log entry 13). R148: one CONTRIB runs at a time. R202: the landing of a COPYM has a place in the start order
of its tile's fetch queue. -/
def startGuard (s : State) (r : Run) (c : Cmd) : Bool :=
  match c.op with
  | 0x01 => (r.before c).all fun d => !isPortQueue d.queue
  | 0x02 | 0x03 | 0x04 => !r.stageRuns
  | 0x05 => !r.stageRuns && (r.before c).all fun d => d.op != 0x01 || d.phase == .done
  | 0x14 => (receivers s r c).isSome
  | 0x15 => !r.copymBefore c
  | 0x16 => (r.before c).all fun d => !(d.fillRange.isSome && d.args.tc == c.args.tc && d.step == 0)
  | 0x38 => (r.before c).all fun d => d.op != 0x38
  | 0x48 => let g := c.args.fld 90 90
      decide (guestRunning r g < guestSlots s r.task g) && (s.guest g).present &&
      (match savedTag (s.guest g) ⟨r.task, c.id⟩ with
       | some t => t.2.inval.isNone
       | none => (freeTag (s.guest g)).isSome)
  | op => if isMma op ∨ op ∈ [0x30, 0x31, 0x32] then r.tileReady c else true

/-- R204: the command starts; its own step follows, and the next of its queue may start, and a COPYM whose landing
stands behind it. -/
def State.beginCmd (s : State) (k : CmdRef) (r : Run) (c : Cmd) : State :=
  let s1 := s.modCmd k fun y => { y with phase := .started }
  let s2 := match decodeCmd k c.word with | some i => s1.push i | none => s1
  s2.pushAll ((r.cmds.filter fun d => decide (c.id < d.id) &&
    ((d.queue == c.queue && d.phase == .waiting) || (d.op == 0x11 && d.phase == .started && d.step == 0))).map fun d =>
      .commandStart ⟨k.task, d.id⟩)

/-- R207, R363, R370: the barrier object of a W wait: it must lie in the lease like that of a WAITPH; a window of this
device goes through its import table, and an object of another device is waited for there. -/
def wbarAt (s : State) (r : Run) (c : Cmd) : Except AccErr Place :=
  match coveredRW r.lease c.wbar.toNat 40 true true with
  | .error z => .error (.lease c.wbar.toNat 40 6 z)
  | .ok e =>
    match e.place c.wbar.toNat with
    | .phys pa attr => .ok (.phys pa attr)
    | .peer p off =>
      if isSelf s p then
        match ingress s s.dev.devno.toNat p.win off 40 true true false p.key with
        | .ok pa => .ok (.phys pa 0#8)
        | .error z => .error (.import c.wbar.toNat 40 6 z)
      else .ok (.peer p off)

/-- R207, R228: the wait of a command on a local object: it ends at once, is armed, drops the command, or, for want of a
place at the engine, is held there. -/
def State.wwaitAt (s : State) (k : CmdRef) (c : Cmd) (pa : Nat) : State :=
  s.attempt ⟨homeDie pa, pa, true, false, .waitph c.wtok, .wwait k⟩

/-- R207: a command at the head of its start order begins the wait for its barrier, unless it waits already. -/
def State.waitCmd (s : State) (k : CmdRef) (r : Run) (c : Cmd) : State :=
  if (s.barWaits.any fun w => decide (w.owner = .wwait k)) || (s.heldOps.any fun w => decide (w.owner = .wwait k)) ||
      s.peers.any fun w => decide (w.owner = .wwait k) then s
  else match wbarAt s r c with
    | .error e => s.cmdFault k c e
    | .ok (.phys pa _) => s.wwaitAt k c pa
    | .ok (.peer p off) => s.sendPeer p off c.wbar c.pc true (.waitph c.wtok) false (.wwait k)

/-- R381: a GQPOST whose W wait has ended reads its packet; it then waits for a slot and a tag. Work that was saved
needs no packet (R387). -/
def State.readPacket (s : State) (k : CmdRef) (r : Run) (c : Cmd) : State :=
  match readExt s r.lease r.extn (c.args.fld 94 91) c.args.off48 64 with
  | (.error e, s1) => s1.cmdFault k c e
  | (.ok bs, s1) => (s1.modCmd k fun y => { y with
      words := (List.range 8).map fun i => BitVec.ofNat 64 (leNat ((bs.drop (8 * i)).take 8)) }).push (.commandStart k)

/-- R204, R207, R381: what a command at the head of its start order does next: its W wait, its packet's read, its
start. -/
def State.nextStart (s : State) (k : CmdRef) (r : Run) (c : Cmd) : State :=
  if c.args.fw && !c.wDone then s.waitCmd k r c
  else if c.op == 0x48 && c.words.isEmpty && (savedTag (s.guest (c.args.fld 90 90)) k).isNone then s.readPacket k r c
  else if startGuard s r c then s.beginCmd k r c
  else s

/-- R168, R175: the accesses of the CC that precede a command have been performed. -/
def Run.accsBefore (r : Run) (c : Cmd) : Bool := r.accs.all fun a => decide (c.id < a.id)

/-- R204: a waiting command is tried; a started one whose effect still waits is tried again. -/
def State.startCmd (s : State) (k : CmdRef) : State :=
  match s.run? k.task with
  | none => s
  | some r =>
    match r.cmd? k.id with
    | none => s
    | some c =>
      match c.phase with
      | .waiting =>
        if r.ending.isSome then s
        else
          let s1 := s.copyToken k r c
          if r.accsBefore c && r.heads c && !r.barred c c.queue then s1.nextStart k r c else s1
      | .started =>
        if c.step = 0 then
          match decodeCmd k c.word with | some i => s.push i | none => s
        else s
      | .done => s

/-- COMMAND_START (R204). -/
def execCommandStart (k : CmdRef) (s : State) : Result := .next (s.startCmd k)

/-! ## Running -/

/-- The started command of a context whose effect has not been performed. -/
def State.running? (s : State) (k : CmdRef) : Option (Run × Cmd) :=
  match s.run? k.task with
  | none => none
  | some r =>
    match r.cmd? k.id with
    | some c => if c.phase = .started ∧ c.step = 0 then some (r, c) else none
    | none => none

/-- A command's own step: nothing unless it has started and is not yet performed. -/
def withCmd (k : CmdRef) (s : State) (f : Run → Cmd → State → State) : Result :=
  match s.running? k with
  | none => .next s
  | some (r, c) => .next (f r c s)

/-- Finish a command whose accesses may have failed. -/
def State.cmdEnd (s : State) (k : CmdRef) (c : Cmd) (r : Except AccErr Unit) : State :=
  match r with
  | .ok _ => s.cmdDone k 0#2
  | .error e => s.cmdFault k c e

/-! ## Completion (R205, R206, R138, R225) -/

/-- R225: the pins that the completion of a command releases. -/
def pinGone (c : Cmd) (p : Pin) : Bool :=
  if p.follow then c.carrier == some p.cmd
  else decide (p.cmd < c.id) && c.mmaReads.any fun r => r.1 == p.side && decide (0 < overlap p.off p.len r.2.1 r.2.2)

/-- R225: a matrix command of a tile has completed; one that was dropped has read nothing. -/
def Run.releasePins (r : Run) (c : Cmd) : Run :=
  match tileNamed c.op c.args with
  | some t => if (r.tile t).pins.isEmpty ∨ c.status ≠ 0#2 then r else
      r.setTile t { r.tile t with pins := (r.tile t).pins.filter fun p => !pinGone c p }
  | none => r

/-- R264, R218: the armed event of a copy's completion. -/
def State.copyEvent (s : State) (h : W64) (c : Cmd) : State :=
  match c.op, c.prom with
  | 0x10, some p => (s.armedEvent h 1 fun a => a.src == 0#64 || a.src == BitVec.ofNat 64 p).2
  | _, _ => s

/-- R248: a command that ended with a status other than 00 is remembered by the ARRIVECs that wait for it. -/
def blame (c : Cmd) (l : List Cmd) : List Cmd :=
  if c.status = 0#2 ∨ c.queue = .sync ∨ c.queue = .guest then l
  else l.map fun a => if a.isArrivec ∧ c.id < a.id then { a with bad := true } else a

/-- R284: a due promise trap of a command that completes is dropped. -/
def dropPromise (c : Cmd) (l : List DueTrap) : List DueTrap :=
  if c.missed then l.eraseP fun d => !d.region && d.cmd == c.id else l

/-- R138: the other command of a pair: a carrier completes with its follow-on, a follow-on falls with its carrier. -/
def partners (r : Run) (c : Cmd) : List Cmd :=
  r.cmds.filter fun d => d.phase != .done && (c.carrier == some d.id || d.carrier == some c.id)

/-- R205, R206: a command completes: its token, its S signal, and everything that waited for it. -/
def State.completeCmd (s : State) (k : CmdRef) : State :=
  match s.run? k.task with
  | none => s
  | some r =>
    match r.cmd? k.id with
    | none => s
    | some c =>
      if c.phase != .done then s
      else
        let s1 := (s.token k.task c).copyEvent k.task c
        let s2 := if c.args.fs then s1.signal r.lease k c.csig c.args.scope.toNat else s1
        let s3 := s2.modRun k.task fun q => { q.releasePins c with
          cmds := blame c (q.cmds.filter fun d => !decide (d.id = k.id)), due := dropPromise c q.due, stall := 0 }
        let s4 := (partners r c).foldl (fun st d => st.cmdDone ⟨k.task, d.id⟩ c.status) s3
        (s4.kick k.task).settle k.task

/-- COMMAND_COMPLETE (R205). -/
def execCommandComplete (k : CmdRef) (s : State) : Result := .next (s.completeCmd k)

/-- R138: the carrier's last byte has landed: its follow-on is issued by the tile. Without one, or where the end of its task
has dropped it, the carrier is complete. R410: a window that is ending waits for nothing more of the pair. -/
def State.landed (s : State) (k : CmdRef) (c : Cmd) : State :=
  (if c.args.ff && (s.run? k.task).any fun r => r.cmds.any fun d => d.carrier == some k.id then
    (s.modCmd k fun y => { y with step := 1 }).push (.followOnIssue k) else s.cmdDone k 0#2).settle k.task

/-- FOLLOW_ON_ISSUE (R138). -/
def execFollowOnIssue (k : CmdRef) (s : State) : Result :=
  .next ((s.modCtx k.task fun r => { r with
    cmds := r.cmds.map fun d => if d.carrier = some k.id ∧ (r.cmd? k.id).any (·.step == 1) then { d with held := false } else d }).kick k.task)

/-! ## Missed promises (R218, R284, R382) -/

/-- A command whose promise has passed and which has not completed. -/
def Cmd.late (c : Cmd) (cyc : Nat) (guest : Bool) : Bool :=
  (c.queue == .guest) == guest && !c.missed && c.phase != .done &&
  match c.prom with
  | some p => decide (p < cyc)
  | none => false

/-- The due trap of the missed promise P of a command; detail 0 copy, 1 guest. R396: word 1 of its record is the cycle at
which the miss was found. -/
def promiseTrap (cyc id p : Nat) (guest : Bool) : DueTrap :=
  ⟨false, id, causeWord 0x0A 0 (boolNat guest), BitVec.ofNat 64 p, p, vec8 [0#64, BitVec.ofNat 64 cyc]⟩

/-- Make the traps of a context's missed promises due. R409: a window that is ending takes none. -/
def Run.missAll (cyc : Nat) (guest : Bool) (r : Run) : Run :=
  if r.ending.isSome then r else
  { r with
    due := r.due ++ (r.cmds.filter fun c => c.late cyc guest).map fun c => promiseTrap cyc c.id (c.prom.getD 0) guest
    cmds := r.cmds.map fun c => if c.late cyc guest then { c with missed := true } else c }

/-- Change every context that holds a task. -/
def State.modAll (s : State) (f : Run → Run) : State := { s with cc := f s.cc, runs := s.runs.map f }

/-- PROMISE_MISSED (R284). -/
def execPromiseMissed (s : State) : Result := .next (s.modAll (Run.missAll s.cyc false))

/-- GUEST_PROMISE_MISSED (R382). -/
def execGuestPromiseMissed (s : State) : Result := .next (s.modAll (Run.missAll s.cyc true))

/-! ## TIDSET, TIDCLR, CBAR (R209 to R211) -/

/-- R209: TIDSET. -/
def execTidset (k : CmdRef) (x : CmdArgs) (s : State) : Result :=
  withCmd k s fun r c s =>
    match readExt s r.lease r.extn (x.fld 94 91) x.off48 64 with
    | (.error e, s1) => s1.cmdFault k c e
    | (.ok bs, s1) =>
      let t := vec8 ((List.range 8).map fun i => BitVec.ofNat 64 (leNat ((bs.drop (8 * i)).take 8)))
      let ok := tidOk t
      (s1.modRun k.task fun q => { q with tids := SMap.put Tid.zero q.tids x.ta.toNat (if ok then t else Tid.zero) }).cmdDone
        k (if ok then 0#2 else 2#2)

/-- R210: TIDCLR. -/
def execTidclr (k : CmdRef) (x : CmdArgs) (s : State) : Result :=
  withCmd k s fun _ _ s =>
    (s.modRun k.task fun q => { q with tids := SMap.del q.tids x.ta.toNat }).cmdDone k 0#2

/-- R211: CBAR completes when every earlier command on a masked queue has. -/
def execCbar (k : CmdRef) (x : CmdArgs) (s : State) : Result :=
  withCmd k s fun r c s =>
    if (r.before c).any fun d => cbarMasks x d.queue then s else s.cmdDone k 0#2

end Sys2Proof.Machine
end

