-- ==== Sys2Proof/Machine/Region.lean ====
section
/-! DEFINITION. A running region: messages on links, which event of a site is next, sending (R18, R96, R295, R308),
round edges and commit (R296, R403 to R407), passes (R294, R295), CFG and PMARK (R298, R304), region faults (R392) and
the retry of a round (R418 to R420). -/

namespace Sys2Proof.Machine

/-! ## An input queue

Trial dusks that lead a queue wait for the other inputs without holding back the data behind them (R19, R308). -/

/-- The trial dusks that lead a queue. -/
def leadDusks : List Msg → Nat
  | .dusk false :: q => leadDusks q + 1
  | _ => 0

/-- A queue behind the trial dusks that lead it. -/
def bodyOf : List Msg → List Msg
  | .dusk false :: q => bodyOf q
  | q => q

/-- A queue without its first leading trial dusk; a final dusk stays (R296). -/
def popLead : List Msg → List Msg
  | .dusk false :: q => q
  | q => q

/-- A queue without the first message behind its leading trial dusks. -/
def popBody : List Msg → List Msg
  | [] => []
  | .dusk false :: q => .dusk false :: popBody q
  | _ :: q => q

/-- Dusk of some kind has arrived. -/
def hasDusk (q : List Msg) : Bool := leadDusks q != 0 || (bodyOf q).head? == some (.dusk true)

/-- The dusk that has arrived is final. -/
def finalFirst (q : List Msg) : Bool := q.head? == some (.dusk true)

/-- The data bundle that comes next. -/
def headData (q : List Msg) : Option Bundle :=
  match bodyOf q with
  | .data b :: _ => some b
  | _ => none

/-- The marker that comes next. -/
def headMarker (q : List Msg) : Option (BitVec 8) :=
  match bodyOf q with
  | .marker n :: _ => some n
  | _ => none

/-! ## Sites -/

/-- The key of an image position (R74). -/
def siteKey (row col : Nat) : Nat := 24 * row + col

def Site.key (st : Site) : Nat := siteKey st.row st.col
def Site.at (h : W64) (st : Site) : SiteRef := ⟨h, st.row, st.col⟩
def Site.word (st : Site) : W64 := st.words.getD 0 0#64
def Site.args (st : Site) : SiteArgs := unpackSite st.word
/-- R289: the site has a block in the loaded stage. -/
def Site.live (st : Site) : Bool := !st.words.isEmpty
/-- The site runs an operation of a kind. -/
def Site.runs (st : Site) (kind op : Nat) : Bool := st.live && kindOfCol st.col == kind && opSite st.word == op
def Site.isMb (st : Site) : Bool := st.live && kindOfCol st.col == 1
def Site.isRecirc (st : Site) : Bool := st.runs 3 5
def Site.isMark (st : Site) : Bool := st.runs 3 8
def Site.isPair (st : Site) : Bool := st.runs 2 3 || st.runs 2 4

/-- R96, R190: the used inputs of a site: those its words name; an FL whose only source is a constant uses i0. -/
def Site.used (st : Site) : List Nat :=
  let named := st.words.flatMap fun w =>
    let x := unpackSite w
    [x.selA, x.selB, x.selC].filterMap selLink
  if st.live ∧ kindOfCol st.col = 3 ∧ named.isEmpty then [0] else (List.range 4).filter named.contains

/-- The queue of an input. -/
def Site.q (st : Site) (i : Nat) : List Msg := st.ins.getD i []
def Site.setQ (st : Site) (i : Nat) (q : List Msg) : Site := { st with ins := st.ins.set i q }

/-- Change the queues of the used inputs. -/
def Site.mapQ (st : Site) (f : List Msg → List Msg) : Site :=
  st.used.foldl (fun t i => t.setQ i (f (t.q i))) st

/-- R306: the RECIRC uses its port's window for records it holds (pv). -/
def Site.pv (st : Site) : Bool := st.args.m 4 4 == 1

/-- R308: dusk has arrived on every used input, and the site is ready to forward it. A RECIRC handles its own. -/
def Site.duskable (st : Site) : Bool :=
  if st.isRecirc then
    (match st.q 1 with | .dusk _ :: _ => true | _ => false) ||
    (match st.q 0 with | .dusk _ :: _ => !st.pv || st.core.fl.hold.isEmpty | _ => false)
  else
    st.live && !st.fin && (st.used.all fun i => hasDusk (st.q i)) &&
    (!st.isMb || (st.core.win.isEmpty && st.core.missq.isEmpty && st.core.parked.isEmpty))

/-- R18, R193, R308: the marker of a round, or final dusk, has arrived on every used input. -/
def Site.markable (st : Site) : Option (BitVec 8) :=
  if st.isRecirc then
    match st.q 1, st.q 0 with
    | .marker n :: _, _ => some n
    | _, .marker n :: _ => some n
    | _, _ => none
  else
    match st.used.findSome? fun i => headMarker (st.q i) with
    | none => none
    | some n =>
      let there (i : Nat) : Bool := headMarker (st.q i) == some n || (bodyOf (st.q i)).head? == some (.dusk true)
      if st.used.all there && (!st.isMb || st.core.win.isEmpty) then some n else none

/-- R124, R128: a sparse pair whose input has ended at dusk still holds records of the other: that dusk decides them, so
they leave in the round in which it has arrived, before a marker does. -/
def Site.pairWork (st : Site) : Bool :=
  st.isPair && ((hasDusk (st.q 0) && !st.core.sp.winB.isEmpty) || (hasDusk (st.q 1) && !st.core.sp.winA.isEmpty) ||
    !st.core.sp.todo.isEmpty)

/-- Data, or held work, that the site can act on. -/
def Site.hasWork (st : Site) : Bool :=
  (st.used.any fun i => (headData (st.q i)).isSome) ||
  (st.isRecirc && !st.core.fl.hold.isEmpty) ||
  (st.isMb && (!st.core.win.isEmpty || st.core.parked.any (·.val.isSome))) ||
  st.pairWork

/-- R96: every used input has something at its head: nothing more can join the bundle that comes next. -/
def Site.joined (st : Site) : Bool := st.used.all fun i => !(st.q i).isEmpty

/-! ## The region of a context -/

/-- The context of a task whose region runs a stage. -/
def State.live? (s : State) (h : W64) : Option Run :=
  match s.run? h with
  | some r => if r.region.running && r.ending.isNone then some r else none
  | none => none

def Run.site? (r : Run) (k : Nat) : Option Site := SMap.get? r.region.sites k
def Run.putSite (r : Run) (st : Site) : Run :=
  { r with region := { r.region with sites := SMap.ins r.region.sites st.key st } }
def State.putSite (s : State) (h : W64) (st : Site) : State := s.modRun h fun r => r.putSite st

/-- R213: a port that nothing has bound. -/
def Port.unbound : Port :=
  ⟨0, Tid.zero, 0, 0, 0, 0, 0, .none, false, false, false, 0, 0, [], [], none, [], [], [], 0, []⟩

def Run.port (r : Run) (k : Nat) : Port := SMap.get Port.unbound r.ports k
def Run.putPort (r : Run) (k : Nat) (p : Port) : Run := { r with ports := SMap.ins r.ports k p }
def State.putPort (s : State) (h : W64) (k : Nat) (p : Port) : State := s.modRun h fun r => r.putPort k p

def Gen.isIndirect : Gen → Bool
  | .indirect _ _ => true
  | _ => false

/-- R295, R301: a port sends records into its site; it takes records from it. -/
def Port.sends (p : Port) : Bool := p.mode == 1 || p.mode == 3 || p.mode == 4 || p.mode == 5
def Port.takes (p : Port) : Bool := p.mode == 2 || (p.mode == 1 && p.gen.isIndirect)

/-- R291: the image port at a site. -/
def Run.portOf (r : Run) (st : Site) : Option Nat :=
  match r.region.hdr with
  | some h => portAt h.width st.row st.col
  | none => none

/-- R291: the key of the site a port is attached to. -/
def Run.siteOfPort (r : Run) (k : Nat) : Nat :=
  match r.region.hdr with
  | some h => if k < 8 then siteKey k 0 else siteKey (k - 8) (6 * h.width - 1)
  | none => 0

/-- R291, R295, R301: the started port that takes what a site sends on o3. -/
def Run.sinkPort (r : Run) (st : Site) : Option Nat :=
  match r.portOf st with
  | some k => if (r.port k).started && (r.port k).takes then some k else none
  | none => none

/-- R295: the outputs of a site that are routed: by a route, or to a started port that takes records. -/
def Run.outs (r : Run) (st : Site) : List Nat :=
  (List.range 4).filter fun o => st.routes.any (fun q => decide (q.out = o)) || (decide (o = 3) && (r.sinkPort st).isSome)

/-- R306: where late and absent records go. -/
def Run.lateOut (r : Run) (st : Site) (dflt : Nat) : Nat := if (r.outs st).contains 3 then 3 else dflt

/-- R296: after the ROUND-th counted bundle a MARK emits its marker before anything else. -/
def Run.markDue (r : Run) (st : Site) : Bool :=
  st.isMark && !st.fin && (match r.region.hdr with | some h => decide (h.round ≤ st.core.fl.count) | none => false)

/-- The next event of a site. -/
def Run.siteEvent (r : Run) (st : Site) : Option Instr :=
  let a := st.at r.task
  match st.al with
  | some w => decodeSite a (st.words.getD w.next 0#64)
  | none =>
    if st.mb.isSome then decodeSite a st.word
    else if r.markDue st then some (.roundCountExpiry a)
    else if st.pairWork then decodeSite a st.word
    else if st.duskable then some (.duskToken a)
    else if st.markable.isSome then some (.roundMarker a)
    else if st.hasWork then (if st.isMb then some (.mbServiceCycle a) else decodeSite a st.word)
    else none

/-- Queue an event unless it is queued already. -/
def State.pushNew (s : State) (i : Instr) : State := if s.work.contains i then s else s.push i

/-- Queue the next event of a site. -/
def State.wakeSite (s : State) (h : W64) (k : Nat) : State :=
  match s.live? h with
  | none => s
  | some r =>
    match r.site? k with
    | none => s
    | some st => match r.siteEvent st with | some i => s.pushNew i | none => s

/-- The event of a port that takes records. -/
def portEvent (h : W64) (k : Nat) (p : Port) : Instr :=
  if p.mode = 2 then .portRecordWrite ⟨h, k⟩ else .portIndexRecord ⟨h, k⟩

/-! ## Sending -/

/-- A message arrives at an input of a site; one that no word reads discards it. -/
def State.toInput (s : State) (h : W64) (k i : Nat) (m : Msg) : State :=
  (s.modRun h fun r =>
    match r.site? k with
    | some st => if st.used.contains i then r.putSite (st.setQ i (st.q i ++ [m])) else r
    | none => r).wakeSite h k

/-- A message arrives at a port. -/
def State.toPort (s : State) (h : W64) (k : Nat) (m : Msg) : State :=
  match s.run? h with
  | none => s
  | some r =>
    let p := r.port k
    (s.putPort h k { p with ins := p.ins ++ [m] }).pushNew (portEvent h k p)

/-- R289, R291: the key of the site a route leads to. -/
def Route.target (q : Route) (st : Site) : Nat := siteKey ((st.row : Int) + q.dy).toNat ((st.col : Int) + q.dx).toNat

/-- A site sends a message on an output. -/
def State.emit (s : State) (h : W64) (st : Site) (out : Nat) (m : Msg) : State :=
  let s1 := match st.routes.find? fun q => decide (q.out = out) with
    | some q => s.toInput h (q.target st) q.inp m
    | none => s
  match s.run? h with
  | none => s
  | some r =>
    match (if out = 3 then r.sinkPort st else none) with
    | some k => s1.toPort h k m
    | none => s1

/-- A message on every routed output. -/
def State.forward (s : State) (h : W64) (r : Run) (st : Site) (m : Msg) : State :=
  (r.outs st).foldl (fun t o => t.emit h st o m) s

/-- R16: the lanes as a bundle of the round open at the site. -/
def Site.bundle (st : Site) (lanes : List (Option Rec)) : Bundle := ⟨lanes, BitVec.ofNat 8 st.rnd, st.seen⟩

/-- R16: the round that an 8-bit number names: among the 256 that begin with the open one. -/
def Region.roundOf (g : Region) (n : BitVec 8) : Nat := g.committed + (n - BitVec.ofNat 8 g.committed).toNat

/-- R21, R124: records packed into bundles from lane 0 up. -/
def packRecs (recs : List Rec) : Nat → List (List (Option Rec))
  | 0 => []
  | n + 1 =>
    if recs.isEmpty then []
    else ((List.range 16).map fun l => recs[l]?) :: packRecs (recs.drop 16) n

/-- Records sent packed on an output. -/
def State.emitPacked (s : State) (h : W64) (st : Site) (out : Nat) (recs : List Rec) : State :=
  (packRecs recs recs.length).foldl (fun t l => t.emit h st out (.data (st.bundle l))) s

/-- Lanes that hold no record at all. -/
def noLanes : List (Option Rec) := List.replicate 16 none

/-- The later of two positions of each port. -/
def seenMax (a b : List (Nat × Nat)) : List (Nat × Nat) :=
  b.foldl (fun m e => SMap.ins m e.1 (max e.2 (SMap.get 0 m e.1))) a

/-! ## Joined bundles (R96) -/

/-- Take the data at the heads of the used inputs: each input's lanes, in input order, and the site without them. -/
def Site.takeHeads (st : Site) : List (Nat × Bundle) × Site :=
  let got := st.used.filterMap fun i => (headData (st.q i)).map fun b => (i, b)
  let st1 := got.foldl (fun t e => t.setQ e.1 (popBody (t.q e.1))) st
  (got, { st1 with seen := got.foldl (fun m e => seenMax m e.2.seen) st1.seen })

/-- R96: the records of a lane on inputs i0 to i3, when the lane is valid on every used input. -/
def joinLane (used : List Nat) (got : List (Nat × Bundle)) (l : Nat) : Option (List (Option Rec)) :=
  let rec_ (i : Nat) : Option Rec :=
    match got.find? fun e => decide (e.1 = i) with
    | some e => (e.2.lanes[l]?).join
    | none => none
  if used.all fun i => (rec_ i).isSome then
    some ((List.range 4).map fun i => if used.contains i then rec_ i else none)
  else none

/-- R97: the record that the output record starts from: that of the lowest used input. -/
def lowRec (recs : List (Option Rec)) : Option Rec := recs.findSome? id

/-- R297: some record of the lane carries the absent mark. -/
def absentIn (recs : List (Option Rec)) : Option (Nat × Nat) := recs.findSome? fun q => q.bind (·.absent)

/-- R97, R297: the output record of a joined lane, marked absent when any of its records is; with the port and ordinal
of the first input in input order whose record is, also where that is not the lowest used input (DEDUCED, log entry
51). -/
def startRec (recs : List (Option Rec)) : Option Rec := (lowRec recs).map fun q => { q with absent := absentIn recs }

/-- R98: field f of an arriving record; 0 beyond its fields. -/
def fieldOf (q : Option Rec) (f : Nat) : W32 :=
  match q with
  | some x => x.flds.getD f 0#32
  | none => 0#32

/-- R97: write a field, extending the record with zero fields. -/
def setField (l : List W32) (f : Nat) (v : W32) : List W32 :=
  (if l.length ≤ f then l ++ List.replicate (f + 1 - l.length) 0#32 else l).set f v

/-- A port that has something to do at once. -/
def Port.busy (p : Port) : Bool :=
  p.started && (!p.ins.isEmpty || (p.sends && !p.gen.isIndirect && !p.dusked && !p.stopped && p.mode != 3))

/-- A site that has something to do whatever else arrives. -/
def Run.siteBusy (r : Run) (st : Site) : Bool :=
  st.al.isSome || st.mb.isSome || r.markDue st || st.duskable || st.markable.isSome ||
  st.pairWork || (st.hasWork && (st.joined || st.isRecirc || st.runs 3 4))

/-- R96: nothing that is on its way can still join the bundle at a site's inputs: no other site and no port has
anything to do. R96 joins the bundles that arrive in one cycle, and the spec gives no arrival cycles: here the bundles
at the heads of the used inputs are joined, once every used input has something at its head or nothing else can move
(DESIGN CHOICE, log entry 50). -/
def Run.quietFor (r : Run) (key : Nat) : Bool :=
  !(r.region.sites.any fun e => e.1 != key && r.siteBusy e.2) && !(r.ports.any fun p => p.2.busy)

/-! ## Marker and dusk at a sink, an MB, a RECIRC, a writing port (R295, R296) -/

/-- R295: the sinks among the sites. -/
def Run.isSink (r : Run) (st : Site) : Bool := st.live && ((r.outs st).isEmpty || st.runs 3 0xB)

/-- The sites a commit waits for, and the writing ports. -/
def Run.unitSites (r : Run) : List Site :=
  (r.region.sites.map (·.2)).filter fun st => r.isSink st || st.isMb || st.isRecirc
def Run.writers (r : Run) : List Port := (r.ports.map (·.2)).filter fun p => p.started && p.mode == 2

def Site.over (st : Site) : Bool := if st.isRecirc then st.core.fl.done else st.fin
def Site.cut (st : Site) (n : Nat) : Bool :=
  (st.snaps.any fun e => decide (e.1 = n)) && !(st.isRecirc && st.core.fl.capture.contains n)

/-- R296: round n can commit at its marker. -/
def Run.canMark (r : Run) (n : Nat) : Bool :=
  (r.unitSites.all fun st => st.cut n || (st.over && !st.snaps.any fun e => decide (e.1 = n))) &&
  (r.writers.all fun p => (p.snaps.any fun e => decide (e.1 = n)) || p.dusked) &&
  ((r.unitSites.any fun st => st.cut n) || r.writers.any fun p => p.snaps.any fun e => decide (e.1 = n))

/-- R295: final dusk has reached every sink and no marker is left over. -/
def Run.canEnd (r : Run) : Bool :=
  (r.unitSites.all fun st => st.over && st.snaps.isEmpty) && (r.writers.all fun p => p.dusked && p.snaps.isEmpty)

/-- Queue the commit of the open round when it is due. -/
def State.checkCommit (s : State) (h : W64) : State :=
  match s.live? h with
  | none => s
  | some r => if r.canMark r.region.committed || r.canEnd then s.pushNew (.roundCommit h) else s

/-! ## The edge record, rollback (R405, R406) -/

/-- R405: the part of a port that the edge keeps. -/
def Port.atEdge (p : Port) (next : Nat) : Port :=
  { p with next := next, req := 0, landed := [], owed := [], stopAt := none, ins := [], snaps := [], dusked := false,
           pushed := [], kept := [] }

/-- R405: the edge record. At the marker of round n it is built from what each site and port was at the marker; with
no n, between passes, from what they are. -/
def Run.capture (r : Run) (n : Option Nat) : Edge :=
  let g := r.region
  let core (st : Site) : SiteCore :=
    match n with
    | some n => ((st.snaps.find? fun e => decide (e.1 = n)).map (·.2)).getD st.core
    | none => st.core
  let pos (k : Nat) (p : Port) : Nat :=
    match n with
    | none => p.next
    | some n =>
      if p.mode = 2 then ((p.snaps.find? fun e => decide (e.1 = n)).map (·.2)).getD p.next
      else match (g.markPos.find? fun e => decide (e.1 = n)).bind fun e => SMap.get? e.2 k with
        | some x => min x p.next
        | none => p.next
  { held := true, stage := g.stage, m0 := g.m0, m1 := g.m1, m2 := g.m2, j0 := g.j0, j1 := g.j1, j2 := g.j2,
    running := g.running, ports := r.ports.map fun p => (p.1, p.2.atEdge (pos p.1 p.2)),
    sites := g.sites.map fun e => (e.1, core e.2) }

/-- The absent marks that a site's region state holds for a port. -/
def SiteCore.absents (c : SiteCore) (k : Nat) : List Nat :=
  let recs := c.fl.hold ++ c.fl.order ++ c.fl.compact ++ c.fl.loopSet.flatMap fun b => b.lanes.filterMap id
  recs.filterMap fun q => match q.absent with | some (p, j) => if p = k then some j else none | none => none

/-- R18: an input of a site that no started sending port and no route feeds (R295). -/
def Run.unfed (r : Run) (st : Site) (i : Nat) : Bool :=
  !(r.region.sites.any fun e => e.2.routes.any fun q => q.inp == i && q.target e.2 == st.key) &&
  !(i == 3 && (match r.portOf st with
    | some k => (r.port k).started && (r.port k).sends && !(r.port k).stopped
    | none => false))

/-- The keys of the sites that routes lead to from some. -/
def Run.reachFrom (r : Run) : Nat → List Nat → List Nat
  | 0, ks => ks
  | n + 1, ks =>
    let next := ks.flatMap fun k => match r.site? k with | some st => st.routes.map fun q => q.target st | none => []
    let more := (next.filter fun k => !ks.contains k).eraseDups
    if more.isEmpty then ks else r.reachFrom n (ks ++ more)

/-- R405: the positions at which the ports upstream of a MARK begin. -/
def Run.upstream (r : Run) (st : Site) : List (Nat × Nat) :=
  (r.ports.filter fun p => p.2.started && p.2.sends && (r.reachFrom 192 [r.siteOfPort p.1]).contains st.key).map fun p =>
    (p.1, p.2.next)

/-- R295, R406: a site at the start of a pass or of a replay: its loop set comes first on i1, final dusk on every
unfed input. -/
def Run.openSite (r : Run) (st : Site) : Site :=
  let input (i : Nat) : List Msg :=
    (if i = 1 then st.core.fl.loopSet.map Msg.data else []) ++
    (if st.used.contains i && r.unfed st i then [.dusk true] else [])
  { st with
    ins := (List.range 4).map input, snaps := [], al := none, mb := none, rnd := r.region.committed, fin := false,
    seen := if st.isMark then r.upstream st else [],
    core := { st.core with fl := { st.core.fl with
      pend := none, done := false, capture := [], loopSet := [], count := 0, nextMark := r.region.committed } } }

/-- R454: containers in one record of a port. -/
def Port.per (p : Port) : Nat := p.e / contElems (tidFmt p.tid)

/-- R295, R406: a port at the start of a pass or of a replay. -/
def Run.openPort (r : Run) (fresh : Bool) (k : Nat) (p : Port) : Port :=
  let next := if fresh then 0 else p.next
  let owed := if fresh then [] else r.region.sites.flatMap fun e => e.2.core.absents k
  { p with next := next, req := next * p.per, landed := [], owed := owed, stopAt := none, ins := [], snaps := [],
           kept := [], dusked := p.stopped && p.sends, rnd := r.region.committed }

/-- Streams begin: a pass, or a replay from an edge. -/
def Run.openAll (r : Run) (fresh : Bool) : Run :=
  let ports : SMap Port := r.ports.map fun p => (p.1, r.openPort fresh p.1 p.2)
  let r1 : Run := { r with ports := ports }
  let sites : SMap Site := r1.region.sites.map fun e => (e.1, if e.2.live then r1.openSite e.2 else e.2)
  { r1 with region := { r1.region with sites := sites, stores := [], markPos := [], early := false, edgeDue := false } }

/-- The first event of a port's stream. -/
def startEvents (h : W64) (k : Nat) (p : Port) : List Instr :=
  if !p.started || p.stopped || !p.sends then []
  else if p.mode = 1 then (if p.gen.isIndirect then [] else [.portRunAhead ⟨h, k⟩])
  else [.portEmit ⟨h, k⟩]

/-- The events with which a pass or a replay begins. -/
def State.launchStreams (s : State) (h : W64) : State :=
  match s.live? h with
  | none => s
  | some r =>
    let s1 := s.pushAll (r.ports.flatMap fun p => startEvents h p.1 p.2)
    let s2 := r.region.sites.foldl (fun t e => e.2.core.missq.foldl
      (fun u q => u.pushNew (.l1LineArrival (e.2.at h) q.line)) t) s1
    r.region.sites.foldl (fun t e => t.wakeSite h e.1) s2

/-- A pass or a replay begins. -/
def State.openStreams (s : State) (h : W64) (fresh : Bool) : State :=
  ((s.modRun h fun r => r.openAll fresh).launchStreams h).checkCommit h

/-- R18, R405: every stream begins anew at the next pass: the ordinal 0, and nothing kept for a rollback. -/
def Run.newStreams (r : Run) : Run := { r with ports := r.ports.map fun p => (p.1, { p.2 with next := 0, kept := [] }) }

/-- R406: restore every part of the last edge record; what came after it is discarded. With no edge the region merely
stops. R392, R406: the effects of stream commands are not rolled back, so a port keeps the binding, generator and started
mark it has, and resumes at the ordinal of the edge. A PSTOP taken in the open round holds too: the port stays stopped, and
what it sent or took between the edge and the PSTOP is not presented again (DESIGN CHOICE, log entry 103). -/
def Run.rollback (r : Run) : Run :=
  let g := r.region
  let e := g.edge
  let mbs := g.mbs.map fun m => (m.1, { m.2 with shadow := [] })
  if !e.held then { r with region := { g with mbs := mbs, stores := [], markPos := [], early := false, edgeDue := false } }
  else
    let back (k : Nat) (st : Site) : Site :=
      { st with core := (SMap.get? e.sites k).getD st.core, ins := [[], [], [], []], snaps := [], al := none, mb := none }
    let port (k : Nat) (p : Port) : Port :=
      match SMap.get? e.ports k with
      | some q => { p.atEdge q.next with pushed := p.kept ++ p.pushed }
      | none => p
    { r with
      ports := r.ports.map fun p => (p.1, port p.1 p.2)
      region := { g with
        stage := e.stage, m0 := e.m0, m1 := e.m1, m2 := e.m2, j0 := e.j0, j1 := e.j1, j2 := e.j2, mbs := mbs,
        sites := g.sites.map fun q => (q.1, back q.1 q.2), stores := [], markPos := [], early := false
        edgeDue := false } }

/-- R200, R228, R246, R375: a parked record waits in the vigil table of its word's home, on this device or on another. -/
def State.armPark (s : State) (h : W64) (r : Run) (key : Nat) (p : ParkEnt) : State :=
  let o := Owner.parked h key p.id
  let arm (pa : Nat) : State := s.attempt ⟨homeDie pa, pa, p.size8, false, .futrd, o⟩
  match r.lease.find? fun e => e.idx != 16 && e.holds p.va (if p.size8 then 8 else 4) with
  | none => s
  | some e =>
    match e.place p.va with
    | .phys pa _ => arm pa
    | .peer w off =>
      if isSelf s w then
        match ingress s s.dev.devno.toNat w.win off (if p.size8 then 8 else 4) true false false w.key with
        | .ok pa => arm pa
        | .error z => s.push (.importRefusal h (BitVec.ofNat 64 p.va) ⟨z, if p.size8 then 8 else 4, 4, 1⟩)
      else if s.peers.any fun x => decide (x.owner = o) then s
      else s.sendPeer w off (BitVec.ofNat 64 p.va) 0#64 p.size8 .futrd false o

/-- R200, R406, R414: the parked records of the edge are armed again, under the lease as it is now; those made after it
are not. -/
def State.rearm (s : State) (h : W64) : State :=
  let s1 := { s with
    vigils := s.vigils.filter fun v => match v.waiter with | .parked t _ _ => !decide (t = h) | _ => true
    heldOps := s.heldOps.filter fun o => match o.owner with | .parked t _ _ => !decide (t = h) | _ => true }
  match s1.run? h with
  | none => s1
  | some r => r.region.sites.foldl (fun t e => (e.2.core.parked.filter (·.val.isNone)).foldl
      (fun u p => u.armPark h r e.1 p) t) s1

/-- R406: roll the region of a task back to its last edge. -/
def State.rollback (s : State) (h : W64) : State := (s.modRun h Run.rollback).rearm h

/-- R406, R414: after a rollback or a restoring dispatch, the stage goes on from its edge. -/
def State.replay (s : State) (h : W64) : State := s.openStreams h false

/-! ## Region faults and the retry of a round (R392, R418 to R420) -/

/-- R296: an early-edge request of a region, unless one is already being served. -/
def State.wantEdge (s : State) (h : W64) : State :=
  match s.live? h with
  | some r => if r.region.early then s else s.askEdge h
  | none => s

/-- R396: the ISSUE that accepted the running CFG. -/
def Run.cfgPc (r : Run) : W64 :=
  match r.cmds.find? fun c => r.region.cfg = some c.id with
  | some c => c.pc
  | none => 0#64

/-- R223: an L2PUSH without the receivers that a test names: it receives nothing further, and the command is
incomplete. -/
def Cmd.loseRecv (gone : W64 × Nat → Bool) (c : Cmd) : Cmd :=
  if c.recv.any gone then { c with recv := c.recv.filter fun q => !gone q, bad := true } else c

/-- R223: ports of a task stop: the pushes that feed them lose them. -/
def State.losePush (s : State) (h : W64) (hit : Nat → Bool) : State :=
  (s.modAll fun r => { r with cmds := r.cmds.map (Cmd.loseRecv fun q => q.1 == h && hit q.2) }).kickAll

/-- R223, R295: the started push-receive ports of a context, which stop with their stage. -/
def Run.pushPorts (r : Run) (k : Nat) : Bool := (r.port k).mode == 3 && (r.port k).started

/-- R392: a region fault: rollback, the region queue is dropped with status 11, the ports stop and receive no more
pushes (R223), the trap is due. -/
def State.regionFault (s : State) (h : W64) (code reason : Nat) (i : FaultInfo) : State :=
  match s.run? h with
  | none => s
  | some r =>
    if r.ending.isSome then s
    else
      let cause := causeWord code reason 0
      let rec_ := mkRec s.cyc r cause { i with pc := r.cfgPc }
      let s1 := (s.rollback h).modRun h fun q => { q with
        region := { q.region with running := false, cfg := none, resume := true }
        due := q.due ++ [⟨true, 0, cause, i.tval, 0, rec_⟩] }
      let s2 := (r.cmds.filter fun c => c.queue == .region && c.phase != .done).foldl
        (fun t c => t.cmdDone ⟨h, c.id⟩ 3#2) (s1.losePush h r.pushPorts)
      if r.preempt then s2.urgent (.preemption h) else s2

/-- R396: what a site says in a fault record. -/
def siteInfo (st : Site) (lane : Nat) (tval : W64) (extra : Nat) : FaultInfo :=
  { ccInfo 0#64 tval with agent := 1, row := st.row, col := st.col, lane := lane, extra := extra }

/-- R422: a region fault of a round that had begun is pending: the round stands rolled back at its edge. -/
def Run.faultPending (r : Run) : Bool := r.due.any (·.region) && r.region.resume && r.region.edge.held && r.region.edge.running

/-- R418 to R420: an uncorrectable error in the open round: the round is rolled back and replayed once; when the retry
is already owed, the task ends. R422: where a region fault is pending in the round it has been rolled back already; the
retry is owed. -/
def State.roundError (s : State) (h : W64) (pa : Nat) (i : FaultInfo) : State :=
  match s.run? h with
  | none => s
  | some r =>
    if s.err.owed.contains h then
      let cause := causeWord 0x25 0 0
      (s.memErr pa true).faultEnd h cause (mkRec s.cyc r cause { i with pc := r.cfgPc, tval := BitVec.ofNat 64 pa })
    else
      let s0 := { s with err := { s.err with owed := s.err.owed ++ [h] } }.memErr pa false
      if !r.region.running then s0
      else
        let s1 := s0.rollback h
        if r.preempt then s1.push (.preemption h) else s1.replay h

/-- R365, R374, R418: an access of a region that fails. -/
def State.regionAcc (s : State) (h : W64) (i : FaultInfo) (e : AccErr) : State :=
  let pc := match s.run? h with | some r => r.cfgPc | none => 0#64
  match e with
  | .memory pa n right => s.roundError h pa { i with size := n, right := right }
  | .lease _ _ _ _ => s.accFault h pc i.agent i.unit_ i.row i.col i.lane e
  | .import _ _ _ _ => s.accFault h pc i.agent i.unit_ i.row i.col i.lane e

/-! ## Commit (R403) -/

/-- Runs of neighbouring bytes: first offset, bytes, masks. -/
def runsOf : SMap (Byte × Byte) → List (Nat × List Byte × List Byte)
  | [] => []
  | (a, x) :: m =>
    match runsOf m with
    | (b, bs, ms) :: rest => if b = a + 1 then (a, x.1 :: bs, x.2 :: ms) :: rest else (a, [x.1], [x.2]) :: (b, bs, ms) :: rest
    | [] => [(a, [x.1], [x.2])]

/-- A committed store enters the write order of its line, here or in another device's memory (R158, R370, R374). -/
def State.landCommitted (s : State) (h : W64) (agent : Nat) (peer : Option PeerWin) (va a : Nat) (bs ms : List Byte) :
    State :=
  match peer with
  | none => s.landMasked a bs ms
  | some w =>
    if isSelf s w then
      match ingress s s.dev.devno.toNat w.win a bs.length false true false w.key with
      | .ok pa => s.landMasked pa bs ms
      | .error x => s.push (.importRefusal h (BitVec.ofNat 64 va) ⟨x, bs.length, 2, agent⟩)
    else { s with out := s.out ++ [OutMsg.peerMerge w.dev w.win a w.key bs ms] }

/-- R194: the bytes of a scratchpad after a line is committed. -/
def scratchPut (m : SMap Byte) (addr : Nat) (bytes : SMap (Byte × Byte)) : SMap Byte :=
  bytes.foldl (fun t e =>
    let a := addr + e.1
    SMap.put 0#8 t a ((SMap.get 0#8 t a &&& ~~~e.2.2) ||| (e.2.1 &&& e.2.2))) m

/-- R194, R403: one shadow line of an MB is committed. -/
def State.commitLine (s : State) (h : W64) (key : Nat) (l : ShadowLine) : State :=
  match l.place with
  | .scratch => s.modRun h fun r => { r with region := { r.region with mbs := r.region.mbs.map fun m =>
      if m.1 = key then (m.1, { m.2 with scratch := scratchPut m.2.scratch l.addr l.bytes }) else m } }
  | .phys => (runsOf l.bytes).foldl (fun t e => t.landCommitted h 1 none 0 (l.addr + e.1) e.2.1 e.2.2) s
  | .peer w va => (runsOf l.bytes).foldl (fun t e => t.landCommitted h 1 (some w) (va + e.1) (l.addr + e.1) e.2.1 e.2.2) s

/-- R403 steps 1 to 3: the shadow lines and buffered stores of a round. -/
def State.commitStores (s : State) (h : W64) (n : Nat) : State :=
  match s.run? h with
  | none => s
  | some r =>
    let s1 := r.region.mbs.foldl (fun t m => (m.2.shadow.filter fun l => decide (l.rnd = n)).foldl
      (fun u l => u.commitLine h m.1 l) t) s
    let s2 := (r.region.stores.filter fun x => decide (x.rnd = n)).foldl
      (fun t x => t.landCommitted h 2 x.peer x.va x.pa x.bytes (x.bytes.map fun _ => 0xFF#8)) s1
    s2.modRun h fun q => { q with region := { q.region with
      mbs := q.region.mbs.map fun m => (m.1, { m.2 with shadow := m.2.shadow.filter fun l => !decide (l.rnd = n) })
      stores := q.region.stores.filter fun x => !decide (x.rnd = n) } }

/-- R405: where a port stood at an edge. -/
def Edge.pos (e : Edge) (k next : Nat) : Nat :=
  match SMap.get? e.ports k with
  | some p => p.next
  | none => next

/-- R18, R405: at an edge at a position of its stream a push-receive port gives up the bytes whose records stand before
the edge, and keeps the others for a rollback. -/
def Port.trim (p : Port) (pos : Nat) : Port :=
  let rb := p.per * contBytes (tidFmt p.tid)
  { p with kept := p.kept.drop (p.kept.length - (min (p.next * rb) p.bytes - min (pos * rb) p.bytes)) }

/-- What a committed edge leaves behind: the next round opens, requests for an edge are served. -/
def Run.edgeDone (r : Run) (n : Nat) : Run :=
  let dropN (l : List (Nat × SiteCore)) := l.filter fun e => !decide (e.1 = n)
  { r with
    ports := r.ports.map fun p =>
      (p.1, { p.2.trim (r.region.edge.pos p.1 p.2.next) with snaps := p.2.snaps.filter fun e => !decide (e.1 = n) })
    region := { r.region with
      committed := n + 1, everCommitted := true, early := false
      markPos := r.region.markPos.filter fun e => !decide (e.1 = n)
      sites := r.region.sites.map fun e => (e.1, { e.2 with snaps := dropN e.2.snaps }) } }

/-- R403 step 4: the edge record is replaced. -/
def Run.setEdge (r : Run) (n : Option Nat) : Run := { r with region := { r.region with edge := r.capture n } }

/-- R420: a replay that commits clears the debt; R409: a preemption takes place at the edge. -/
def State.edgeNews (s : State) (h : W64) : State :=
  let s1 := s.clearDebt h
  match s1.run? h with
  | some r => if r.preempt then s1.push (.preemption h) else s1
  | none => s1

/-- R403: Commit(n) at a marker. -/
def State.commitAt (s : State) (h : W64) (n : Nat) : State :=
  ((s.commitStores h n).modRun h fun r => (r.setEdge (some n)).edgeDone n).edgeNews h

/-! ## Passes (R294, R295) -/

/-- R294: the counters of the next pass. -/
def Region.nextPass (g : Region) : Option (Nat × Nat × Nat) :=
  if g.j0 + 1 < g.m0 then some (g.j0 + 1, g.j1, g.j2)
  else if g.j1 + 1 < g.m1 then some (0, g.j1 + 1, g.j2)
  else if g.j2 + 1 < g.m2 then some (0, 0, g.j2 + 1)
  else none

/-- R295: the stage is over: every port stops and every started mark is cleared. R223: a push receiver that the stage had
not started keeps the bytes pushed to it. -/
def Run.closeStage (r : Run) : Run :=
  { r with
    ports := r.ports.map fun p => (p.1, if p.2.started then { p.2.atEdge 0 with started := false, stopped := false } else p.2)
    region := { r.region with
      running := false, cfg := none, resume := false
      sites := r.region.sites.map fun e => (e.1, { e.2 with ins := [[], [], [], []] }) } }

/-- R295, R181: the running CFG completes. -/
def State.endStage (s : State) (h : W64) : State :=
  match s.run? h with
  | none => s
  | some r =>
    let s1 := (s.modRun h fun q => q.closeStage.setEdge none).losePush h r.pushPorts
    match r.region.cfg with
    | some id => s1.cmdDone ⟨h, id⟩ 0#2
    | none => s1

/-- R295: a pass has ended: its open round commits, and the next pass begins or the stage completes. -/
def State.endPass (s : State) (h : W64) : State :=
  match s.run? h with
  | none => s
  | some r =>
    let n := r.region.committed
    let s1 := (s.commitStores h n).modRun h fun q => q.edgeDone n
    match r.region.nextPass with
    | none => (s1.endStage h).edgeNews h
    | some (j0, j1, j2) =>
      let s2 := s1.modRun h fun q =>
        Run.setEdge { q.newStreams with region := { q.region with j0 := j0, j1 := j1, j2 := j2 } } none
      if r.preempt then s2.edgeNews h else (s2.edgeNews h).openStreams h true

/-- ROUND_COMMIT (R403, R295). -/
def execRoundCommit (task : W64) (s : State) : Result :=
  match s.live? task with
  | none => .next s
  | some r =>
    let n := r.region.committed
    if r.canMark n then .next ((s.commitAt task n).checkCommit task)
    else if r.canEnd then .next (s.endPass task)
    else .next s

/-! ## CFG and PMARK (R298, R304) -/

/-- A flow site's state after a CFG: ORDER begins at its first tag, TAGSET at its base (R306, R310). -/
def flStart (w : W64) : FlCore :=
  let x := unpackSite w
  { FlCore.reset with nextTag := x.mods.extractLsb' 0 16, ctr := x.mods.extractLsb' 1 16 }

/-- R75, R298: a site of the loaded stage. Generators stay unless this CFG seeds them; LA is 0. The state of a sparse
site begins anew: R128 says so of COORD alone, and here the last keys of ISECT, UNION and REDUCE too are kept across
rounds, dusk and passes and cleared at each CFG (DESIGN CHOICE, log entry 53). -/
def loadSite (seed : Option W64) (old : Option Site) (row col : Nat) (b : Option Blk) : Site :=
  let k := siteKey row col
  let gens := if kindOfCol col ≠ 0 then []
    else match seed, old with
      | some v, _ => (List.range 16).map fun l => genSeed v (16 * k + l)
      | none, some o => o.core.gens
      | none, none => []
  let la := if kindOfCol col = 0 then List.replicate 16 0#64 else []
  let blk := b.getD ⟨row, col, [], [], []⟩
  let fl := if kindOfCol col = 3 then flStart (blk.words.getD 0 0#64) else FlCore.reset
  { row := row, col := col, words := blk.words, consts := blk.consts, routes := blk.routes, ins := [[], [], [], []],
    core := { SiteCore.reset with gens := gens, la := la, fl := fl }, snaps := [], al := none, mb := none, rnd := 0,
    fin := false, seen := [] }

/-- R298 step 1: every site of the image's rectangle. -/
def loadSites (hd : ImageHdr) (seed : Option W64) (old : SMap Site) (blks : List Blk) : SMap Site :=
  (List.range hd.height).flatMap fun row => (List.range (6 * hd.width)).map fun col =>
    (siteKey row col, loadSite seed (SMap.get? old (siteKey row col)) row col
      (blks.find? fun b => decide (b.row = row ∧ b.col = col)))

/-- R298 step 2: the reason a route is refused. -/
def routeBad (r : Run) (hd : ImageHdr) (st : Site) (q : Route) : Option Nat :=
  let row := (st.row : Int) + q.dy
  let col := (st.col : Int) + q.dx
  if row < 0 ∨ (hd.height : Int) ≤ row ∨ col < 0 ∨ (6 * hd.width : Int) ≤ col then some 1
  else match r.site? (q.target st) with
    | none => some 2
    | some t =>
      let into := (r.region.sites.map fun e => (e.2.routes.filter fun p =>
        p.inp == q.inp && (e.2.row : Int) + p.dy == row && (e.2.col : Int) + p.dx == col).length).sum
      if !t.live then some 2
      else if 1 < into ∨ (q.inp = 3 ∧ ((r.portOf t).any fun k => (r.port k).started) = true) then some 3
      else none

/-- R199: the entry a TLD or TST names suits it. -/
def mbTidOk (r : Run) (st : Site) : Bool :=
  let op := opSite st.word
  let x := st.args
  let t := SMap.get Tid.zero r.region.tids (x.m 23 18)
  if st.isMb && (op == 7 || op == 8) then
    tidDense t && decide (tidRank t ≤ 2) && (if isInt (tidFmt t) then x.tyN != 8 else x.tyN == 8) &&
    (op == 7 || (tidSfmt t == 0 && tidFmt t != 3 && tidFmt t != 7))
  else true

/-- R454: an affine generator's BASE and used strides are multiples of the container size of a tensor entry. -/
def Gen.fits (t : Tid) : Gen → Bool
  | .affine b n0 n1 n2 n3 d0 d1 d2 d3 q0 q1 q2 =>
    tidFmt t != 14 || (decide (b % 3 = 0) && ([q0, q1, q2].all fun y => decide (y % 3 = 0)) &&
      [(n0, d0), (n1, d1), (n2, d2), (n3, d3)].all fun y => decide (y.1 ≤ 1) || decide (y.2 % 3 = 0))
  | _ => true

/-- R298 step 2, R300, R302, R454: the stage may run. A generator that a later PBIND has given shared containers it is
not aligned to counts as unloaded. -/
def stageOk (r : Run) : Bool :=
  let sites := r.region.sites.map (·.2)
  let genOk (p : Port) : Bool :=
    match p.mode, p.gen with
    | 0, _ => false
    | 1, .none => false
    | 1, .bad => false
    | 2, .none => false
    | 2, .bad => false
    | 1, g => g.fits p.tid
    | 2, g => g.fits p.tid
    | _, _ => true
  let recOk (st : Site) : Bool := !st.isRecirc || (r.port (st.args.m 3 0)).sends
  sites.all (mbTidOk r) && (r.ports.all fun p => !p.2.started || genOk p.2) && sites.all recOk &&
  (sites.any r.isSink || !r.writers.isEmpty)

/-- R298: the site and the reason of the first route fault. -/
def firstBadRoute (r : Run) (hd : ImageHdr) : Option (Site × Route × Nat) :=
  r.region.sites.findSome? fun e => e.2.routes.findSome? fun q => (routeBad r hd e.2 q).map fun n => (e.2, q, n)

/-- R188, R194: the MB storage of an image: nothing in it at a fresh dispatch. -/
def mbStart (hd : ImageHdr) (stages : List (List Blk)) : SMap MbStore :=
  (List.range hd.height).flatMap fun row => (List.range (6 * hd.width)).filterMap fun col =>
    if kindOfCol col = 1 then
      let sh := shadowBytes hd stages row col
      some (siteKey row col, ⟨393216 - l1At stages row col - sh, sh / 32, l1At stages row col / 128,
        (wordsAt stages row col).any fun w => kindSite w == 1 && [2, 4].contains (opSite w), [], []⟩)
    else none

/-- R298, R294: load a stage, check it, run its passes. R420: the debt of a round that this CFG does not replay is gone.
R75: the seed of the generators is sr.seed as it stands when CFG starts in the region queue, not at its ISSUE (DESIGN
CHOICE, log entry 104). -/
def State.loadStage (s : State) (k : CmdRef) (c : Cmd) (r : Run) (hd : ImageHdr) (stages : List (List Blk)) :
    State :=
  let x := c.args
  let h := k.task
  let g := r.region
  let stage := x.fld 85 80
  let m2 := x.fld 79 64
  let again := g.resume && g.edge.held && g.edge.running && g.edge.stage == stage && g.edge.m0 == x.p0.toNat &&
    g.edge.m1 == x.p1.toNat && g.edge.m2 == m2
  let g1 : Region := { g with
    hdr := some hd, stage := stage, m0 := x.p0.toNat, m1 := x.p1.toNat, m2 := m2, j0 := 0, j1 := 0, j2 := 0,
    cfg := some k.id, resume := false, seeded := true, tids := r.tids
    sites := loadSites hd (if g.seeded then none else some r.sys.seed) g.sites (stages.getD stage [])
    mbs := if g.mbs.isEmpty then mbStart hd stages else g.mbs }
  let ports : SMap Port := r.ports.map fun p => (p.1, { p.2 with stopped := again && p.2.stopped })
  let r1 : Run := { r with region := g1, ports := ports }
  let l1 := s.l1.map fun c => if c.task = h then { c with wait := [] } else c
  let s1 := { s with l1 := l1 }.modRun h fun _ => r1
  let info : FaultInfo := { ccInfo c.pc (BitVec.ofNat 64 stage) with agent := 1 }
  match firstBadRoute r1 hd with
  | some (st, q, n) => s1.regionFault h 0x14 n { info with tval := q.word, row := st.row, col := st.col }
  | none =>
    if !stageOk r1 then s1.regionFault h 0x15 0 info
    else if x.p0 = 0#32 ∨ x.p1 = 0#32 ∨ m2 = 0 then s1.endStage h
    else
      let s2 := (s1.modCmd k fun y => { y with step := 1 }).modRun h fun q =>
        { q with region := { q.region with running := true } }
      if again then (s2.rollback h).replay h
      else ((s2.modRun h fun q => q.newStreams.setEdge none).clearDebt h).openStreams h true

/-- R289, R298: the site list as it stands in memory at a CFG. Words that no longer make a site list, or that the
context's tables do not let the device read, hold no block, so the stage has no sink (DESIGN CHOICE, log entry 32). -/
def siteList (s : State) (ctx : Nat) (hd : ImageHdr) : List (List Blk) :=
  ((ctxWords s ctx (hd.base + hd.slist) hd.nwords).bind (takeStages hd hd.stages 0)).getD []

/-- R298: CFG. The stage's site blocks are read through the context's tables. -/
def execCfg (k : CmdRef) (_x : CmdArgs) (s : State) : Result :=
  withCmd k s fun r c s =>
    match r.region.hdr with
    | none => s.cmdDone k 0#2
    | some hd =>
      if r.ending.isSome then s
      else s.loadStage k c r hd (siteList s r.ctx hd)

/-- R304: PMARK. The region queue runs one command at a time, so at its start every edge it may have asked for has
committed. -/
def execPmark (k : CmdRef) (x : CmdArgs) (s : State) : Result :=
  withCmd k s fun _ c s => if c.args = x then s.cmdDone k 0#2 else s

/-! ## EARLY_EDGE, ROUND_COUNT_EXPIRY, ROUND_MARKER, DUSK_TOKEN -/

/-- R296: the marker of a round leaves a MARK: the round ends here, and counting begins anew. -/
def State.markAt (s : State) (h : W64) (r : Run) (st : Site) (n : Nat) : State :=
  let core := { st.core with fl := { st.core.fl with count := 0, nextMark := n + 1 } }
  let st1 := { st with core := core, snaps := st.snaps ++ [(n, core)], rnd := n + 1 }
  let pos (l : List (Nat × List (Nat × Nat))) : List (Nat × List (Nat × Nat)) :=
    match l.find? fun e => decide (e.1 = n) with
    | none => l ++ [(n, st.seen)]
    | some _ => l.map fun e => if e.1 = n then
        (n, st.seen.foldl (fun m p => SMap.ins m p.1 (min p.2 (SMap.get p.2 m p.1))) e.2) else e
  let s1 := (s.putSite h st1).modRun h fun q => { q with region := { q.region with markPos := pos q.region.markPos } }
  ((s1.forward h r st1 (.marker (BitVec.ofNat 8 n))).wakeSite h st.key).checkCommit h

/-- R296: a MARK emits its next marker. -/
def State.mark (s : State) (h : W64) (r : Run) (st : Site) : State := s.markAt h r st st.core.fl.nextMark

/-- R296: one MARK serves an early-edge request, as its queues stand then. -/
def State.markSite (s : State) (h : W64) (key : Nat) : State :=
  match s.live? h with
  | none => s
  | some r =>
    match r.site? key with
    | none => s
    | some st => if st.isMark && !st.fin then s.mark h r st else s

/-- EARLY_EDGE (R296): every MARK of a region with a request not yet served emits a marker. -/
def execEarlyEdge (s : State) : Result :=
  .next (s.allRuns.foldl (fun t r0 =>
    match t.live? r0.task with
    | none => t
    | some r =>
      if !r.region.edgeDue then t
      else r.region.sites.foldl (fun u e => u.markSite r.task e.1)
        (t.modRun r.task fun q => { q with region := { q.region with edgeDue := false } })) s)

/-- A site of a running region. -/
def withSite (a : SiteRef) (s : State) (f : Run → Site → State → State) : Result :=
  match s.live? a.task with
  | none => .next s
  | some r =>
    match r.site? (siteKey a.row a.col) with
    | none => .next s
    | some st => .next (f r st s)

/-- An event of a site: it acts when it is the site's next event, and the site's next event is queued after it. -/
def withEvent (i : Instr) (a : SiteRef) (s : State) (f : Run → Site → State → State) : Result :=
  match withSite a s fun r st s => if r.siteEvent st = some i then f r st s else s with
  | .next t => .next (t.wakeSite a.task (siteKey a.row a.col))
  | r => r

/-- ROUND_COUNT_EXPIRY (R296). -/
def execRoundCountExpiry (at_ : SiteRef) (s : State) : Result :=
  withEvent (.roundCountExpiry at_) at_ s fun r st s => s.mark at_.task r st

end Sys2Proof.Machine
end

