-- ==== Sys2Proof/Machine/AlSites.lean ====
section
/-! DEFINITION. The arithmetic sites (R96 to R119): the chain over a combined bundle, and the 50 operations. Each
operation says what it does to one lane, or to all lanes together; `alWord` does the rest. -/

namespace Sys2Proof.Machine

/-! ## The chain -/

/-- R98: the value of a source in a lane of the work in hand. -/
def AlWork.src (w : AlWork) (consts : List W32) (l : Nat) (sel : Sel) : W32 :=
  match sel with
  | .link i f =>
    if i = w.low then fieldOf ((w.o[l]?).join) f else fieldOf ((((w.ins[i]?).getD [])[l]?).join) f
  | .const k => consts.getD k 0#32
  | .chain c => (w.chain.getD l []).getD c 0#32
  | _ => 0#32

/-- What an operation reads in one lane: the sources, the lane's generator and log accumulator. -/
structure LaneIn where
  a  : W32
  b  : W32
  c  : W32
  g  : W32
  la : W64
deriving DecidableEq, Repr

/-- What it leaves: the value for the destination, the generator, the log accumulator. -/
structure LaneOut where
  v  : W32
  g  : W32
  la : W64
deriving DecidableEq, Repr

/-- An operation on the lanes that are valid and present; the others are `none` (R100, R297). -/
abbrev AlFn := List (Option LaneIn) → List (Option LaneOut)

/-- R100, R297: the lanes an operation sees. -/
def AlWork.lanes (w : AlWork) (core : SiteCore) (consts : List W32) (x : SiteArgs) : List (Option LaneIn) :=
  (List.range 16).map fun l =>
    match (w.o[l]?).join with
    | some q => if q.absent.isSome then none else some
        { a := w.src consts l x.selA, b := w.src consts l x.selB, c := w.src consts l x.selC,
          g := core.gens.getD l 0#32, la := core.la.getD l 0#64 }
    | none => none

/-- R97, R98: one lane's destination is written. -/
def AlWork.write (w : AlWork) (l dst : Nat) (v : W32) : AlWork :=
  if dst < 4 then
    let row := w.outs.getD dst []
    { w with outs := w.outs.set dst (row.set l (row.getD l [] ++ [v])) }
  else if dst < 8 then { w with chain := w.chain.set l ((w.chain.getD l []).set (dst - 4) v) }
  else { w with o := w.o.set l (((w.o[l]?).join).map fun q => { q with flds := setField q.flds (dst - 8) v }) }

/-- The results of an operation are written lane by lane, and its word is done. -/
def AlWork.writeAll (w : AlWork) (dst : Nat) (outs : List (Option LaneOut)) : AlWork :=
  let w1 := (List.range 16).foldl (fun t l =>
    match (outs[l]?).join with
    | some q => t.write l dst q.v
    | none => t) w
  { w1 with next := w.next + 1 }

/-- R75, R101: generators and accumulators after an operation. -/
def SiteCore.afterAl (c : SiteCore) (outs : List (Option LaneOut)) : SiteCore :=
  { c with
    gens := (List.range 16).map fun l => match (outs[l]?).join with | some q => q.g | none => c.gens.getD l 0#32
    la := (List.range 16).map fun l => match (outs[l]?).join with | some q => q.la | none => c.la.getD l 0#64 }

/-- R96, R97: the work on a combined bundle, before its first word. -/
def startAl (st : Site) (got : List (Nat × Bundle)) : AlWork :=
  let lanes := (List.range 16).map (joinLane st.used got)
  { o := lanes.map fun q => q.bind startRec
    ins := (List.range 4).map fun i => lanes.map fun q => q.bind fun recs => (recs[i]?).join
    low := st.used.headD 0
    chain := List.replicate 16 [0#32, 0#32, 0#32, 0#32]
    outs := List.replicate 4 (List.replicate 16 [])
    seen := st.seen
    next := 0 }

/-- R97: the bundle of an output: O, or the fields collected for it; an absent record goes as it is (R297). -/
def AlWork.outLanes (w : AlWork) (named : Bool) (o : Nat) : List (Option Rec) :=
  if !named then w.o
  else (List.range 16).map fun l => ((w.o[l]?).join).map fun q =>
    if q.absent.isSome then q else { q with flds := (w.outs.getD o []).getD l [] }

/-- R97: the chain is done: the bundles leave. -/
def State.emitAl (s : State) (h : W64) (r : Run) (st : Site) (w : AlWork) : State :=
  let named (o : Nat) : Bool := st.words.any fun v => decide ((unpackSite v).dstN = o)
  (r.outs st).foldl (fun t o => t.emit h st o (.data { st.bundle (w.outLanes (named o) o) with seen := w.seen })) s

/-- R96 to R98: one word of an AL on its combined bundle. The first word joins the bundle, the last sends it on. -/
def State.alStep (s : State) (h : W64) (r : Run) (st : Site) (w : AlWork) (x : SiteArgs) (f : AlFn) : State :=
  let outs := f (w.lanes st.core st.consts x)
  let w1 := w.writeAll x.dstN outs
  let st1 := { st with core := st.core.afterAl outs }
  if w1.next < st.words.length then s.putSite h { st1 with al := some w1 }
  else (s.putSite h { st1 with al := none }).emitAl h r { st1 with al := none } w1

/-- The meaning of an AL word: `f` is its operation, given the flush mode of the task (R70). -/
def alWord (i : Instr) (a : SiteRef) (x : SiteArgs) (s : State) (f : Bool → AlFn) : Result :=
  withEvent i a s fun r st s =>
    match st.al with
    | some w => s.alStep a.task r st w x (f r.fz)
    | none =>
      if !st.joined && !r.quietFor st.key then s
      else
        let t := st.takeHeads
        s.alStep a.task r t.2 (startAl t.2 t.1) x (f r.fz)

/-- An operation that works lane by lane. -/
def each (f : LaneIn → LaneOut) : AlFn := fun l => l.map fun q => q.map f

/-- A lane operation that neither draws nor touches the accumulator. -/
def pure1 (f : LaneIn → W32) : AlFn := each fun q => ⟨f q, q.g, q.la⟩

/-- A number rounded to f32, drawing under stochastic rounding (R71, R75). -/
def roundF (x : SiteArgs) (fz : Bool) (v : Num) (q : LaneIn) : LaneOut :=
  let r := roundG 8 x.rndN false fz q.g v
  ⟨BitVec.ofNat 32 r.1, r.2, q.la⟩

/-- An f32 operation that rounds. -/
def f32Op (x : SiteArgs) (fz : Bool) (f : Num → Num → Num → Num) : AlFn :=
  each fun q => roundF x fz (f (f32Of fz q.a) (f32Of fz q.b) (f32Of fz q.c)) q

/-! ## FP32 (R103 to R106) -/

/-- FADD. -/
def execFadd (at_ : SiteRef) (x : SiteArgs) (s : State) : Result :=
  alWord (.fadd at_ x) at_ x s fun fz => f32Op x fz fun a b _ => addNum x.rndN a b

/-- FSUB. -/
def execFsub (at_ : SiteRef) (x : SiteArgs) (s : State) : Result :=
  alWord (.fsub at_ x) at_ x s fun fz => f32Op x fz fun a b _ => addNum x.rndN a (negNum b)

/-- FMUL. -/
def execFmul (at_ : SiteRef) (x : SiteArgs) (s : State) : Result :=
  alWord (.fmul at_ x) at_ x s fun fz => f32Op x fz fun a b _ => mulNum a b

/-- FMA. -/
def execFma (at_ : SiteRef) (x : SiteArgs) (s : State) : Result :=
  alWord (.fma at_ x) at_ x s fun fz => f32Op x fz fun a b c => addNum x.rndN (mulNum a b) c

/-- FMIN. -/
def execFmin (at_ : SiteRef) (x : SiteArgs) (s : State) : Result :=
  alWord (.fmin at_ x) at_ x s fun fz => pure1 fun q => f32Code (minMax false (f32Of fz q.a) (f32Of fz q.b))

/-- FMAX. -/
def execFmax (at_ : SiteRef) (x : SiteArgs) (s : State) : Result :=
  alWord (.fmax at_ x) at_ x s fun fz => pure1 fun q => f32Code (minMax true (f32Of fz q.a) (f32Of fz q.b))

/-- A value with sign 0. -/
def absNum (v : Num) : Num := if numNeg v then negNum v else v

/-- FABS. -/
def execFabs (at_ : SiteRef) (x : SiteArgs) (s : State) : Result :=
  alWord (.fabs at_ x) at_ x s fun fz => pure1 fun q => f32Code (absNum (f32Of fz q.a))

/-- FNEG. -/
def execFneg (at_ : SiteRef) (x : SiteArgs) (s : State) : Result :=
  alWord (.fneg at_ x) at_ x s fun fz => pure1 fun q => f32Code (negNum (f32Of fz q.a))

/-- FRCP (R104). -/
def execFrcp (at_ : SiteRef) (x : SiteArgs) (s : State) : Result :=
  alWord (.frcp at_ x) at_ x s fun fz => f32Op x fz fun a _ _ => fnNum 0 a

/-- FRSQ (R104). -/
def execFrsq (at_ : SiteRef) (x : SiteArgs) (s : State) : Result :=
  alWord (.frsq at_ x) at_ x s fun fz => f32Op x fz fun a _ _ => fnNum 1 a

/-- FEXP2 (R104). -/
def execFexp2 (at_ : SiteRef) (x : SiteArgs) (s : State) : Result :=
  alWord (.fexp2 at_ x) at_ x s fun fz => f32Op x fz fun a _ _ => fnNum 2 a

/-- FLOG2 (R104). -/
def execFlog2 (at_ : SiteRef) (x : SiteArgs) (s : State) : Result :=
  alWord (.flog2 at_ x) at_ x s fun fz => f32Op x fz fun a _ _ => fnNum 3 a

/-- R105: the conditions of FCMP. -/
def fcmpCond (c : Nat) (a b : Num) : Bool :=
  match c, cmpNum a b with
  | 0, o => o == some .eq
  | 1, o => o != some .eq
  | 2, o => o == some .lt
  | 3, o => o == some .lt || o == some .eq
  | 4, o => o == some .gt
  | 5, o => o == some .gt || o == some .eq
  | 6, o => o.isNone
  | _, o => o.isSome

/-- The value 1 or 0 of a condition. -/
def flagVal (b : Bool) : W32 := if b then 1#32 else 0#32

/-- FCMP (R105). -/
def execFcmp (at_ : SiteRef) (x : SiteArgs) (s : State) : Result :=
  alWord (.fcmp at_ x) at_ x s fun fz => pure1 fun q => flagVal (fcmpCond (x.m 2 0) (f32Of fz q.a) (f32Of fz q.b))

/-- R106: the class of the bits of an f32. -/
def f32Class (v : W32) : Nat :=
  let ex := v.toNat / 2 ^ 23 % 256
  let fr := v.toNat % 2 ^ 23
  let neg := v.getLsbD 31
  if ex = 255 ∧ fr ≠ 0 then 8
  else if ex = 255 then (if neg then 0 else 7)
  else if ex ≠ 0 then (if neg then 1 else 6)
  else if fr ≠ 0 then (if neg then 2 else 5)
  else if neg then 3 else 4

/-- FCLASS (R106). -/
def execFclass (at_ : SiteRef) (x : SiteArgs) (s : State) : Result :=
  alWord (.fclass at_ x) at_ x s fun _ => pure1 fun q => BitVec.ofNat 32 (2 ^ f32Class q.a)

/-! ## FCVT (R107) -/

/-- R107: the conversion in one lane. -/
def fcvtLane (x : SiteArgs) (fz : Bool) (q : LaneIn) : LaneOut :=
  let src := x.m 3 0
  let dst := x.tyN
  let j := x.m 6 4
  let sat := x.m 7 7 == 1
  let scc := x.m 16 16 == 1
  let code := if fmtBits src < 32 then elemOf src j q.a else q.a.toNat
  let sc : Int := if scc then ((q.c.toNat % 256 : Nat) : Int) - 127 else signedOf 8 (x.m 15 8)
  let sh : Int := if x.m 17 17 = 1 then -sc else sc
  let r := if scc ∧ q.c.toNat % 256 = 255 then (nanCode dst, q.g)
    else convertG src dst x.rndN sat fz q.g (shiftNum (decodeNum src fz code) sh)
  let v := if fmtBits dst < 32 then setElem dst j (if x.selB = .none then 0#32 else q.b) r.1 else BitVec.ofNat 32 r.1
  ⟨v, r.2, q.la⟩

/-- FCVT (R107). -/
def execFcvt (at_ : SiteRef) (x : SiteArgs) (s : State) : Result :=
  alWord (.fcvt at_ x) at_ x s fun fz => each (fcvtLane x fz)

/-! ## Packed and dot-product operations (R108 to R110) -/

/-- R108: two elements, element 0 first. -/
def packed2 (x : SiteArgs) (fz : Bool) (f : Num → Num → Num → Num) : AlFn :=
  each fun q =>
    let el (j : Nat) (w : W32) : Num := decodeNum x.tyN fz (elemOf x.tyN j w)
    let r0 := roundG x.tyN x.rndN false fz q.g (f (el 0 q.a) (el 0 q.b) (el 0 q.c))
    let r1 := roundG x.tyN x.rndN false fz r0.2 (f (el 1 q.a) (el 1 q.b) (el 1 q.c))
    ⟨BitVec.ofNat 32 (packCodes x.tyN [r0.1, r1.1]), r1.2, q.la⟩

/-- HADD2 (R108). -/
def execHadd2 (at_ : SiteRef) (x : SiteArgs) (s : State) : Result :=
  alWord (.hadd2 at_ x) at_ x s fun fz => packed2 x fz fun a b _ => addNum x.rndN a b

/-- HMUL2 (R108). -/
def execHmul2 (at_ : SiteRef) (x : SiteArgs) (s : State) : Result :=
  alWord (.hmul2 at_ x) at_ x s fun fz => packed2 x fz fun a b _ => mulNum a b

/-- HFMA2 (R108). -/
def execHfma2 (at_ : SiteRef) (x : SiteArgs) (s : State) : Result :=
  alWord (.hfma2 at_ x) at_ x s fun fz => packed2 x fz fun a b c => addNum x.rndN (mulNum a b) c

/-- R109, R110: an exact dot product of n elements of two formats with an f32. The rules give an exact sum of zero no sign: here
it has that of R103, −0 under RDN for terms that cancel and +0 otherwise, for HDOT2 and for the FP8 forms of Q8DOT4 under the
word's mode (DESIGN CHOICE, log entry 105). -/
def dotNum (mode ta tb n : Nat) (fz : Bool) (a b : W32) (c : Num) : Num :=
  (List.range n).foldr (fun j acc =>
    addNum mode (mulNum (decodeNum ta fz (elemOf ta j a)) (decodeNum tb fz (elemOf tb j b))) acc) c

/-- HDOT2 (R109). -/
def execHdot2 (at_ : SiteRef) (x : SiteArgs) (s : State) : Result :=
  alWord (.hdot2 at_ x) at_ x s fun fz =>
    each fun q => roundF x fz (dotNum x.rndN x.tyN x.tyN 2 fz q.a q.b (f32Of fz q.c)) q

/-- R110: the integer form of Q8DOT4. -/
def q8Int (sat : Bool) (q : LaneIn) : W32 :=
  let sum : Int := ((List.range 4).map fun j =>
    signedOf 8 (elemOf 0 j q.a) * signedOf 8 (elemOf 0 j q.b)).sum + q.c.toInt
  BitVec.ofNat 32 (if sat then clampInt 2 sum else wrapNat 32 sum)

/-- Q8DOT4 (R110). -/
def execQ8dot4 (at_ : SiteRef) (x : SiteArgs) (s : State) : Result :=
  alWord (.q8dot4 at_ x) at_ x s fun fz =>
    if x.tyN = 0 then pure1 (q8Int (x.m 1 1 == 1))
    else
      let tb := if x.m 0 0 = 1 then 23 - x.tyN else x.tyN
      each fun q => roundF x fz (dotNum x.rndN x.tyN tb 4 fz q.a q.b (f32Of fz q.c)) q

/-! ## Log6 (R111 to R113) -/

/-- R111: the log product of two codes, as a byte. -/
def lmulByte (a b : Nat) : Nat :=
  let neg := (l6Q a).1 != (l6Q b).1
  (if neg then 128 else 0) +
  match (l6Q a).2, (l6Q b).2 with
  | some p, some q => ((p + q) % 128).toNat
  | _, _ => 0x40

/-- LMUL (R111). -/
def execLmul (at_ : SiteRef) (x : SiteArgs) (s : State) : Result :=
  alWord (.lmul at_ x) at_ x s fun _ => pure1 fun q =>
    BitVec.ofNat 32 (packCodes 0 ((List.range 4).map fun j => lmulByte (elemOf 14 j q.a) (elemOf 14 j q.b)))

/-- R112: the amount of a log-product byte, in units of 2^−23. -/
def laccAmount (b : Nat) : Int :=
  let c := b % 128
  if c = 0x40 then 0
  else
    let q := signedOf 7 c
    let e := q / 4 + 8
    let t := l6T (q % 4).toNat
    let m := if 0 ≤ e then t * 2 ^ e.toNat else t / 2 ^ (-e).toNat
    if 128 ≤ b then -(m : Int) else m

/-- LACC (R112). -/
def execLacc (at_ : SiteRef) (x : SiteArgs) (s : State) : Result :=
  alWord (.lacc at_ x) at_ x s fun _ => each fun q =>
    let la := q.la + BitVec.ofInt 64 ((List.range 4).map fun j => laccAmount (elemOf 0 j q.a)).sum
    ⟨la.setWidth 32, q.g, la⟩

/-- R113: the conversion in one lane. A byte of 0xFF gives NaN, and nothing is rounded or drawn. -/
def lcvtLane (x : SiteArgs) (fz : Bool) (q : LaneIn) : LaneOut :=
  let byte (sel : Sel) (w : W32) : List Nat := if sel = .none then [] else [w.toNat % 256]
  let used := byte x.selA q.a ++ byte x.selB q.b
  let sh : Int := (used.map fun b => Int.ofNat b - 127).sum
  let r := if used.contains 255 then ⟨0x7FC00000#32, q.g, q.la⟩ else roundF x fz (shiftNum (intNum q.la.toInt) (sh - 23)) q
  { r with la := if x.m 0 0 = 1 then 0#64 else q.la }

/-- LCVT (R113). -/
def execLcvt (at_ : SiteRef) (x : SiteArgs) (s : State) : Result :=
  alWord (.lcvt at_ x) at_ x s fun fz => each (lcvtLane x fz)

/-! ## Integer and bit operations (R114, R115) -/

/-- The value of an operand in the word's type: i32 (2) or n32. -/
def intVal (ty : Nat) (w : W32) : Int := if ty = 2 then w.toInt else w.toNat

/-- R114: a sum or difference, wrapped or clamped. -/
def satInt (x : SiteArgs) (v : Int) : W32 := BitVec.ofNat 32 (if x.m 0 0 = 1 then clampInt x.tyN v else wrapNat 32 v)

/-- IADD (R114). -/
def execIadd (at_ : SiteRef) (x : SiteArgs) (s : State) : Result :=
  alWord (.iadd at_ x) at_ x s fun _ => pure1 fun q => satInt x (intVal x.tyN q.a + intVal x.tyN q.b)

/-- ISUB (R114). -/
def execIsub (at_ : SiteRef) (x : SiteArgs) (s : State) : Result :=
  alWord (.isub at_ x) at_ x s fun _ => pure1 fun q => satInt x (intVal x.tyN q.a - intVal x.tyN q.b)

/-- IMUL (R114). -/
def execImul (at_ : SiteRef) (x : SiteArgs) (s : State) : Result :=
  alWord (.imul at_ x) at_ x s fun _ => pure1 fun q => q.a * q.b

/-- IMULH (R114). -/
def execImulh (at_ : SiteRef) (x : SiteArgs) (s : State) : Result :=
  alWord (.imulh at_ x) at_ x s fun _ => pure1 fun q => BitVec.ofInt 32 (intVal x.tyN q.a * intVal x.tyN q.b / 2 ^ 32)

/-- IMAD (R114). -/
def execImad (at_ : SiteRef) (x : SiteArgs) (s : State) : Result :=
  alWord (.imad at_ x) at_ x s fun _ => pure1 fun q => q.a * q.b + q.c

/-- IMIN (R114). -/
def execImin (at_ : SiteRef) (x : SiteArgs) (s : State) : Result :=
  alWord (.imin at_ x) at_ x s fun _ => pure1 fun q => if intVal x.tyN q.b < intVal x.tyN q.a then q.b else q.a

/-- IMAX (R114). -/
def execImax (at_ : SiteRef) (x : SiteArgs) (s : State) : Result :=
  alWord (.imax at_ x) at_ x s fun _ => pure1 fun q => if intVal x.tyN q.a < intVal x.tyN q.b then q.b else q.a

/-- IABS (R114): without sat, −2^31 stays. -/
def execIabs (at_ : SiteRef) (x : SiteArgs) (s : State) : Result :=
  alWord (.iabs at_ x) at_ x s fun _ => pure1 fun q => satInt x q.a.toInt.natAbs

/-- AND (R114). -/
def execAlAnd (at_ : SiteRef) (x : SiteArgs) (s : State) : Result :=
  alWord (.alAnd at_ x) at_ x s fun _ => pure1 fun q => q.a &&& q.b

/-- OR (R114). -/
def execAlOr (at_ : SiteRef) (x : SiteArgs) (s : State) : Result :=
  alWord (.alOr at_ x) at_ x s fun _ => pure1 fun q => q.a ||| q.b

/-- XOR (R114). -/
def execAlXor (at_ : SiteRef) (x : SiteArgs) (s : State) : Result :=
  alWord (.alXor at_ x) at_ x s fun _ => pure1 fun q => q.a ^^^ q.b

/-- NOT (R114). -/
def execNot (at_ : SiteRef) (x : SiteArgs) (s : State) : Result :=
  alWord (.not at_ x) at_ x s fun _ => pure1 fun q => ~~~q.a

/-- SHL (R114). -/
def execShl (at_ : SiteRef) (x : SiteArgs) (s : State) : Result :=
  alWord (.shl at_ x) at_ x s fun _ => pure1 fun q => q.a <<< (q.b.toNat % 32)

/-- SHR (R114). -/
def execShr (at_ : SiteRef) (x : SiteArgs) (s : State) : Result :=
  alWord (.shr at_ x) at_ x s fun _ => pure1 fun q => q.a >>> (q.b.toNat % 32)

/-- SAR (R114). -/
def execSar (at_ : SiteRef) (x : SiteArgs) (s : State) : Result :=
  alWord (.sar at_ x) at_ x s fun _ => pure1 fun q => q.a.sshiftRight (q.b.toNat % 32)

/-- R114: the conditions of ICMP. -/
def icmpCond (c : Nat) (a b : Int) : Bool :=
  match c with
  | 0 => decide (a = b)
  | 1 => decide (a ≠ b)
  | 2 => decide (a < b)
  | 3 => decide (a ≤ b)
  | 4 => decide (b < a)
  | _ => decide (b ≤ a)

/-- ICMP (R114). -/
def execIcmp (at_ : SiteRef) (x : SiteArgs) (s : State) : Result :=
  alWord (.icmp at_ x) at_ x s fun _ => pure1 fun q => flagVal (icmpCond (x.m 2 0) (intVal x.tyN q.a) (intVal x.tyN q.b))

/-- SEL (R114): the test is on the raw bits. -/
def execSel (at_ : SiteRef) (x : SiteArgs) (s : State) : Result :=
  alWord (.sel at_ x) at_ x s fun _ => pure1 fun q => if q.c = 0#32 then q.b else q.a

/-- POPC (R114). -/
def execAlPopc (at_ : SiteRef) (x : SiteArgs) (s : State) : Result :=
  alWord (.alPopc at_ x) at_ x s fun _ => pure1 fun q => BitVec.ofNat 32 ((List.range 32).countP fun i => q.a.getLsbD i)

/-- CLZ (R114). -/
def execAlClz (at_ : SiteRef) (x : SiteArgs) (s : State) : Result :=
  alWord (.alClz at_ x) at_ x s fun _ => pure1 fun q =>
    BitVec.ofNat 32 (if q.a = 0#32 then 32 else 31 - Nat.log2 q.a.toNat)

/-- R115: HASH of one value. -/
def hashVal (x : SiteArgs) (v : W32) : W32 :=
  let h := v * 0x9E3779B9#32
  let r := h.rotateRight (x.m 4 0)
  BitVec.ofNat 32 (r.toNat / 2 ^ x.m 9 5 % 2 ^ (x.m 14 10 + 1))

/-- HASH (R115). -/
def execHash (at_ : SiteRef) (x : SiteArgs) (s : State) : Result :=
  alWord (.hash at_ x) at_ x s fun _ => pure1 fun q => hashVal x (if x.selB = .none then q.a else q.a ^^^ q.b)

/-! ## Across the lanes (R116 to R119) -/

/-- R116: one Combine: value and generators. `lead` is the lane whose generator it may draw from. -/
def combine (f : W32 → W32 → W32 → W32 × W32) (gens : List W32) (lead : Nat) (p q : Option W32) :
    Option W32 × List W32 :=
  match p, q with
  | some a, some b =>
    let r := f a b (gens.getD lead 0#32)
    (some r.1, gens.set lead r.2)
  | some a, none => (some a, gens)
  | none, b => (b, gens)

/-- R116: the combinations of one width w, from lane l up. -/
def combineRow (f : W32 → W32 → W32 → W32 × W32) (valid : List Bool) (w : Nat) :
    Nat → Nat → List (Option W32) → List W32 → List (Option W32) × List W32
  | 0, _, v, g => (v, g)
  | n + 1, l, v, g =>
    if 16 ≤ l then (v, g)
    else
      let lead := ((List.range (2 * w)).find? fun i => valid.getD (l + i) false).getD 0 + l
      let r := combine f g lead ((v[l]?).join) ((v[l + w]?).join)
      combineRow f valid w n (l + 2 * w) (v.set l r.1) r.2

/-- R116: the pairwise tree over the lanes; `rd` reads a lane's value, which stands alone where one lane is valid. -/
def laneTree (rd : W32 → W32) (f : W32 → W32 → W32 → W32 × W32) (l : List (Option LaneIn)) : Option W32 × List W32 :=
  let valid := l.map (·.isSome)
  let v0 := l.map fun q => q.map fun q => rd q.a
  let g0 := l.map fun q => (q.map (·.g)).getD 0#32
  let r := [1, 2, 4, 8].foldl (fun t w => combineRow f valid w 16 0 t.1 t.2) (v0, g0)
  (((r.1)[0]?).join, r.2)

/-- R116: the total goes to every valid lane. -/
def reduceLanes (rd : W32 → W32) (f : W32 → W32 → W32 → W32 × W32) : AlFn := fun l =>
  let r := laneTree rd f l
  (List.range 16).map fun i => ((l[i]?).join).map fun q => ⟨r.1.getD 0#32, r.2.getD i q.g, q.la⟩

/-- R116, R117: an addition in the word's type, with a generator. -/
def laneAdd (x : SiteArgs) (fz : Bool) (a b g : W32) : W32 × W32 :=
  if x.tyN = 8 then
    let r := roundG 8 x.rndN false fz g (addNum x.rndN (f32Of fz a) (f32Of fz b))
    (BitVec.ofNat 32 r.1, r.2)
  else (a + b, g)

/-- RSUM (R116). -/
def execRsum (at_ : SiteRef) (x : SiteArgs) (s : State) : Result :=
  alWord (.rsum at_ x) at_ x s fun fz => reduceLanes (asRead x.tyN fz) (laneAdd x fz)

/-- R116: the larger of two values in the word's type. -/
def laneMax (x : SiteArgs) (fz : Bool) (a b g : W32) : W32 × W32 :=
  (if x.tyN = 8 then f32Code (minMax true (f32Of fz a) (f32Of fz b))
   else if intVal x.tyN a < intVal x.tyN b then b else a, g)

/-- RMAX (R116). -/
def execRmax (at_ : SiteRef) (x : SiteArgs) (s : State) : Result :=
  alWord (.rmax at_ x) at_ x s fun fz => reduceLanes (asRead x.tyN fz) (laneMax x fz)

/-- R117: the prefix over the valid lanes in ascending order. The sum with a lane's value is drawn from that lane's
generator in an exclusive scan too, the last sum included, which no lane receives (DEDUCED, log entry 52). -/
def scanLanes (x : SiteArgs) (fz : Bool) : Option W32 → List (Option LaneIn) → List (Option LaneOut)
  | _, [] => []
  | p, none :: ls => none :: scanLanes x fz p ls
  | p, some q :: ls =>
    let r : W32 × W32 := match p with | none => (asRead x.tyN fz q.a, q.g) | some v => laneAdd x fz v q.a q.g
    some ⟨if x.m 0 0 = 1 then p.getD 0#32 else r.1, r.2, q.la⟩ :: scanLanes x fz (some r.1) ls

/-- SCANL (R117). -/
def execScanl (at_ : SiteRef) (x : SiteArgs) (s : State) : Result :=
  alWord (.scanl at_ x) at_ x s fun fz => scanLanes x fz none

/-- R118: each valid lane receives a of a source lane, 0 where that lane is not valid. -/
def permute (src : Nat → LaneIn → Nat) : AlFn := fun l =>
  (List.range 16).map fun i => ((l[i]?).join).map fun q =>
    ⟨(((l[src i q]?).join).map (·.a)).getD 0#32, q.g, q.la⟩

/-- SHUF (R118). -/
def execShuf (at_ : SiteRef) (x : SiteArgs) (s : State) : Result :=
  alWord (.shuf at_ x) at_ x s fun _ =>
    permute fun l q => if x.selB = .none then l ^^^ x.m 3 0 else q.b.toNat % 16

/-- BCAST (R118). -/
def execBcast (at_ : SiteRef) (x : SiteArgs) (s : State) : Result :=
  alWord (.bcast at_ x) at_ x s fun _ => permute fun _ _ => x.m 3 0

/-- IOTA (R119). -/
def execIota (at_ : SiteRef) (x : SiteArgs) (s : State) : Result :=
  alWord (.iota at_ x) at_ x s fun _ => fun l => (List.range 16).map fun i => ((l[i]?).join).map fun q =>
    ⟨(if x.selA = .none then 0#32 else q.a) + BitVec.ofNat 32 (x.m 15 0 + i), q.g, q.la⟩

/-- R119: the value of CONST. -/
def constVal (x : SiteArgs) : W32 := if x.tyN = 8 then x.mods ++ (0#6 : BitVec 6) else x.mods.signExtend 32

/-- CONST (R119). -/
def execConst (at_ : SiteRef) (x : SiteArgs) (s : State) : Result :=
  alWord (.const at_ x) at_ x s fun _ => pure1 fun _ => constVal x

end Sys2Proof.Machine
end

