-- ==== Sys2Proof/Machine/Engines.lean ====
section
/-! DEFINITION. The copy and L2 engines (R216 to R223) and the synchronisation commands (R247, R248). -/

namespace Sys2Proof.Machine

/-! ## COPY (R216 to R219) -/

/-- R217: a byte of an overlapping copy: the source byte as it stood, or the value the copy wrote there. `ahead` says
that source bytes are destination bytes of higher number; d is the distance. -/
def overlapByte (old : List Byte) (ahead : Bool) (d n num : Nat) (i : Nat) : Nat → Byte
  | 0 => old.getD i 0#8
  | fuel + 1 =>
    if Config.copyNew num i then
      if ahead then
        (if i + d < n then overlapByte old ahead d n num (i + d) fuel else old.getD i 0#8)
      else (if d ≤ i then overlapByte old ahead d n num (i - d) fuel else old.getD i 0#8)
    else old.getD i 0#8

/-- R217: the bytes a copy writes, with a fresh number where the ranges overlap. -/
def copiedBytes (s : State) (src dst : Nat) (old : List Byte) : List Byte × State :=
  let n := old.length
  if src ≠ dst ∧ 0 < overlap src n dst n then
    ((List.range n).map fun i => overlapByte old (decide (dst < src)) (if dst < src then src - dst else dst - src) n s.free i n,
      s.fresh)
  else (old, s)

/-- R216, R217: both ranges are checked before any byte moves. -/
def copyRange (s : State) (lease : List Extent) (src dst n : Nat) : Except AccErr Unit × State :=
  match covered lease src n .r, covered lease dst n .w with
  | .error r, _ => (.error (.lease src n 4 r), s)
  | _, .error r => (.error (.lease dst n 2 r), s)
  | .ok _, .ok _ =>
    match readVa s lease src n with
    | (.error e, s1) => (.error e, s1)
    | (.ok old, s1) =>
      let b := copiedBytes s1 src dst old
      writeVa b.2 lease dst b.1

/-- COPY (R216 to R219). -/
def execCopy (k : CmdRef) (x : CmdArgs) (s : State) : Result :=
  withCmd k s fun r c s =>
    let n := x.p1.toNat
    if n = 0 then s.cmdDone k 0#2
    else
      match extAddr r.lease r.extn (tidExt c.tidA) (tidOffset c.tidA + x.p0.toNat) n .r,
          extAddr r.lease r.extn (tidExt c.tidC) (tidOffset c.tidC + x.fixed.toNat) n .w with
      | .error e, _ => s.cmdFault k c e
      | _, .error e => s.cmdFault k c e
      | .ok src, .ok dst =>
        let q := copyRange s r.lease src dst n
        q.2.cmdEnd k c q.1

/-! ## COPYM (R220) -/

/-- R137, R211: what holds the landing of a fill: an earlier MMA that has not read the bytes, or a CBAR on the tile. -/
def Run.fillHeld (r : Run) (c : Cmd) : Bool :=
  r.barred c (.tileFetch c.args.tc.toNat) || (r.before c).any fun m => m.args.tc == c.args.tc && fillMeets c m

/-- R202: the place of a COPYM's landing in the start order of its tile's fetch queue: an earlier TFETCH or UNPIN of the
tile that has not started, or an earlier landing, holds it. -/
def Run.fetchBefore (r : Run) (c : Cmd) : Bool :=
  r.copymBefore c || (r.before c).any fun d => (d.op == 0x15 || d.op == 0x16) && d.args.tc == c.args.tc && d.phase == .waiting

/-- R137, R202, R410: the started fills that no command of a window that is ending will let land: what must come before them
has not started. They are held by a CBAR, by an MMA that reads the bytes they replace, or by the place of a COPYM's landing. -/
def Run.stuck (r : Run) : List Nat :=
  r.cmds.foldl (fun l c =>
    if c.phase == .started && c.step == 0 && c.fillRange.isSome && (r.before c).any (fun d => d.phase != .done &&
        ((d.op == 0x0A && cbarMasks d.args (.tileFetch c.args.tc.toNat)) ||
         (d.args.tc == c.args.tc && ((d.phase == .waiting && fillMeets c d) || (c.op == 0x11 &&
           ((d.phase == .waiting && (d.op == 0x15 || d.op == 0x16)) || l.contains d.id))))))
    then l ++ [c.id] else l) []

/-- Bytes of a side of an operand store are replaced. -/
def putSide (m : SMap Byte) (off : Nat) : List Byte → SMap Byte
  | [] => m
  | b :: bs => putSide (SMap.put 0#8 m off b) (off + 1) bs

/-- What is left of ranges of bytes without one range. -/
def without (l : List (Nat × Nat)) (a z : Nat) : List (Nat × Nat) :=
  l.flatMap fun p => (if p.1 < min p.2 a then [(p.1, min p.2 a)] else []) ++ (if max p.1 z < p.2 then [(max p.1 z, p.2)] else [])

/-- R220, R224: the bytes a logged fill wrote: side, first byte, the byte after the last. -/
def fillSpan (f : FillLog) : Nat × Nat × Nat :=
  match fillRangeOf f.word f.tid with
  | some (side, off, n) => (side, off, off + n)
  | none => (0, 0, 0)

/-- R411: the entries of a fill log some of whose bytes no later fill has replaced. -/
def liveFills : List FillLog → List FillLog
  | [] => []
  | f :: fs =>
    let x := fillSpan f
    let left := fs.foldl (fun l g => if (fillSpan g).1 = x.1 then without l (fillSpan g).2.1 (fillSpan g).2.2 else l)
      [(x.2.1, x.2.2)]
    if left.any fun p => decide (p.1 < p.2) then f :: liveFills fs else liveFills fs

/-- R132, R411: bytes land in an operand store, and the fill is logged; the log keeps the fills some of whose bytes stand. -/
def Tile.fill (t : Tile) (side off : Nat) (bs : List Byte) (log : FillLog) : Tile :=
  let t1 := if side = 0 then { t with a := putSide t.a off bs } else { t with b := putSide t.b off bs }
  { t1 with fills := liveFills (t1.fills ++ [log]) }

/-- R220: the bytes a COPYM moves. -/
def copymBytes (s : State) (r : Run) (x : CmdArgs) (a : Tid) : Except AccErr (List Byte) × State :=
  readExt s r.lease r.extn (tidExt a) (tidOffset a + x.p0.toNat) x.p1.toNat

/-- COPYM (R220): its bytes land as they stand; with no bytes it has landed at once. -/
def execCopym (k : CmdRef) (x : CmdArgs) (s : State) : Result :=
  withCmd k s fun r c s =>
    if x.p1 = 0#32 then s.landed k c
    else if r.fillHeld c || r.fetchBefore c then s
    else
      match copymBytes s r x c.tidA with
      | (.error e, s1) => s1.cmdFault k c e
      | (.ok bs, s1) =>
        let t := x.tc.toNat
        (s1.modRun k.task fun q => q.setTile t ((q.tile t).fill (x.fld 94 94) (128 * x.fld 93 82) bs ⟨c.word, c.tidA⟩)).landed
          k c

/-! ## GATHER and SCATTER (R221, R222) -/

/-- R221: bytes of a row of a dense tensor. -/
def rowBytes (t : Tid) : Nat := tidDim t 0 / contElems (tidFmt t) * contBytes (tidFmt t)

/-- R221: one row from a tensor to another. -/
def moveRow (s : State) (r : Run) (a : Tid) (i : Nat) (c : Tid) (j : Nat) : Except AccErr Unit × State :=
  match readExt s r.lease r.extn (tidExt a) (rowOff a i 0 0) (rowBytes a) with
  | (.error e, s1) => (.error e, s1)
  | (.ok bs, s1) => writeExt s1 r.lease r.extn (tidExt c) (rowOff c j 0 0) bs

/-- R221: index number i of the command, then one row. -/
def gatherRow (r : Run) (c : Cmd) (gather : Bool) (i : Nat) (s : State) : Except AccErr Unit × State :=
  match readElem s r.lease r.extn c.tidB (c.args.p0.toNat + i) 0 with
  | (.error e, s1) => (.error e, s1)
  | (.ok y, s1) =>
    if gather then
      if y < tidDim c.tidA 1 then moveRow s1 r c.tidA y c.tidC i
      else writeExt s1 r.lease r.extn (tidExt c.tidC) (rowOff c.tidC i 0 0) (List.replicate (rowBytes c.tidC) 0#8)
    else if y < tidDim c.tidC 1 then moveRow s1 r c.tidA i c.tidC y
    else (.ok (), s1)

/-- GATHER (R221, R222). -/
def execGather (k : CmdRef) (x : CmdArgs) (s : State) : Result :=
  withCmd k s fun r c s =>
    let q := forAcc (List.range x.p1.toNat) (gatherRow r c true) s
    q.2.cmdEnd k c q.1

/-- SCATTER (R221, R222): rows in ascending i, so of a repeated row the highest i stands. -/
def execScatter (k : CmdRef) (x : CmdArgs) (s : State) : Result :=
  withCmd k s fun r c s =>
    let q := forAcc (List.range x.p1.toNat) (gatherRow r c false) s
    q.2.cmdEnd k c q.1

/-! ## L2PUSH (R223) -/

/-- R214: the run-ahead window of a port. -/
def windowBytes : Nat := 16384

/-- R223: a receiver still takes pushes of a key. -/
def takesPush (s : State) (key : Nat) (q : W64 × Nat) : Option Port :=
  match s.run? q.1 with
  | some r =>
    match SMap.get? r.ports q.2 with
    | some p => if p.mode = 3 ∧ p.key = key ∧ !p.stopped then some p else none
    | none => none
  | none => none

/-- R223: bytes enter a receiver's window, and its port may emit. -/
def State.pushTo (bs : List Byte) (s : State) (q : W64 × Nat) : State :=
  (s.modRun q.1 fun r => { r with ports := r.ports.map fun p =>
    if p.1 = q.2 then (p.1, { p.2 with pushed := p.2.pushed ++ bs }) else p }).push (.portEmit ⟨q.1, q.2⟩)

/-- R223: send what the receivers have room for, at most to the end of the present row. -/
def State.pushRows (s : State) (k : CmdRef) (i : Instr) (r : Run) (c : Cmd) (recv : List (W64 × Nat)) (bad : Bool) : State :=
  let x := c.args
  let rb := rowBytes c.tidA
  let total := rb * x.p1.toNat
  let room := (recv.map fun q => match takesPush s (x.fld 94 79) q with
    | some p => windowBytes - p.pushed.length | none => 0).foldl min windowBytes
  let n := min room (min (total - c.sent) (rb - c.sent % rb))
  let s1 := s.modCmd k fun y => { y with recv := recv, bad := bad }
  if total ≤ c.sent ∨ recv.isEmpty then s1.cmdDone k (if bad then 2#2 else 0#2)
  else if n = 0 then s1
  else
    match readExt s1 r.lease r.extn (tidExt c.tidA) (rowOff c.tidA (x.p0.toNat + c.sent / rb) 0 0 + c.sent % rb) n with
    | (.error e, s2) => s2.cmdFault k c e
    | (.ok bs, s2) =>
      ((recv.foldl (State.pushTo bs) s2).modCmd k fun y => { y with sent := c.sent + n }).push i

/-- L2PUSH (R223): the receivers are fixed at the start; one that is lost receives nothing further. -/
def execL2push (k : CmdRef) (x : CmdArgs) (s : State) : Result :=
  withCmd k s fun r c s =>
    let all := if c.recv.isEmpty ∧ c.sent = 0 ∧ c.bad = false then (receivers s r c).getD [] else c.recv
    let live := all.filter fun q => (takesPush s (x.fld 94 79) q).isSome
    s.pushRows k (.l2push k x) r c live (c.bad || decide (live.length < all.length) || all.isEmpty)

/-! ## Synchronisation commands (R247, R248) -/

/-- R227, R370, R374: send a command's operation to the home of its word; on another device's memory it is performed
there, and the command goes on when the answer comes (DESIGN CHOICE, log entry 1). -/
def State.sendCmd (s : State) (k : CmdRef) (c : Cmd) (e : Extent) (va n : Nat) (size8 sys : Bool) (kind : HomeKind) : State :=
  let s1 := s.modCmd k fun y => { y with step := 1 }
  match e.place va with
  | .phys pa attr => s1.toHome ⟨homeDie pa, pa, size8, recalls pa attr, kind, .cmd k⟩
  | .peer p off =>
    if isSelf s p then
      match ingress s s.dev.devno.toNat p.win off n true true sys p.key with
      | .ok pa => s1.toHome ⟨homeDie pa, pa, size8, (readImport s p.win).sa, kind, .cmd k⟩
      | .error r => s.cmdFault k c (.import va n 6 r)
    else s1.sendPeer p off (BitVec.ofNat 64 va) c.pc size8 kind sys (.cmd k)

/-- R248, R377: the checks of an operation of a command, in the order lease, scope, path. -/
def State.syncCmd (s : State) (k : CmdRef) (r : Run) (c : Cmd) (off n : Nat) (size8 pcie : Bool) (kind : HomeKind) : State :=
  match extentOf r.lease r.extn (tidExt c.tidC) with
  | none => s.cmdFault k c (.lease off n 6 1)
  | some x =>
    let va := x.base + off
    match coveredRW r.lease va n true true with
    | .error z => s.cmdFault k c (.lease va n 6 z)
    | .ok e =>
      match pathRefuses s (e.place va) c.args.scope.toNat pcie with
      | some _ => s.cmdDone k 2#2
      | none => s.sendCmd k c e va n size8 (c.args.scope == 5#3) kind

/-- R247: the operand of a SIGNAL, extended by the element type. -/
def signalOperand (ty : Nat) (v : W32) : W64 := if ty < 4 then v.signExtend 64 else v.setWidth 64

/-- SIGNAL (R247). -/
def execSignal (k : CmdRef) (x : CmdArgs) (s : State) : Result :=
  withCmd k s fun r c s =>
    let w := fmtBits (tidFmt c.tidC) / 8
    let op := x.fld 94 92
    s.syncCmd k r c (tidOffset c.tidC + w * x.p0.toNat) w (w == 8) (decide (op ≤ 2))
      (.sigop op (signalOperand (tidFmt c.tidC) x.p1) x.scope.toNat)

/-- The window of a context is ending by a fault. -/
def Run.faulting (r : Run) : Bool :=
  match r.ending with
  | some (.fault _ _) => true
  | _ => false

/-- R240: where row c of a chunk map stands. -/
def chunkOff (c : Cmd) : Nat := rowOff c.tidC c.args.p0.toNat 0 0

/-- ARRIVEC (R248). -/
def execArrivec (k : CmdRef) (x : CmdArgs) (s : State) : Result :=
  withCmd k s fun r c s =>
    if !r.faulting && (r.before c).any (fun d => d.queue != .sync && d.queue != .guest) then s
    else
      s.syncCmd k r c (chunkOff c) 40 true false
        (.arrivec (if x.p1.getLsbD 24 then some (x.p1.extractLsb' 0 16) else none) (x.p1.extractLsb' 16 8)
          (c.bad || r.faulting))

/-- WAITC (R248). -/
def execWaitc (k : CmdRef) (x : CmdArgs) (s : State) : Result :=
  withCmd k s fun r c s =>
    s.syncCmd k r c (chunkOff c) 40 true false (.waitc ((x.p1.extractLsb' 0 16).setWidth 64))

end Sys2Proof.Machine
end

