-- ==== Sys2Proof/Machine/Collective.lean ====
section
/-! DEFINITION. Reductions (R145, R146), contributions and rings (R147 to R151), and the messages they send. -/

namespace Sys2Proof.Machine

/-! ## CRED (R146) -/

/-- How one element of a CRED ends: performed, refused by a scope or path check, or failed. -/
inductive CredRes where
  | ok
  | refused
  | failed (e : AccErr)
deriving DecidableEq, Repr

/-- R146, R418: the update of one element at its home. -/
def State.credAt (s : State) (o : HomeOp) : CredRes × State :=
  match s.badAt o.pa 4 with
  | some pa => (.failed (.memory pa 4 6), s)
  | none => (.ok, s.performAt o)

/-- R145, R146: one element: read, then updated at its home; on another device's memory the update is sent there. R146 does
not say which right the update of C[e] needs: here W alone (DESIGN CHOICE, log entry 112). R418: the word at the home is read
too, and an uncorrectable error in it fails the element. -/
def credElem (r : Run) (k : CmdRef) (c : Cmd) (e : Nat) (s : State) : CredRes × State :=
  let x := c.args
  match readElem s r.lease r.extn c.tidA e 0 with
  | (.error z, s1) => (.failed z, s1)
  | (.ok v, s1) =>
    let kind := HomeKind.cred (x.fld 94 92) (tidFmt c.tidA) (x.fld 91 89) (x.bit 88) r.fz (BitVec.ofNat 32 v)
    match extAddr r.lease r.extn (tidExt c.tidC) (tidOffset c.tidC + 4 * e) 4 .w with
    | .error z => (.failed z, s1)
    | .ok va =>
      match covered r.lease va 4 .w with
      | .error z => (.failed (.lease va 4 2 z), s1)
      | .ok ext =>
        match pathRefuses s1 (ext.place va) x.scope.toNat false with
        | some _ => (.refused, s1)
        | none =>
          match ext.place va with
          | .phys pa attr => s1.credAt ⟨homeDie pa, pa, false, recalls pa attr, kind, .none⟩
          | .peer p off =>
            if isSelf s1 p then
              match ingress s1 s1.dev.devno.toNat p.win off 4 true true (x.scope == 5#3) p.key with
              | .ok pa => s1.credAt ⟨homeDie pa, pa, false, (readImport s1 p.win).sa, kind, .none⟩
              | .error z => (.failed (.import va 4 6 z), s1)
            else (.ok, s1.sendPeer p off (BitVec.ofNat 64 va) c.pc false kind (x.scope == 5#3) (.elem k))

/-- R146: the elements in ascending order, up to the first that is refused or fails. -/
def credAll (r : Run) (k : CmdRef) (c : Cmd) : List Nat → State → CredRes × State
  | [], s => (.ok, s)
  | e :: es, s =>
    match credElem r k c e s with
    | (.ok, s1) => credAll r k c es s1
    | (q, s1) => (q, s1)

/-- R146, R205: a CRED whose last update has been sent completes with a status once every update has been performed at
its home: at once when none is with another device. -/
def State.credWait (s : State) (k : CmdRef) (refused : Bool) : State :=
  let s1 := s.modCmd k fun y => { y with step := 1, bad := refused }
  if s1.peers.any fun w => decide (w.owner = .elem k) then s1 else s1.cmdDone k (if refused then 2#2 else 0#2)

/-- CRED (R146). -/
def execCred (k : CmdRef) (x : CmdArgs) (s : State) : Result :=
  withCmd k s fun r c s =>
    match credAll r k c ((List.range x.p1.toNat).map fun i => x.p0.toNat + i) s with
    | (.ok, s1) => s1.credWait k false
    | (.refused, s1) => s1.credWait k true
    | (.failed e, s1) => s1.cmdFault k c e

/-! ## CONTRIB (R147 to R150) -/

/-- R148: the wire formats: e4m3, e5m2, bf16. -/
def wireFmt (w : Nat) : Nat :=
  match w with
  | 0 => 11
  | 1 => 12
  | _ => 10

/-- R148: the values of a vector's elements from e0 on, and +0 for each where there is no vector. -/
def readVals (r : Run) (used : Bool) (t : Tid) (e0 n : Nat) (s : State) : Except AccErr (List Num) × State :=
  if used then mapAcc ((List.range n).map fun i => e0 + i) (fun e s => readValue s r.lease r.extn t r.fz e 0) s
  else (.ok (List.replicate n (zeroNum false)), s)

def finite : Num → Bool
  | .fin _ _ _ _ => true
  | _ => false

/-- R148: one element: its code, its residual, and its generator afterwards. The rule says that v = x + g is exact and gives no
sign to an exact sum of zero from terms of opposite sign: here it is +0 in every mode (DESIGN CHOICE, log entry 110). -/
def quantOne (ty mode : Nat) (sat fz : Bool) (g : W32) (x y : Num) : Nat × W32 × W32 :=
  let v := addNum 0 x y
  let q := roundG ty mode sat fz g v
  let back := decodeNum ty false q.1
  (q.1, if finite v ∧ finite back then BitVec.ofNat 32 (roundN 8 0 false fz (addNum 0 v (negNum back))) else 0#32, q.2)

/-- R148: quantise elements from e0 on, each with the generator of its number modulo 512. -/
def quantAll (ty mode : Nat) (sat fz : Bool) : Nat → List (Num × Num) → SMap W32 → List (Nat × W32) × SMap W32
  | _, [], gens => ([], gens)
  | e, p :: ps, gens =>
    let q := quantOne ty mode sat fz (SMap.get 0#32 gens (e % 512)) p.1 p.2
    let rest := quantAll ty mode sat fz (e + 1) ps (SMap.ins gens (e % 512) q.2.2)
    ((q.1, q.2.1) :: rest.1, rest.2)

/-- R370: a fabric address. -/
def fabricAddr (dev win off : Nat) : W64 := BitVec.ofNat 64 (fieldAt dev 50 + fieldAt win 42 + off)

/-- R149: the header of one message. -/
def contribHeader (kind wire group rank : Nat) (epoch : BitVec 16) (count : Nat) (dest first : W64) (total : Nat) : List W64 :=
  [BitVec.ofNat 64 (fieldAt kind 62 + fieldAt wire 60 + fieldAt group 52 + fieldAt rank 40 + fieldAt epoch.toNat 24 + count),
    dest, first, BitVec.ofNat 64 total]

/-- R149: the messages of a contribution: at most 256 bytes of elements each. Every message but the last is filled (DESIGN
CHOICE, log entry 111). -/
def contribMsgs (k : CmdRef) (g : W64) (wire group : Nat) (epoch : BitVec 16) (dev win off e0 n : Nat) (codes : List Nat) :
    List OutMsg :=
  let w := fmtBits (wireFmt wire) / 8
  let per := 256 / w
  (List.range ((n + per - 1) / per)).map fun i =>
    let part := (codes.drop (per * i)).take per
    .contrib k (contribHeader 0 wire group (bits g 35 24) epoch part.length (fabricAddr dev win (off + 4 * per * i))
      (BitVec.ofNat 64 e0) n) (part.flatMap fun q => leBytes w q)

/-- R147: rank, members and next device of a group entry. -/
def groupRank (g : W64) : Nat := bits g 35 24
def groupSize (g : W64) : Nat := bits g 47 36 + 1

/-- R150, R151: the sums of a ring partial with this device's elements, rounded to binary32. -/
def ringAdd (ty : Nat) (vals : List W32) (q : List W32) : List W32 :=
  List.zipWith (fun (v c : W32) => BitVec.ofNat 32 (roundN 8 0 false false (addNum 0 (f32Of false v) (decodeNum ty false c.toNat))))
    vals q

/-- R148: residuals are written, and the command completes with a status. A CONTRIB whose task has ended leaves
nothing to complete. -/
def State.contribEnd (s : State) (c : Contrib) (status : BitVec 2) : State :=
  let s0 := { s with contribs := s.contribs.filter fun d => !decide (d.k = c.k) }
  match s0.run? c.k.task with
  | none => s0
  | some r =>
    match r.cmd? c.k.id with
    | none => s0
    | some cm =>
      if status = 0#2 then
        match forAcc (List.range c.resid.length) (fun i s =>
            let p := c.resid.getD i (0, 0#32)
            writeVa s r.lease p.1 (leBytes 4 p.2.toNat)) s0 with
        | (.ok _, s1) => s1.cmdDone c.k 0#2
        | (.error e, s1) => s1.cmdFault c.k cm e
      else s0.cmdDone c.k status

/-- R370: the parts of a fabric address. -/
def fabricDev (a : W64) : Nat := bits a 63 50
def fabricWin (a : W64) : Nat := bits a 49 42
def fabricOff (a : W64) : Nat := bits a 41 0

/-- R149: the header of a ring partial (KIND 1) or a result (KIND 2). Its elements are binary32, for which WIRE has no code: the
field holds the CONTRIB's (DESIGN CHOICE, log entry 111). -/
def ringHeader (kind : Nat) (m : RingMsg) : List W64 :=
  contribHeader kind m.wire.toNat m.group.toNat m.rank.toNat m.epoch m.vals.length m.dest m.first m.total.toNat

/-- R149: binary32 elements as they travel. -/
def ringBytes (vals : List W32) : List Byte := vals.flatMap fun v => leBytes 4 v.toNat

/-- R149 to R151, R374: the result reaches DEST as a plain store; the owner's import check may refuse it, and then it is
dropped. -/
def State.ringResult (s : State) (m : RingMsg) (key : W64) : State :=
  let bs := ringBytes m.vals
  if fabricDev m.dest = s.dev.devno.toNat then
    match ingress s s.dev.devno.toNat (fabricWin m.dest) (fabricOff m.dest) bs.length false true false key with
    | .ok pa => s.land pa bs
    | .error _ => s
  else { s with out := s.out ++ [OutMsg.ringResult (fabricDev m.dest) key (ringHeader 2 m) bs] }

/-- R151: a partial leaves for the next rank, or from the last rank as the result. -/
def State.ringSend (s : State) (g : W64) (m : RingMsg) (key : W64) : State :=
  if groupRank g + 1 = groupSize g then s.ringResult m key
  else { s with out := s.out ++ [.ring (bits g 23 10) (ringHeader 1 m) (ringBytes m.vals)] }

/-- R150: a contribution of this rank in ring mode is over: one with the same key is a duplicate from now on. -/
def State.ringOver (s : State) (c : Contrib) : State :=
  { s with ringDone := s.ringDone ++ [c.key] }.contribEnd c 0#2

/-- R150, R151: the partial is one of those a CONTRIB awaits: group and epoch are the same, and its DEST is that of one of the
CONTRIB's own messages. -/
def ringFits (m : RingMsg) (c : Contrib) : Bool :=
  let off := (m.dest - c.key.dest).toNat
  m.group == c.key.group && m.epoch == c.key.epoch && decide (off < 4 * c.q.length) && decide (off % 256 = 0)

/-- R150: the members agree on WIRE, FIRST, TOTAL and COUNT. -/
def ringAgrees (m : RingMsg) (c : Contrib) : Bool :=
  m.wire == c.wire && m.first == c.key.first && decide (m.total.toNat = c.q.length) &&
  decide (m.vals.length = min 64 (c.q.length - (m.dest - c.key.dest).toNat / 4))

/-- R151: a partial and the CONTRIB it is for: this rank adds its elements, and forwards or writes; the CONTRIB is
acknowledged once all its elements have gone. R150 acknowledges all members of a mismatch alike; in a ring the rank
that finds one has no message to the others: its own CONTRIB ends as a mismatch, the partial goes no further and nothing
lands (DEDUCED, log entry 58). -/
def State.ringStep (s : State) (m : RingMsg) (c : Contrib) : State :=
  if !ringAgrees m c then s.contribEnd c 2#2
  else
    let g := SMap.get 0#64 s.groups m.group.toNat
    let part := (c.q.drop ((m.dest - c.key.dest).toNat / 4)).take m.vals.length
    let vals := ringAdd (wireFmt c.wire.toNat) m.vals part
    let s1 := s.ringSend g { m with rank := BitVec.ofNat 12 (groupRank g), vals := vals } c.win.key
    let c1 := { c with sent := c.sent + m.vals.length }
    if c.q.length ≤ c1.sent then s1.ringOver c1
    else { s1 with contribs := s1.contribs.map fun d => if d.k = c.k then c1 else d }

/-- R151: match held partials with waiting CONTRIBs, the oldest partial first. -/
def State.ringMatch (s : State) : Nat → State
  | 0 => s
  | fuel + 1 =>
    match s.rings.findSome? fun m => (s.contribs.find? fun c => ringFits m c).map fun c => (m, c) with
    | some (m, c) => (({ s with rings := s.rings.erase m }).ringStep m c).ringMatch fuel
    | none => s

/-- R149, R151: rank 0's elements as partials of at most 64 elements, each but the last filled (DESIGN CHOICE, log entry
111). -/
def ringFirst (c : Contrib) : List RingMsg :=
  let vals := c.q.map fun q => BitVec.ofNat 32 (roundN 8 0 false false (decodeNum (wireFmt c.wire.toNat) false q.toNat))
  (List.range ((vals.length + 63) / 64)).map fun i =>
    ⟨c.wire, c.key.group, 0#12, c.key.epoch, c.key.dest + BitVec.ofNat 64 (256 * i), c.key.first,
      BitVec.ofNat 64 vals.length, (vals.drop (64 * i)).take 64⟩

/-- R150, R151: a CONTRIB of a ring: refused as a duplicate or for a rank the group has not, sent by rank 0, and
otherwise left with the engine for the partials. -/
def State.ringContrib (s : State) (g : W64) (c : Contrib) : State :=
  if groupSize g ≤ groupRank g then s.contribEnd c 2#2
  else if s.ringDone.contains c.key || s.contribs.any fun d => d.key == c.key then s.contribEnd c 1#2
  else if groupRank g = 0 then ((ringFirst c).foldl (fun t m => t.ringSend g m c.win.key) s).ringOver c
  else { s with contribs := s.contribs ++ [c] }.ringMatch (s.rings.length + 1)

/-- R148, R149, R151: send what was quantised: to the switch, or, in ring mode, to the next rank or to the engine's
hold. -/
def State.contribSend (s : State) (k : CmdRef) (x : CmdArgs) (p : PeerWin) (off : Nat) (codes : List Nat)
    (resid : List (Nat × W32)) : State :=
  let group := x.fld 87 80
  let g := SMap.get 0#64 s.groups group
  let epoch : BitVec 16 := BitVec.ofNat 16 (x.fld 79 64)
  let e0 := x.p0.toNat
  let key : ContribKey := ⟨BitVec.ofNat 8 group, epoch, fabricAddr p.dev p.win off, BitVec.ofNat 64 e0⟩
  let c : Contrib := ⟨k, key, BitVec.ofNat 2 (x.fld 94 92), codes.map fun q => BitVec.ofNat 32 q, 0, resid, p⟩
  let s1 := s.modCmd k fun y => { y with step := 1 }
  if bit g 62 then s1.ringContrib g c
  else { s1 with
    contribs := s1.contribs ++ [c]
    out := s1.out ++ contribMsgs k g (x.fld 94 92) group epoch p.dev p.win off e0 x.p1.toNat codes }

/-- R148, R364: the checks on one destination element and its residual before anything is sent. -/
def contribElem (r : Run) (c : Cmd) (e : Nat) : Except AccErr Unit :=
  match extAddr r.lease r.extn (tidExt c.tidC) (tidOffset c.tidC + 4 * e) 4 .w with
  | .error z => .error z
  | .ok vc =>
    match covered r.lease vc 4 .w with
    | .error z => .error (.lease vc 4 2 z)
    | .ok _ =>
      if c.args.fc then
        match extAddr r.lease r.extn (tidExt c.tidB) (tidOffset c.tidB + 4 * e) 4 .w with
        | .error z => .error z
        | .ok vb =>
          match covered r.lease vb 4 .w with
          | .error z => .error (.lease vb 4 2 z)
          | .ok _ => .ok ()
      else .ok ()

/-- R148: the destination's window and offset, and the address of the first residual, when every element passes. -/
def contribPlaces (r : Run) (c : Cmd) : Except AccErr (PeerWin × Nat × Nat) :=
  let x := c.args
  let base (t : Tid) : Nat := match extentOf r.lease r.extn (tidExt t) with
    | some e => e.base + tidOffset t + 4 * x.p0.toNat
    | none => 0
  match (List.range x.p1.toNat).findSome? fun i =>
      match contribElem r c (x.p0.toNat + i) with | .error e => some e | .ok _ => none with
  | some e => .error e
  | none =>
    match (extentOf r.lease r.extn (tidExt c.tidC)).bind (·.peer) with
    | none => .error (.lease (base c.tidC) 4 2 1)
    | some p => .ok (p, base c.tidC % 2 ^ 42, base c.tidB)

/-- CONTRIB (R148). -/
def execContrib (k : CmdRef) (x : CmdArgs) (s : State) : Result :=
  withCmd k s fun r c s =>
    let n := x.p1.toNat
    let e0 := x.p0.toNat
    if n = 0 then s.cmdDone k 0#2
    else match contribPlaces r c with
      | .error e => s.cmdFault k c e
      | .ok (p, off, vb) =>
        match readVals r true c.tidA e0 n s with
        | (.error e, s1) => s1.cmdFault k c e
        | (.ok xs, s1) =>
          match readVals r x.fc c.tidB e0 n s1 with
          | (.error e, s2) => s2.cmdFault k c e
          | (.ok ys, s2) =>
            let q := quantAll (wireFmt (x.fld 94 92)) (x.fld 91 89) (x.bit 88) r.fz e0 (xs.zip ys) r.coll.gens
            let resid := if x.fc then (List.range n).map fun i => (vb + 4 * i, (q.1.getD i (0, 0#32)).2) else []
            (s2.modRun k.task fun t => { t with coll := { t.coll with gens := q.2 } }).contribSend k x p off
              (q.1.map (·.1)) resid

/-- CONTRIB_ACK (R148, R150): the acknowledgement of a whole CONTRIB. -/
def execContribAck (k : CmdRef) (status : BitVec 2) (s : State) : Result :=
  match s.contribs.find? fun c => decide (c.k = k) with
  | some c => .next (s.contribEnd c status)
  | none => .next s

/-- The arrival of a partial. -/
def partialOf (m : RingMsg) : Instr := .ringPartial m.group m.epoch m.dest m.first ⟨m.wire, m.rank, m.total, m.vals⟩

/-- R148, R151: the I/O die whose collective engine serves a partial's group: the one that carries the group's PORT. -/
def ringDie (s : State) (m : RingMsg) : Nat := bits (SMap.get 0#64 s.groups m.group.toNat) 61 54 / 24

/-- R151: a partial arrives. With its CONTRIB waiting it goes on at once; otherwise it waits in the hold of its engine, of
64 messages, and with the hold full link-level retry holds the sender, so it arrives again. R150: a sender whose rank the
group has not disturbs nobody: its message is discarded. -/
def State.ringArrives (m : RingMsg) (s : State) : State :=
  let g := SMap.get 0#64 s.groups m.group.toNat
  if bit g 63 && decide (groupSize g ≤ m.rank.toNat) then s
  else match s.contribs.find? fun c => ringFits m c with
    | some c => s.ringStep m c
    | none => if (s.rings.filter fun x => ringDie s x == ringDie s m).length < 64 then { s with rings := s.rings ++ [m] } else s.push (partialOf m)

/-- RING_PARTIAL (R151): a message of KIND 1 from another device of the ring. -/
def execRingPartial (group : Byte) (epoch : BitVec 16) (dest first : W64) (vals : RingVals) (s : State) : Result :=
  .next (State.ringArrives ⟨vals.wire, group, vals.rank, epoch, dest, first, vals.total, vals.vals⟩ s)

end Sys2Proof.Machine
end

