-- ==== Sys2Proof/Machine/Control.lean ====
section
/-! DEFINITION. Control flow of the control core (R256 to R259), the system registers, traps and returns (R391 to
R402), deliveries of late producers (R85, R86) and the switch between resident contexts (R408). -/

namespace Sys2Proof.Machine

/-! ## Branches and jumps (R256, R257) -/

def execBeq (b a : Reg) (ta tb : Bool) (i : BitVec 14) (s : State) : Result := branch (fun x y => x == y) b a ta tb i s
def execBne (b a : Reg) (ta tb : Bool) (i : BitVec 14) (s : State) : Result := branch (fun x y => x != y) b a ta tb i s
def execBlt (b a : Reg) (ta tb : Bool) (i : BitVec 14) (s : State) : Result := branch ltS b a ta tb i s
def execBge (b a : Reg) (ta tb : Bool) (i : BitVec 14) (s : State) : Result :=
  branch (fun x y => !ltS x y) b a ta tb i s
def execBltu (b a : Reg) (ta tb : Bool) (i : BitVec 14) (s : State) : Result := branch ltU b a ta tb i s
def execBgeu (b a : Reg) (ta tb : Bool) (i : BitVec 14) (s : State) : Result :=
  branch (fun x y => !ltU x y) b a ta tb i s

/-- R257: JAL. -/
def execJal (d : Reg) (i : BitVec 21) (s : State) : Result :=
  withDest d s fun s => .next ((s.setReg d (s.cc.pc + 4#64)).jump (relTarget s i))

/-- R257: JALR; s[a] is read before rd is written, and a misaligned target traps with rd unchanged. -/
def execJalr (d a : Reg) (ta : Bool) (o : BitVec 13) (s : State) : Result :=
  withSrcs [(a, ta)] s fun s =>
    let t := s.reg a + (sext64 o <<< 2)
    if t.toNat % 4 ≠ 0 then .next (s.trap 0x03 0 0 t false)
    else withDest d s fun s => .next ((s.setReg d (s.cc.pc + 4#64)).jump t)

/-- R258: LOOP; a count of 0 skips the body, which is a taken transfer (DEDUCED, log entry 9). -/
def execLoop (a : Reg) (ta : Bool) (l : BitVec 13) (s : State) : Result :=
  withSrcs [(a, ta)] s fun s =>
    let c := (s.reg a).toNat
    let last := s.cc.pc + BitVec.ofNat 64 (4 * l.toNat)
    if 2 ^ 32 ≤ c then .next (s.trap 0x04 1 0 (s.reg a) false)
    else if c = 0 then .next (s.jump (last + 4#64))
    else if 4 ≤ s.cc.loops.length then .next (s.trap 0x04 2 0 (s.reg a) false)
    else .next (s.modCc fun r => { r with loops := ⟨s.cc.pc + 4#64, last, c⟩ :: r.loops }).retire

/-! ## Giving way (R259, R408) -/

/-- R259: PAUSE at a cycle C holds the context back in the cycles C + 1 to C + n. -/
def execPause (n : BitVec 13) (s : State) : Result :=
  if n = 0#13 then .next s.retire
  else .next ((s.modCc fun r => { r with pauseTo := s.cyc + n.toNat + 1 }).giveWay).retire

/-- R259: YIELD. -/
def execYield (s : State) : Result := .next s.giveWay.retire

/-- R259: a PAUSE holds the context back in this cycle: it has not ended, and another resident context of its CC can
issue. -/
def State.paused (s : State) (r : Run) : Bool :=
  decide (s.cyc < r.pauseTo) && s.allRuns.any fun x => x.fc == r.fc && x.task != r.task && x.canIssue s.cyc

/-- R408: a context that gives way, or is ending, hands over to the next that can issue; where none can, it goes on. -/
def State.switchFrom (s : State) (r : Run) : State :=
  match nextResident s r.fc r.ctxn fun x => x.task != r.task && x.canIssue s.cyc with
  | some x => s.activate r.fc x.task
  | none => s.modRun r.task fun x => { x with yields := false }

/-- R254, R408: a core without an active context takes a resident one whose window has not ended. -/
def State.wakeCore (s : State) (fc : Nat) : State :=
  if s.allRuns.any fun x => x.active && x.fc == fc then s
  else match nextResident s fc 2 fun x => x.ending.isNone with
    | some x => s.activate fc x.task
    | none => s

/-- CONTEXT_SWITCH (R408): every core whose active context gives way or is ending switches, and one without an active
context takes one. -/
def execContextSwitch (s : State) : Result :=
  let s1 := (s.allRuns.filter fun r => r.active && (r.yields || r.ending.isSome)).foldl State.switchFrom s
  .next ((s1.allRuns.filter fun r => !r.active).foldl (fun t r => t.wakeCore r.fc) s1)

/-! ## System registers (R399, R400) -/

/-- R399: the value of a system register; an unallocated number has none. sr.slot is sr.cyc div 64, and sr.cyc wraps
(R25, R285). -/
def srRead (s : State) (r : BitVec 12) : W64 :=
  let y := s.cc.sys
  match r.toNat with
  | 0x000 => BitVec.ofNat 64 s.cyc
  | 0x001 => BitVec.ofNat 64 (s.cyc % 2 ^ 64 / 64)
  | 0x002 => s.cc.task
  | 0x003 => s.cc.place
  | 0x004 => y.seed
  | 0x008 => y.tvec
  | 0x009 => y.cause
  | 0x00A => y.epc
  | 0x00B => y.tval
  | 0x00C => flagWord y.hmode
  | 0x010 => y.csig
  | 0x011 => y.wbar
  | 0x012 => y.wtok
  | n => if 0x20 ≤ n ∧ n ≤ 0x27 then word8 y.frec (n - 0x20) else 0#64

/-- R399: bits [1:0] of sr.tvec and sr.epc read 0. -/
def alignPc (v : W64) : W64 := v &&& ~~~3#64

/-- R400: write a writable system register. -/
def srWrite (y : SysRegs) (r : BitVec 12) (v : W64) : SysRegs :=
  match r.toNat with
  | 0x004 => { y with seed := v }
  | 0x008 => { y with tvec := alignPc v }
  | 0x009 => { y with cause := v }
  | 0x00A => { y with epc := alignPc v }
  | 0x00B => { y with tval := v }
  | 0x010 => { y with csig := v }
  | 0x011 => { y with wbar := v }
  | 0x012 => { y with wtok := v }
  | _ => y

/-- R400: SRR. -/
def execSrr (d : Reg) (r : BitVec 12) (s : State) : Result :=
  withDest d s fun s => finish d (srRead s r) s

/-- R400: SRW waits for s[a]. -/
def execSrw (a : Reg) (r : BitVec 12) (s : State) : Result :=
  withSrcs [(a, false)] s fun s =>
    .next (s.modCc fun c => { c with sys := srWrite c.sys r (s.reg a) }).retire

/-! ## Traps and returns -/

/-- R402: ERET; with H = 0 it is an illegal instruction. -/
def execEret (s : State) : Result :=
  if s.cc.sys.hmode then .next s.trapReturn else .next (s.trap 0x01 0 0 0xFC008000#64 false)

/-- R401: TRAP. -/
def execTrap (n : BitVec 12) (s : State) : Result := .next (s.trap 0x05 0 0 (n.setWidth 64) true)

/-- R32, R34: a word that is no instruction. -/
def execIllegalInstruction (w : W32) (s : State) : Result := .next (s.trap 0x01 0 0 (w.setWidth 64) false)

/-- R392: the deferred trap that is taken first: a region fault, else the missed promise of lowest P. -/
def firstDue (l : List DueTrap) : Option DueTrap :=
  match l.find? (·.region) with
  | some d => some d
  | none => l.foldl (fun b d => match b with
      | none => some d
      | some x => if d.prom < x.prom then some d else some x) none

/-- R392, R393: a deferred trap is taken at an instruction boundary at which no handler runs. R396: CYC of a missed promise's
record is the cycle at which it was found. -/
def execDeferredTrapEntry (s : State) : Result :=
  if s.cc.sys.hmode ∨ s.cc.ending.isSome then .next s
  else match firstDue s.cc.due with
    | none => .next s
    | some d =>
      let s1 := s.modCc fun r => { r with due := r.due.erase d }
      let rec_ := if d.region then d.rec_ else mkRec (word8 d.rec_ 1).toNat s.cc d.cause (ccInfo s.cc.pc d.tval)
      .next (s1.trapEntry d.cause s.cc.pc d.tval rec_)

/-- R85, R86: a late producer's value lands in its register and makes it full, unless MKE cancelled it. -/
def landFlight (id : Nat) (r : Run) : Run :=
  match r.flights.find? fun f => decide (f.id = id) with
  | some f =>
    match f.val with
    | some v =>
      let r1 := { r with flights := r.flights.filter (fun g => !decide (g.id = id)), stall := 0 }
      if f.live then r1.setReg f.rd v else r1
    | none => r
  | none => r

/-- R86: LATE_DELIVERY: the delivery lands in the context of its task, resident or saved (R81). The context's next
access, if one waits, has its turn (R185). -/
def execLateDelivery (k : CmdRef) (s : State) : Result := .next ((s.modCtx k.task (landFlight k.id)).drain k.task)

end Sys2Proof.Machine
end

