-- ==== Sys2Proof/Machine/Ports.lean ====
section
/-! DEFINITION. The ports of a region: streams, run-ahead, emission, indirect reading, writing (R212 to R215, R454,
R295, R299, R301, R404) and the port commands (R299 to R303). -/

namespace Sys2Proof.Machine

/-! ## Elements in records (R65, R454) -/

/-- Bytes as 32-bit fields, the last one filled with zero. -/
def fieldsOf : Nat → List Byte → List W32
  | 0, _ => []
  | n + 1, bs => if bs.isEmpty then [] else BitVec.ofNat 32 (leNat (bs.take 4)) :: fieldsOf n (bs.drop 4)

/-- R65, R454: containers packed into record fields: a log6 container fills one field, others follow as bytes. -/
def packConts (ty : Nat) (cs : List Nat) : List W32 :=
  if ty = 14 then cs.map (BitVec.ofNat 32) else
    let bs := cs.flatMap (leBytes (contBytes ty))
    fieldsOf bs.length bs

/-- R65, R454: the first n containers that a record's fields hold; fields beyond the record read 0. -/
def unpackConts (ty n : Nat) (flds : List W32) : List Nat :=
  if ty = 14 then (List.range n).map fun i => (flds.getD i 0#32).toNat % 2 ^ 24
  else
    let bs := flds.flatMap fun f => leBytes 4 f.toNat
    (List.range n).map fun i => leNat ((bs.drop (contBytes ty * i)).take (contBytes ty))

/-- R454: the container of zero codes. -/
def zeroCont (ty : Nat) : Nat := if ty = 14 then packCodes 14 [0x10, 0x10, 0x10, 0x10] else 0

/-! ## Generators (R212, R301) -/

/-- R212: how many elements (containers) an affine stream holds. -/
def Gen.total : Gen → Nat
  | .affine _ n0 n1 n2 n3 _ _ _ _ _ _ _ => n0 * n1 * n2 * n3
  | _ => 0

/-- R212, R301: the offset, in the bound extent, of element j in the present pass. -/
def Run.affineOff (r : Run) (p : Port) (j : Nat) : Int :=
  match p.gen with
  | .affine b n0 n1 n2 _ d0 d1 d2 d3 q0 q1 q2 =>
    (tidOffset p.tid : Int) + b + r.region.j0 * q0 + r.region.j1 * q1 + r.region.j2 * q2 +
      (j % n0 : Nat) * d0 + (j / n0 % n1 : Nat) * d1 + (j / n0 / n1 % n2 : Nat) * d2 + (j / n0 / n1 / n2 : Nat) * d3
  | _ => 0

/-- R212, R301, R454: the offset of consecutive element i of the fetch of an index. -/
def indirectOff (p : Port) (x : W32) (i : Nat) : Int :=
  match p.gen with
  | .indirect b sh =>
    let off : Int := (tidOffset p.tid : Int)
    let a := off + b + (x.toNat * 2 ^ sh : Nat)
    let c : Int := (contBytes (tidFmt p.tid) : Nat)
    let a' := if tidFmt p.tid = 14 then off + (a - off) / c * c else a
    a' + i * c
  | _ => 0

/-- R363, R364: the address of a container at an offset of a port's extent, when the lease grants the right. -/
def Run.portVa (r : Run) (p : Port) (off : Int) (right : Right) : Except AccErr Nat :=
  let n := contBytes (tidFmt p.tid)
  match extentOf r.lease r.extn (tidExt p.tid) with
  | none => .error (.lease (wrapNat 64 off) n right.code 1)
  | some e =>
    let va := wrapNat 64 ((e.base : Int) + off)
    match covered r.lease va n right with
    | .error x => .error (.lease va n right.code x)
    | .ok _ => .ok va

/-- R396: what a port says in a fault record. -/
def portInfo (k lane : Nat) : FaultInfo := { ccInfo 0#64 0#64 with agent := 2, unit_ := k, lane := lane }

/-! ## Run-ahead (R214) -/

/-- R307: records held in the window of a port by RECIRCs. -/
def Run.heldIn (r : Run) (k : Nat) : Nat :=
  (r.region.sites.map fun e => if e.2.isRecirc && e.2.args.m 3 0 == k then e.2.core.fl.hold.length else 0).sum

/-- R214, R307: the first ordinal beyond the window: 16 KiB, less 64 bytes for each held record, past the oldest element
not yet consumed. -/
def Run.windowEnd (r : Run) (k : Nat) (p : Port) : Nat :=
  p.owed.foldl min (p.next * p.per) + (16384 - 64 * r.heldIn k) / contBytes (tidFmt p.tid)

/-- R214: requests go on until the window ends or an element does not lie in the lease. -/
def reqUpTo (r : Run) (p : Port) : Nat → Nat → Nat × Option Nat
  | 0, j => (j, none)
  | n + 1, j =>
    match r.portVa p (r.affineOff p j) .r with
    | .ok _ => reqUpTo r p n (j + 1)
    | .error _ => (j, some j)

/-- The elements of a record that a stream holds. -/
def Port.ordinals (p : Port) (first : Nat) : List Nat :=
  (List.range p.per).filterMap fun i => if first + i < p.gen.total then some (first + i) else none

def Port.has (p : Port) (j : Nat) : Bool := p.landed.any fun e => decide (e.1 = j)

/-- R214: an affine reading port requests elements; their arrivals are pending events, and so is its next bundle. -/
def State.runAhead (s : State) (h : W64) (k : Nat) (r : Run) (p : Port) : State :=
  let q := if p.stopAt.isSome then (p.req, p.stopAt)
    else reqUpTo r p (min p.gen.total (r.windowEnd k p) - p.req) p.req
  let again := (p.owed.flatMap p.ordinals).filter fun j => !p.has j
  let new := (List.range (q.1 - p.req)).map fun i => p.req + i
  let s1 := s.putPort h k { p with req := max p.req q.1, stopAt := q.2 }
  ((again ++ new).foldl (fun t j => t.pushNew (.portElementLanded ⟨h, k⟩ j .none)) s1).pushNew (.portEmit ⟨h, k⟩)

/-- A port of a running region that streams. -/
def withPort (a : PortRef) (s : State) (f : Run → Port → State → State) : Result :=
  match s.live? a.task with
  | none => .next s
  | some r => if (r.port a.port).started then .next (f r (r.port a.port) s) else .next s

/-- R214, R215: an affine reading port that requests elements: those to come, and, also behind its final dusk, those
that records marked absent still wait for. -/
def Port.reads (p : Port) : Bool := p.mode == 1 && !p.gen.isIndirect && !p.stopped

/-- PORT_RUN_AHEAD (R214). -/
def execPortRunAhead (p : PortRef) (s : State) : Result :=
  withPort p s fun r q s => if q.reads then s.runAhead p.task p.port r q else s

/-- R215: a requested element is awaited: by the records still to come, or by one that left absent. -/
def Port.awaits (p : Port) (j : Nat) : Bool :=
  !p.has j && ((decide (p.next * p.per ≤ j ∧ j < p.req)) || p.owed.any fun o => decide (o ≤ j ∧ j < o + p.per))

/-- R396: the lane of the record that holds an element still to come. -/
def Port.laneOf (p : Port) (j : Nat) : Nat := (j / p.per - p.next) % 16

/-- PORT_ELEMENT_LANDED (R215, R417, R418). -/
def execPortElementLanded (p : PortRef) (j : Nat) (e : MemErr) (s : State) : Result :=
  withPort p s fun r q s =>
    if !q.reads || !q.awaits j then s
    else
      match e with
      | .uncorrectable pa => s.roundError p.task pa (portInfo p.port (q.laneOf j))
      | _ =>
        let s0 := match e with | .corrected pa => s.correctable 0 pa | _ => s
        match r.portVa q (r.affineOff q j) .r with
        | .error x => s0.regionAcc p.task (portInfo p.port (q.laneOf j)) x
        | .ok va =>
          match readVa s0 r.lease va (contBytes (tidFmt q.tid)) with
          | (.error x, s1) => s1.regionAcc p.task (portInfo p.port (q.laneOf j)) x
          | (.ok bs, s1) => s1.putPort p.task p.port { q with landed := q.landed ++ [(j, leNat bs)] }

/-! ## Emission (R215, R122, R299) -/

/-- R454: the containers of the record that begins at an ordinal, when all that the stream holds have landed. -/
def Port.recordAt (p : Port) (first : Nat) : Option (List Nat) :=
  (List.range p.per).mapM fun i =>
    if p.gen.total ≤ first + i then some (zeroCont (tidFmt p.tid))
    else (p.landed.find? fun e => decide (e.1 = first + i)).map (·.2)

/-- R299: the hidden tag of a record. -/
def tagOf (n : Nat) : BitVec 16 := BitVec.ofNat 16 n

/-- The port sends final dusk into its site. -/
def State.portDusk (s : State) (h : W64) (k : Nat) (r : Run) (p : Port) : State :=
  (s.putPort h k { p with dusked := true }).toInput h (r.siteOfPort k) 3 (.dusk true)

/-- The port sends a bundle into its site and stands at a record. -/
def State.portSend (s : State) (h : W64) (k : Nat) (r : Run) (p : Port) (lanes : List Rec) : State :=
  (s.putPort h k p).toInput h (r.siteOfPort k) 3
    (.data ⟨(List.range 16).map fun l => lanes[l]?, BitVec.ofNat 8 p.rnd, [(k, p.next)]⟩)

/-- R215: the record of an affine stream, absent when something of it has not landed. -/
def Port.laneRec (p : Port) (k n : Nat) : Rec :=
  let first := n * p.per
  match p.recordAt first with
  | some cs => ⟨packConts (tidFmt p.tid) cs, tagOf first, none⟩
  | none => ⟨(packConts (tidFmt p.tid) (List.replicate p.per 0)).map fun _ => 0#32, tagOf first, some (k, first)⟩

/-- R214, R215: the next bundle of an affine reading port. -/
def State.emitAffine (s : State) (h : W64) (k : Nat) (r : Run) (p : Port) : State :=
  let total := (p.gen.total + p.per - 1) / p.per
  if total ≤ p.next then s.portDusk h k r p
  else
    let n := min 16 (total - p.next)
    let m := match p.stopAt with | some j => min n (j / p.per - p.next) | none => n
    if m = 0 then
      match r.portVa p (r.affineOff p (p.stopAt.getD 0)) .r with
      | .error x => s.regionAcc h (portInfo k 0) x
      | .ok _ => s
    else
      let lanes := (List.range m).map fun l => p.laneRec k (p.next + l)
      let late := lanes.filterMap fun q => q.absent.map (·.2)
      let next := p.next + m
      let kept (j : Nat) : Bool := decide (next * p.per ≤ j) || (p.owed ++ late).any fun o => decide (o ≤ j ∧ j < o + p.per)
      (s.portSend h k r { p with next := next, owed := p.owed ++ late, landed := p.landed.filter fun e => kept e.1 }
        lanes).pushNew (.portRunAhead ⟨h, k⟩)

/-- R120, R122: the four fields of each row of a tile descriptor. -/
def tileLanes (tile : Nat) (bs : List Byte) : List Rec :=
  (List.range 16).map fun l => ⟨[BitVec.ofNat 32 (leNat ((bs.drop (2 * l)).take 2)),
    BitVec.ofNat 32 (leNat ((bs.drop 36).take 2)), BitVec.ofNat 32 (leNat ((bs.drop 32).take 4)), BitVec.ofNat 32 tile],
    tagOf (16 * tile + l), none⟩

/-- R122: n 32-bit words at an offset of an extent, as the fields of one record. -/
def wordFields (s : State) (r : Run) (ext off n : Nat) : Except AccErr (List W32) × State :=
  match readExt s r.lease r.extn ext off (4 * n) with
  | (.error e, s1) => (.error e, s1)
  | (.ok bs, s1) => (.ok (fieldsOf n bs), s1)

/-- R121, R122: how many records (tiles) a metadata or offset stream holds. R121 does not say when a port reads the count N
of a coordinate list: here before every bundle, so a change while the stream runs counts (DESIGN CHOICE, log entry 108). -/
def metaCount (s : State) (r : Run) (p : Port) : Except AccErr Nat × State :=
  let t := p.tid
  if p.mode = 5 then (.ok (tidDim t 0 - 1), s)
  else if tidSparse t = 1 then (.ok ((tidDim t 0 + 15) / 16 * ((tidDim t 1 + 15) / 16)), s)
  else match readExt s r.lease r.extn (tidMext t) (tidMbase t) 8 with
    | (.error e, s1) => (.error e, s1)
    | (.ok bs, s1) => (.ok (leNat bs), s1)

/-- R122: record number n of a coordinate list or an offset array. A number of 2^32 or more stands in its field modulo 2^32
(DESIGN CHOICE, log entry 109). -/
def metaRec (r : Run) (p : Port) (n : Nat) (s : State) : Except AccErr Rec × State :=
  let t := p.tid
  if p.mode = 5 then
    match wordFields s r (tidExt t) (tidOffset t + 4 * n) 2 with
    | (.error e, s1) => (.error e, s1)
    | (.ok fs, s1) => (.ok ⟨fs, tagOf n, none⟩, s1)
  else
    match wordFields s r (tidMext t) (tidMbase t + 8 + 4 * tidRank t * n) (tidRank t) with
    | (.error e, s1) => (.error e, s1)
    | (.ok fs, s1) => (.ok ⟨fs ++ [BitVec.ofNat 32 n], tagOf n, none⟩, s1)

/-- R122: the records of a bundle, lane by lane; or the first lane whose read fails, and how. -/
def metaRecs (r : Run) (p : Port) : List Nat → State → Except (Nat × AccErr) (List Rec) × State
  | [], s => (.ok [], s)
  | n :: ns, s =>
    match metaRec r p n s with
    | (.error e, s1) => (.error (0, e), s1)
    | (.ok q, s1) =>
      match metaRecs r p ns s1 with
      | (.error e, s2) => (.error (e.1 + 1, e.2), s2)
      | (.ok l, s2) => (.ok (q :: l), s2)

/-- R122: the lanes of the next bundle of a metadata or offset stream, and how far it goes on. -/
def metaLanes (s : State) (r : Run) (p : Port) (count : Nat) : Except (Nat × AccErr) (List Rec × Nat) × State :=
  if p.mode = 4 ∧ tidSparse p.tid = 1 then
    match readExt s r.lease r.extn (tidMext p.tid) (tidMbase p.tid + 64 * p.next) 64 with
    | (.error e, s1) => (.error (0, e), s1)
    | (.ok bs, s1) => (.ok (tileLanes p.next bs, p.next + 1), s1)
  else
    let n := min 16 (count - p.next)
    match metaRecs r p ((List.range n).map fun i => p.next + i) s with
    | (.error e, s1) => (.error e, s1)
    | (.ok l, s1) => (.ok (l, p.next + n), s1)

/-- R122, R299: the next bundle of a metadata or offset stream. The count is read anew before each (DESIGN CHOICE, log entry
108). -/
def State.emitMeta (s : State) (h : W64) (k : Nat) (r : Run) (p : Port) : State :=
  match metaCount s r p with
  | (.error e, s1) => s1.regionAcc h (portInfo k 0) e
  | (.ok n, s1) =>
    if n ≤ p.next then s1.portDusk h k r p
    else match metaLanes s1 r p n with
      | (.error e, s2) => s2.regionAcc h (portInfo k e.1) e.2
      | (.ok l, s2) => (s2.portSend h k r { p with next := l.2 } l.1).pushNew (.portEmit ⟨h, k⟩)

/-- R299, R454: the next bundle of a push-receive port: whole records, and the last, partial one when every byte has
come. -/
def State.emitPush (s : State) (h : W64) (k : Nat) (r : Run) (p : Port) : State :=
  let ty := tidFmt p.tid
  let c := contBytes ty
  let rb := p.per * c
  let left := p.bytes - p.next * rb
  if left = 0 then s.portDusk h k r p
  else
    let n := min 16 (min p.pushed.length left / rb)
    let part := n < 16 ∧ left - n * rb < rb ∧ left - n * rb ≤ p.pushed.length - n * rb ∧ 0 < left - n * rb
    let one (i : Nat) : Rec :=
      let bs := ((p.pushed.drop (i * rb)).take (min rb (left - i * rb)))
      let cs := (List.range p.per).map fun e =>
        if bs.length ≤ e * c then zeroCont ty else leNat ((bs.drop (e * c)).take c)
      ⟨packConts ty cs, tagOf ((p.next + i) * p.per), none⟩
    let m := if part then n + 1 else n
    if m = 0 then s
    else
      ((s.portSend h k r { p with
          next := p.next + m, pushed := p.pushed.drop (m * rb), kept := p.kept ++ p.pushed.take (m * rb) }
        ((List.range m).map one)).pushNew (.portEmit ⟨h, k⟩)).kickAll

/-- PORT_EMIT (R215, R122, R299). -/
def execPortEmit (p : PortRef) (s : State) : Result :=
  withPort p s fun r q s =>
    if q.stopped || q.dusked then s
    else match q.mode with
      | 1 => if q.gen.isIndirect then s else s.emitAffine p.task p.port r q
      | 3 => s.emitPush p.task p.port r q
      | 4 => s.emitMeta p.task p.port r q
      | 5 => s.emitMeta p.task p.port r q
      | _ => s

/-! ## Records sent to a port (R301, R299) -/

/-- R301: one container of the answer to an index. -/
def answerCont (r : Run) (p : Port) (x : W32) (i : Nat) (s : State) : Except AccErr Nat × State :=
  match r.portVa p (indirectOff p x i) .r with
  | .error e => (.error e, s)
  | .ok va =>
    match readVa s r.lease va (contBytes (tidFmt p.tid)) with
    | (.error e, s1) => (.error e, s1)
    | (.ok bs, s1) => (.ok (leNat bs), s1)

/-- R301: the answer to the index record of a lane; an absent one passes back unchanged. -/
def answerLane (r : Run) (p : Port) (b : Bundle) (l : Nat) (s : State) : Except (Nat × AccErr) (Option Rec) × State :=
  match (b.lanes[l]?).join with
  | none => (.ok none, s)
  | some q =>
    if q.absent.isSome then (.ok (some q), s)
    else match mapAcc (List.range p.per) (answerCont r p (fieldOf (some q) 0)) s with
      | (.error e, s1) => (.error (l, e), s1)
      | (.ok cs, s1) => (.ok (some { q with flds := (packConts (tidFmt p.tid) cs ++ q.flds.drop 1).take 8 }), s1)

/-- R301, R302: one message of the index stream. A stopped port discards it. -/
def State.indexStep (s : State) (h : W64) (k : Nat) (r : Run) (p : Port) (m : Msg) : State :=
  if p.stopped || p.dusked then s
  else match m with
    | .data b =>
      match mapAcc (List.range 16) (answerLane r p b) s with
      | (.error (lane, e), s1) => s1.regionAcc h (portInfo k lane) e
      | (.ok lanes, s1) => s1.toInput h (r.siteOfPort k) 3 (.data { b with lanes := lanes })
    | .dusk true => s.portDusk h k r p
    | m => s.toInput h (r.siteOfPort k) 3 m

/-- PORT_INDEX_RECORD (R301). -/
def execPortIndexRecord (p : PortRef) (s : State) : Result :=
  withPort p s fun r q s =>
    match q.ins with
    | [] => s
    | m :: ms =>
      if q.mode = 1 ∧ q.gen.isIndirect = true then
        let q1 := { q with ins := ms }
        let s1 := (s.putPort p.task p.port q1).indexStep p.task p.port r q1 m
        if ms.isEmpty then s1 else s1.pushNew (.portIndexRecord p)
      else s

/-- Bytes from an address in pieces that do not cross a multiple of 8. -/
def piecesOf : Nat → Nat → List Byte → List (Nat × List Byte)
  | 0, _, _ => []
  | n + 1, va, bs =>
    if bs.isEmpty then []
    else (va, bs.take (8 - va % 8)) :: piecesOf n (va + (8 - va % 8)) (bs.drop (8 - va % 8))

/-- R403: the buffered stores of one container. -/
def storesOf (r : Run) (k rnd va : Nat) (bs : List Byte) : Except AccErr (List RoundStore) :=
  match covered r.lease va bs.length .w with
  | .error x => .error (.lease va bs.length 2 x)
  | .ok e => .ok ((piecesOf bs.length va bs).map fun q =>
      match e.place q.1 with
      | .phys pa _ => ⟨rnd, k, q.1, pa, none, q.2⟩
      | .peer w off => ⟨rnd, k, q.1, off, some w, q.2⟩)

/-- R299, R301, R454: the stores of a record, and the next element afterwards. -/
def recordStores (r : Run) (k : Nat) (p : Port) (q : Rec) : Except AccErr (List RoundStore × Nat) :=
  let ty := tidFmt p.tid
  let ind := p.gen.isIndirect
  let n := if ind then p.per else min p.per (p.gen.total - p.next)
  if q.absent.isSome then .ok ([], p.next + n)
  else
    let cs := unpackConts ty p.per (if ind then q.flds.drop 1 else q.flds)
    let off (i : Nat) : Int := if ind then indirectOff p (fieldOf (some q) 0) i else r.affineOff p (p.next + i)
    match (List.range n).mapM fun i => do
        let va ← r.portVa p (off i) .w
        storesOf r k p.rnd va (leBytes (contBytes ty) (cs.getD i 0)) with
    | .error e => .error e
    | .ok l => .ok (l.flatten, if ind then p.next else p.next + n)

/-- The stores of the lanes of a bundle, in lane order; an error names its lane. -/
def bundleStores (r : Run) (k : Nat) : List (Nat × Rec) → Port → Except (Nat × AccErr) (List RoundStore × Port)
  | [], p => .ok ([], p)
  | (lane, q) :: qs, p =>
    match recordStores r k p q with
    | .error e => .error (lane, e)
    | .ok (l, next) =>
      match bundleStores r k qs { p with next := next } with
      | .error e => .error e
      | .ok (l', p') => .ok (l ++ l', p')

/-- R404: bytes that a port's round store buffer and its spill hold. -/
def Region.buffered (g : Region) (k : Nat) : Nat :=
  ((g.stores.filter fun x => decide (x.port = k)).map fun x => x.bytes.length).sum

/-- R299, R302, R404: one message at a writing port. -/
def State.writeStep (s : State) (h : W64) (k : Nat) (r : Run) (p : Port) (m : Msg) : State :=
  match m with
  | .data b =>
    if p.stopped then s
    else match bundleStores r k (b.lanes.zipIdx.filterMap fun x => x.1.map fun q => (x.2, q)) p with
      | .error (lane, e) => s.regionAcc h (portInfo k lane) e
      | .ok (l, p1) =>
        let s1 := (s.putPort h k p1).modRun h fun q => { q with region := { q.region with stores := q.region.stores ++ l } }
        if 24576 < { r.region with stores := r.region.stores ++ l }.buffered k then s1.wantEdge h else s1
  | .marker n =>
    let g := r.region.roundOf n
    (s.putPort h k { p with snaps := p.snaps ++ [(g, p.next)], rnd := g + 1 }).checkCommit h
  | .dusk true => (s.putPort h k { p with dusked := true }).checkCommit h
  | .dusk false => s

/-- PORT_RECORD_WRITE (R299, R404). -/
def execPortRecordWrite (p : PortRef) (s : State) : Result :=
  withPort p s fun r q s =>
    match q.ins with
    | [] => s
    | m :: ms =>
      if q.mode = 2 then
        let q1 := { q with ins := ms }
        let s1 := (s.putPort p.task p.port q1).writeStep p.task p.port r q1 m
        if ms.isEmpty then s1 else s1.pushNew (.portRecordWrite p)
      else s

/-! ## Port commands (R299 to R303) -/

/-- R213: the smallest page size among the runs of the bound extent. -/
def boundPage (r : Run) (t : Tid) : Nat :=
  match extentOf r.lease r.extn (tidExt t) with
  | some e => (e.runs.map (·.psz)).foldl min 3
  | none => 0

/-- A port command whose window goes on. -/
def withPortCmd (k : CmdRef) (x : CmdArgs) (s : State) (f : Run → Cmd → Port → State → State) : Result :=
  withCmd k s fun r c s => if r.ending.isSome then s else f r c (r.port x.tc.toNat) s

/-- R299: PBIND. A push-receive binding may be what an L2PUSH waits for. -/
def execPbind (k : CmdRef) (x : CmdArgs) (s : State) : Result :=
  withPortCmd k x s fun r c p s =>
    let t := c.tidA
    let q := { p with mode := x.fld 94 92, tid := t, e := x.fld 91 87 + 1, key := x.fld 86 71, bytes := x.p0.toNat,
                      scope := x.scope.toNat, psz := boundPage r t, pushed := [], kept := [] }
    ((s.putPort k.task x.tc.toNat q).cmdDone k 0#2).losePush k.task fun n => decide (n = x.tc.toNat)

/-- R300, R454: the generator a descriptor loads for a tensor entry. -/
def readGen (t : Tid) (ws : List W64) : Gen :=
  let w (i : Nat) : W64 := ws.getD i 0#64
  let s32 (i hi lo : Nat) : Int := signedOf 32 (bits (w i) hi lo)
  let base := signedOf 48 (bits (w 0) 47 0)
  let n := [bits (w 1) 31 0, bits (w 1) 63 32, bits (w 2) 31 0, bits (w 2) 63 32]
  let d := [s32 3 31 0, s32 3 63 32, s32 4 31 0, s32 4 63 32]
  let q := [s32 5 31 0, s32 5 63 32, s32 6 31 0]
  let g := Gen.affine base (n.getD 0 0) (n.getD 1 0) (n.getD 2 0) (n.getD 3 0) (d.getD 0 0) (d.getD 1 0) (d.getD 2 0)
    (d.getD 3 0) (q.getD 0 0) (q.getD 1 0) (q.getD 2 0)
  if bits (w 0) 63 48 ≠ 0 ∨ bits (w 6) 63 32 ≠ 0 ∨ w 7 ≠ 0#64 ∨ !g.fits t then .bad else g

/-- R300: AGAFF. -/
def execAgaff (k : CmdRef) (x : CmdArgs) (s : State) : Result :=
  withPortCmd k x s fun r c p s =>
    match readExt s r.lease r.extn (x.fld 94 91) x.off48 64 with
    | (.error e, s1) => s1.cmdFault k c e
    | (.ok bs, s1) =>
      let ws := (List.range 8).map fun i => BitVec.ofNat 64 (leNat ((bs.drop (8 * i)).take 8))
      (s1.putPort k.task x.tc.toNat { p with gen := readGen p.tid ws }).cmdDone k 0#2

/-- R301: AGIND. -/
def execAgind (k : CmdRef) (x : CmdArgs) (s : State) : Result :=
  withPortCmd k x s fun _ _ p s =>
    (s.putPort k.task x.tc.toNat { p with gen := .indirect (signedOf 48 x.off48) (x.fld 94 89) }).cmdDone k 0#2

/-- R302: PSTART. -/
def execPstart (k : CmdRef) (x : CmdArgs) (s : State) : Result :=
  withPortCmd k x s fun _ _ p s => (s.putPort k.task x.tc.toNat { p with started := true }).cmdDone k 0#2

/-- R302: PSTOP. -/
def execPstop (k : CmdRef) (x : CmdArgs) (s : State) : Result :=
  withPortCmd k x s fun r _ p s =>
    let n := x.tc.toNat
    if !(r.region.running && p.started) then (s.putPort k.task n { p with started := false, stopped := false }).cmdDone k 0#2
    else
      let q := { p with stopped := true, landed := [], ins := if p.mode = 2 then p.ins else [], pushed := [] }
      let s1 := if p.mode = 2 ∨ p.dusked then s.putPort k.task n q else (s.putPort k.task n q).portDusk k.task n r q
      (s1.cmdDone k 0#2).losePush k.task fun m => decide (m = n)

end Sys2Proof.Machine
end

