-- ==== Sys2Proof/Machine/SpSites.lean ====
section
/-! DEFINITION. The sparse sites (R123 to R129). -/

namespace Sys2Proof.Machine

/-- R123: the value of a source in a lane. -/
def linkVal (recs : List (Option Rec)) (sel : Sel) : W32 :=
  match sel with
  | .link i f => fieldOf ((recs[i]?).join) f
  | _ => 0#32

/-- R124: an output record: hidden tag 0. -/
def spRec (l : List W32) : Rec := ⟨l, 0#16, none⟩

/-- What an accepted bundle does to a sparse site: its new state, the records it emits packed, the records that leave
on o3 in their lanes, or the fault (cause, reason, lane, TVAL, EXTRA). -/
structure SpRes where
  core  : SpCore
  out   : List Rec
  late  : List (Nat × Rec)
  fault : Option (Nat × Nat × Nat × W64 × Nat)
deriving DecidableEq, Repr

/-- A lane of a joined bundle. -/
abbrev SpLane := Nat × List (Option Rec)

/-- R127: records served in lane order, at most 16 results in all. `take k` is the results of a lane from number 0 on,
`rest` the record that carries on after t of them. -/
def serveLanes (count : SpLane → Nat) (result : SpLane → Nat → Rec) (rest : SpLane → Nat → Option Rec) :
    List SpLane → List Rec → List Rec × List (Nat × Rec)
  | [], out => (out, [])
  | l :: ls, out =>
    let n := count l
    let t := min n (16 - out.length)
    let r := serveLanes count result rest ls (out ++ (List.range t).map (result l))
    if t < n then
      match rest l t with
      | some q => (r.1, (l.1, q) :: r.2)
      | none => r
    else r

/-- R127: the record of a lane with a source's field replaced. R127 does not say which record leaves late where the sources
of SCAN or REPEAT name different inputs: here it is the record of the lowest used input, with the field number of the source
replaced in it whichever input the source names (DESIGN CHOICE, log entry 106). -/
def withSource (recs : List (Option Rec)) (sel : Sel) (v : W32) : Option Rec :=
  match startRec recs, sel with
  | some q, .link _ f => some { q with flds := setField q.flds f v }
  | q, _ => q

/-- R126, R127: SCAN. -/
def spScan (x : SiteArgs) (c : SpCore) (ls : List SpLane) : SpRes :=
  let lo (l : SpLane) : Nat := (linkVal l.2 x.selA).toNat
  let hi (l : SpLane) : Nat := (linkVal l.2 x.selB).toNat
  let r := serveLanes (fun l => hi l - lo l)
    (fun l t => spRec [BitVec.ofNat 32 (lo l + t), linkVal l.2 x.selC, BitVec.ofNat 32 (hi l - (lo l + t))])
    (fun l t => withSource l.2 x.selA (BitVec.ofNat 32 (lo l + t))) ls []
  ⟨c, r.1, r.2, none⟩

/-- R126, R127: REPEAT. -/
def spRepeat (x : SiteArgs) (c : SpCore) (ls : List SpLane) : SpRes :=
  let n (l : SpLane) : Nat := (linkVal l.2 x.selB).toNat
  let r := serveLanes n (fun l t => spRec [linkVal l.2 x.selA, BitVec.ofNat 32 (n l - t), linkVal l.2 x.selC])
    (fun l t => withSource l.2 x.selB (BitVec.ofNat 32 (n l - t))) ls []
  ⟨c, r.1, r.2, none⟩

/-- R128: lexicographic order of coordinate pairs. -/
def pairLt (p q : W32 × W32) : Bool := decide (p.1.toNat < q.1.toNat ∨ (p.1 = q.1 ∧ p.2.toNat < q.2.toNat))

/-- R126, R128, R129: COORD. A record that fails both the order and the bound gets reason 1 (DESIGN CHOICE, log entry
56). -/
def spCoord (x : SiteArgs) (consts : List W32) (c : SpCore) : List SpLane → SpRes
  | [] => ⟨c, [], [], none⟩
  | l :: ls =>
    let a := linkVal l.2 x.selA
    let b := linkVal l.2 x.selB
    let k (i : Nat) : W32 := consts.getD i 0#32
    let tval : W64 := BitVec.ofNat 64 (a.toNat * 2 ^ 32 + b.toNat)
    if x.m 0 0 = 1 ∧ (c.prev.any fun p => !pairLt p (a, b)) = true then ⟨c, [], [], some (0x11, 1, l.1, tval, 0)⟩
    else if x.m 1 1 = 1 ∧ ((k (x.m 4 2)).toNat ≤ a.toNat ∨ (k (x.m 7 5)).toNat ≤ b.toNat) then
      ⟨c, [], [], some (0x11, 2, l.1, tval, 0)⟩
    else
      let third := if x.m 8 8 = 1 then a * k (x.m 7 5) + b else linkVal l.2 x.selC
      let r := spCoord x consts { c with prev := if x.m 0 0 = 1 then some (a, b) else c.prev } ls
      { r with out := spRec [a, b, third] :: r.out }

/-- R128: one side's key and payload, held in a window. -/
def spHeld (key payload : W32) : Rec := ⟨[key, payload], 0#16, none⟩
def heldKey (q : Rec) : W32 := q.flds.getD 0 0#32
def heldPay (q : Rec) : W32 := q.flds.getD 1 0#32

/-- R128, R129: keys that arrive at a window: each above the one before. -/
def spArrive : Option W32 → List (Nat × W32 × W32) → Except (Nat × W32) (List Rec × Option W32)
  | last, [] => .ok ([], last)
  | last, (lane, key, pay) :: ks =>
    if last.any fun p => decide (key.toNat ≤ p.toNat) then .error (lane, key)
    else match spArrive (some key) ks with
      | .ok (l, e) => .ok (spHeld key pay :: l, e)
      | .error e => .error e

/-- R126: the output of a decided key. -/
def pairRec (union : Bool) (a b : Option Rec) : Option Rec :=
  let key := match a, b with | some q, _ => heldKey q | none, some q => heldKey q | none, none => 0#32
  let pay (q : Option Rec) : W32 := match q with | some q => heldPay q | none => 0xFFFFFFFF#32
  if union then some (spRec [key, pay a, pay b, BitVec.ofNat 32 (boolNat a.isSome + 2 * boolNat b.isSome)])
  else if a.isSome && b.isSome then some (spRec [key, pay a, pay b])
  else none

/-- R128: the other input has shown a key at least as large, or dusk. -/
def keyDecided (q : Rec) (last : Option W32) (dusk : Bool) : Bool :=
  dusk || last.any fun p => decide ((heldKey q).toNat ≤ p.toNat)

/-- R128: the decided keys leave in ascending order. The answer is what is emitted and what both windows keep. -/
def decide2 (union : Bool) (lastA lastB : Option W32) (duskA duskB : Bool) :
    Nat → List Rec → List Rec → List Rec × List Rec × List Rec
  | 0, wa, wb => ([], wa, wb)
  | n + 1, wa, wb =>
    let go (a b : Option Rec) (wa wb : List Rec) : List Rec × List Rec × List Rec :=
      let r := decide2 union lastA lastB duskA duskB n wa wb
      ((pairRec union a b).toList ++ r.1, r.2)
    match wa, wb with
    | [], [] => ([], [], [])
    | a :: as, [] => if keyDecided a lastB duskB then go (some a) none as [] else ([], a :: as, [])
    | [], b :: bs => if keyDecided b lastA duskA then go none (some b) [] bs else ([], [], b :: bs)
    | a :: as, b :: bs =>
      if (heldKey a).toNat < (heldKey b).toNat then go (some a) none as (b :: bs)
      else if (heldKey b).toNat < (heldKey a).toNat then go none (some b) (a :: as) bs
      else go (some a) (some b) as bs

/-- R126, R128, R129: ISECT and UNION on what has arrived at each input (lane, key, payload). The windows are measured
once the whole accepted pair has been decided (DESIGN CHOICE, log entry 55); of several faults in one pair, input A's
comes first, and an order fault before a window's (DESIGN CHOICE, log entry 57). -/
def spPair (union : Bool) (duskA duskB : Bool) (c : SpCore) (as bs : List (Nat × W32 × W32)) : SpRes :=
  let bad (e : Nat × W32) (reason : Nat) : SpRes := ⟨c, [], [], some (0x11, reason, e.1, e.2.setWidth 64, 0)⟩
  match spArrive c.lastA as, spArrive c.lastB bs with
  | .error e, _ => bad e 1
  | _, .error e => bad e 1
  | .ok (na, la), .ok (nb, lb) =>
    let wa := c.winA ++ na
    let wb := c.winB ++ nb
    let r := decide2 union la lb duskA duskB (wa.length + wb.length) wa wb
    let extra (w : List Rec) (arr : List (Nat × W32 × W32)) : Option (Nat × W32) :=
      (w[64]?).map fun q => (((arr.find? fun e => e.2.1 == heldKey q).map (·.1)).getD 0, heldKey q)
    match extra r.2.1 as, extra r.2.2 bs with
    | some e, _ => bad e 3
    | none, some e => bad e 3
    | none, none => ⟨{ c with winA := r.2.1, winB := r.2.2, lastA := la, lastB := lb }, r.1, [], none⟩

/-- R128: the record of a finished run. -/
def runRec (q : Option (W32 × W32 × Nat)) : List Rec :=
  match q with
  | some (k, v, n) => [spRec [k, v, BitVec.ofNat 32 n]]
  | none => []

/-- R128: one more value of a run. -/
def runAdd (x : SiteArgs) (fz : Bool) (s v : W32) : W32 :=
  if x.tyN = 8 then BitVec.ofNat 32 (roundN 8 x.rndN false fz (addNum x.rndN (f32Of fz s) (f32Of fz v))) else s + v

/-- R126, R128, R129: REDUCE. The sum of a run starts at its first value, read under R62 and R70. -/
def spReduce (x : SiteArgs) (fz : Bool) (c : SpCore) : List SpLane → SpRes
  | [] => ⟨c, [], [], none⟩
  | l :: ls =>
    let k := linkVal l.2 x.selA
    let v := linkVal l.2 x.selB
    if c.lastK.any fun p => decide (k.toNat < p.toNat) then ⟨c, [], [], some (0x11, 1, l.1, k.setWidth 64, 0)⟩
    else match c.run with
      | some (k0, s0, n) =>
        if k0 = k then spReduce x fz { c with run := some (k, runAdd x fz s0 v, n + 1), lastK := some k } ls
        else
          let r := spReduce x fz { c with run := some (k, asRead x.tyN fz v, 1), lastK := some k } ls
          { r with out := runRec c.run ++ r.out }
      | none => spReduce x fz { c with run := some (k, asRead x.tyN fz v, 1), lastK := some k } ls

/-- R128: the order of scores: a number that rises with the score, and whether it is a NaN. -/
def scoreKey (ty : Nat) (v : W32) : Bool × Int :=
  if ty = 8 then
    (isNan (f32Of false v), if v.getLsbD 31 then -((v.toNat % 2 ^ 31 : Nat) : Int) - 1 else v.toNat)
  else (false, if ty = 2 then v.toInt else v.toNat)

/-- R128: x ranks strictly ahead of y. -/
def ahead (ty : Nat) (asc : Bool) (x y : W32) : Bool :=
  let p := scoreKey ty x
  let q := scoreKey ty y
  if p.1 || q.1 then !p.1 && q.1 else if asc then decide (p.2 < q.2) else decide (q.2 < p.2)

/-- R128: insert a score behind its equals. -/
def topInsert (ty : Nat) (asc : Bool) (e : W32 × W32) : List (W32 × W32) → List (W32 × W32)
  | [] => [e]
  | q :: qs => if ahead ty asc e.1 q.1 then e :: q :: qs else q :: topInsert ty asc e qs

/-- R126, R128: TOPK; scores are read under R62 and R70. -/
def spTopk (x : SiteArgs) (fz : Bool) (c : SpCore) (ls : List SpLane) : SpRes :=
  let top := ls.foldl (fun t l =>
    (topInsert x.tyN (x.m 6 6 == 1) (asRead x.tyN fz (linkVal l.2 x.selA), linkVal l.2 x.selB) t).take (x.m 5 0 + 1)) c.top
  ⟨{ c with top := top }, [], [], none⟩

/-- R128: what TOPK emits at dusk. -/
def topRecs (top : List (W32 × W32)) : List Rec :=
  (List.range top.length).filterMap fun i => (top[i]?).map fun e => spRec [e.1, e.2, BitVec.ofNat 32 i]

/-- R128: the set columns of a row mask. -/
def rowBits (v : W32) : List Nat := (List.range 16).filter v.getLsbD

/-- R126, R128, R129: SPVAL. R129 takes the length c of "the tile" and does not say whose where its lanes hold different ones,
nor which LANE the record of a mismatch names: here both are those of the lowest valid lane (DESIGN CHOICE, log entry 107). -/
def spSpval (x : SiteArgs) (c : SpCore) (ls : List SpLane) : SpRes :=
  match ls with
  | [] => ⟨c, [], [], none⟩
  | l0 :: _ =>
    let len := linkVal l0.2 x.selB
    let els := ls.flatMap fun l => (rowBits (linkVal l.2 x.selA)).map fun col => (16 * l.1 + col, linkVal l.2 x.selC)
    if (ls.all fun l => linkVal l.2 x.selB == len) && decide (els.length = len.toNat ∧ len.toNat ≤ 256) then
      ⟨c, (List.range els.length).filterMap fun j => (els[j]?).map fun e =>
        spRec [BitVec.ofNat 32 e.1, BitVec.ofNat 32 j, e.2], [], none⟩
    else ⟨c, [], [], some (0x10, 0, l0.1, len.setWidth 64, (linkVal l0.2 x.selC).toNat)⟩

/-! ## Acceptance of a bundle -/

/-- The lanes of a joined bundle. -/
def joinedLanes (st : Site) (got : List (Nat × Bundle)) : List SpLane :=
  (List.range 16).filterMap fun l => (joinLane st.used got l).map fun recs => (l, recs)

/-- A bundle of records placed in their lanes. -/
def placed (l : List (Nat × Rec)) : List (Option Rec) :=
  (List.range 16).map fun i => (l.find? fun e => decide (e.1 = i)).map (·.2)

/-- Send records in their lanes on an output, if there are any. -/
def State.emitPlaced (s : State) (h : W64) (st : Site) (out : Nat) (l : List (Nat × Rec)) : State :=
  if l.isEmpty then s else s.emit h st out (.data (st.bundle (placed l)))

/-- R125: exactly n bundles, packed from lane 0 up. -/
def State.emitExact (s : State) (h : W64) (st : Site) (out n : Nat) (recs : List Rec) : State :=
  (List.range n).foldl (fun t k => t.emit h st out
    (.data (st.bundle ((List.range 16).map fun l => recs[16 * k + l]?)))) s

/-- R124, R129, R297: what a sparse site does with a result. SPVAL sends exactly 16 bundles, the others what they have. -/
def State.spDone (s : State) (h : W64) (st : Site) (absent : List (List (Nat × Rec))) (whole : Bool)
    (r : SpRes) : State :=
  match r.fault with
  | some (code, reason, lane, tval, extra) => s.regionFault h code reason (siteInfo st lane tval extra)
  | none =>
    let st1 := { st with core := { st.core with sp := r.core } }
    let s1 := s.putSite h st1
    let s2 :=
      if whole then s1.emitExact h st1 st.args.dstN 16 r.out
      else s1.emitPacked h st1 st.args.dstN r.out
    ((absent ++ [r.late]).filter fun l => !l.isEmpty).foldl (fun t l => t.emitPlaced h st1 3 l) s2

/-- A bundle is accepted by a mode that reads joined lanes. -/
def spJoin (i : Instr) (a : SiteRef) (whole : Bool) (s : State)
    (f : Run → Site → SpCore → List SpLane → SpRes) : Result :=
  withEvent i a s fun r st s =>
    if !st.joined && !r.quietFor st.key then s
    else
      let t := st.takeHeads
      let ls := joinedLanes t.2 t.1
      let gone := (ls.filter fun l => (absentIn l.2).isSome).filterMap fun l => (startRec l.2).map fun q => (l.1, q)
      let live := ls.filter fun l => (absentIn l.2).isNone
      let res := f r t.2 t.2.core.sp live
      s.spDone a.task t.2 [gone] whole res

/-- The keys and payloads that have arrived at one input of ISECT or UNION. -/
def sideKeys (got : List (Nat × Bundle)) (i : Nat) (key : Sel) (pay : Rec → W32) : List (Nat × W32 × W32) :=
  match got.find? fun e => decide (e.1 = i) with
  | none => []
  | some (_, b) => (List.range 16).filterMap fun l =>
      match (b.lanes[l]?).join with
      | some q => if q.absent.isSome then none else some (l, fieldOf (some q) (selField key), pay q)
      | none => none

/-- R297: the absent records of each input. -/
def sideAbsent (got : List (Nat × Bundle)) : List (List (Nat × Rec)) :=
  got.map fun e => (List.range 16).filterMap fun l =>
    match (e.2.lanes[l]?).join with
    | some q => if q.absent.isSome then some (l, q) else none
    | none => none

/-- R128: ISECT and UNION on a site whose heads have been taken. -/
def pairStep (union : Bool) (x : SiteArgs) (st : Site) (got : List (Nat × Bundle)) : SpRes :=
  let payA (q : Rec) : W32 := match x.selC with | .link _ f => fieldOf (some q) f | _ => 0#32
  let payB (q : Rec) : W32 := if x.m 3 3 = 1 then fieldOf (some q) (x.m 2 0) else 0#32
  spPair union (hasDusk (st.q 0)) (hasDusk (st.q 1)) st.core.sp (sideKeys got 0 x.selA payA) (sideKeys got 1 x.selB payB)

/-- R125: of the decided records at most two bundles leave for an accepted pair; the others wait for the next, or for
a cycle without one. -/
def SpRes.twoBundles (todo : List Rec) (r : SpRes) : SpRes :=
  let all := todo ++ r.out
  { r with core := { r.core with todo := all.drop 32 }, out := all.take 32 }

/-- ISECT and UNION take what has come on either input. -/
def spBoth (i : Instr) (union : Bool) (a : SiteRef) (x : SiteArgs) (s : State) : Result :=
  withEvent i a s fun r st s =>
    if !st.joined && !st.pairWork && !r.quietFor st.key then s
    else
      let t := st.takeHeads
      s.spDone a.task t.2 (sideAbsent t.1) false ((pairStep union x t.2 t.1).twoBundles st.core.sp.todo)

/-- SCAN (R126, R127). -/
def execScan (at_ : SiteRef) (x : SiteArgs) (s : State) : Result :=
  spJoin (.scan at_ x) at_ false s fun _ _ c ls => spScan x c ls

/-- COORD (R126, R128). -/
def execCoord (at_ : SiteRef) (x : SiteArgs) (s : State) : Result :=
  spJoin (.coord at_ x) at_ false s fun _ st c ls => spCoord x st.consts c ls

/-- ISECT (R126, R128). -/
def execIsect (at_ : SiteRef) (x : SiteArgs) (s : State) : Result := spBoth (.isect at_ x) false at_ x s

/-- UNION (R126, R128). -/
def execUnion (at_ : SiteRef) (x : SiteArgs) (s : State) : Result := spBoth (.union at_ x) true at_ x s

/-- REPEAT (R126, R127). -/
def execRepeat (at_ : SiteRef) (x : SiteArgs) (s : State) : Result :=
  spJoin (.repeat at_ x) at_ false s fun _ _ c ls => spRepeat x c ls

/-- REDUCE (R126, R128). -/
def execReduce (at_ : SiteRef) (x : SiteArgs) (s : State) : Result :=
  spJoin (.reduce at_ x) at_ false s fun r _ c ls => spReduce x r.fz c ls

/-- TOPK (R126, R128). -/
def execTopk (at_ : SiteRef) (x : SiteArgs) (s : State) : Result :=
  spJoin (.topk at_ x) at_ false s fun r _ c ls => spTopk x r.fz c ls

/-- SPVAL (R126, R128, R129). -/
def execSpval (at_ : SiteRef) (x : SiteArgs) (s : State) : Result :=
  spJoin (.spval at_ x) at_ true s fun _ _ c ls => spSpval x c ls

end Sys2Proof.Machine
end

