-- ==== Sys2Proof/Machine/FlSites.lean ====
section
/-! DEFINITION. The flow sites (R305 to R310), and markers and dusk at every site (R18, R99, R124, R193, R308). -/

namespace Sys2Proof.Machine

/-! ## One bundle through a flow site -/

/-- What a flow site sends: output, lane, record. -/
abbrev Sent := Nat × Nat × Rec

/-- Send the records of one bundle, each on its output and in its lane. An output in `always` carries a bundle even when
no lane is left valid. -/
def State.emitSent (s : State) (h : W64) (st : Site) (always : List Nat) (l : List Sent) : State :=
  (List.range 4).foldl (fun t o =>
    let mine := (l.filter fun e => decide (e.1 = o)).map (·.2)
    if mine.isEmpty && !always.contains o then t else t.emit h st o (.data (st.bundle (placed mine)))) s

/-- The valid lanes of a bundle. -/
def lanesOf (b : Bundle) : List (Nat × Rec) :=
  (List.range 16).filterMap fun l => ((b.lanes[l]?).join).map fun q => (l, q)

/-- R306: the value of a flow site's source in a record. -/
def flVal (st : Site) (q : Rec) (sel : Sel) : W32 :=
  match sel with
  | .link _ f => fieldOf (some q) f
  | .const k => st.consts.getD k 0#32
  | _ => 0#32

/-- A flow site with one input takes its next bundle. -/
def flow (i : Instr) (a : SiteRef) (s : State) (f : Run → Site → List (Nat × Rec) → State → State) : Result :=
  withEvent i a s fun r st s =>
    let t := st.takeHeads
    f r t.2 ((t.1.map (·.2)).flatMap lanesOf) s

/-- R306: present records go by a rule; absent ones go to late when late is routed, and by the rule otherwise. -/
def withLate (late : Bool) (f : Nat × Rec → List Sent) (ls : List (Nat × Rec)) : List Sent :=
  ls.flatMap fun e => if late && e.2.absent.isSome then [(3, e.1, e.2)] else f e

/-- A flow site that sends each record by a rule of its own. -/
def flowBy (i : Instr) (a : SiteRef) (s : State) (f : Run → Site → Nat × Rec → List Sent) : Result :=
  flow i a s fun r st ls s =>
    (s.putSite a.task st).emitSent a.task st [st.args.dstN] (withLate ((r.outs st).contains 3) (f r st) ls)

/-- FORK (R306). -/
def execFork (at_ : SiteRef) (x : SiteArgs) (s : State) : Result :=
  flow (.fork at_ x) at_ s fun _ st ls s =>
    let outs := (List.range 4).filter fun o => (x.m 3 0).testBit o
    (s.putSite at_.task st).emitSent at_.task st outs (outs.flatMap fun o => ls.map fun e => (o, e.1, e.2))

/-- FILTER (R306). -/
def execFilter (at_ : SiteRef) (x : SiteArgs) (s : State) : Result :=
  flowBy (.filter at_ x) at_ s fun _ st e =>
    if (flVal st e.2 x.selA != 0#32) != (x.m 0 0 == 1) then [(x.dstN, e.1, e.2)]
    else if x.m 1 1 = 1 then [(x.m 3 2, e.1, e.2)] else []

/-- STEER (R306). -/
def execSteer (at_ : SiteRef) (x : SiteArgs) (s : State) : Result :=
  flowBy (.steer at_ x) at_ s fun _ st e =>
    let o := (flVal st e.2 x.selA).toNat % 4
    if (x.m 3 0).testBit o then [(o, e.1, e.2)] else []

/-- DUSK (R306): data passes; its treatment of dusk is below. -/
def execDusk (at_ : SiteRef) (x : SiteArgs) (s : State) : Result :=
  flowBy (.dusk at_ x) at_ s fun _ _ e => [(x.dstN, e.1, e.2)]

/-- R306: GATE's conditions on n32 values. -/
def gateCond (c : Nat) (j k : Nat) : Bool :=
  match c with
  | 0 => decide (j = k)
  | 1 => decide (j ≠ k)
  | 2 => decide (j < k)
  | 3 => decide (j ≤ k)
  | 4 => decide (k < j)
  | _ => decide (k ≤ j)

/-- GATE (R306). -/
def execGate (at_ : SiteRef) (x : SiteArgs) (s : State) : Result :=
  flowBy (.gate at_ x) at_ s fun r st e =>
    let g := r.region
    let j := match x.m 1 0 with | 0 => g.j0 | 1 => g.j1 | _ => g.j2
    if gateCond (x.m 4 2) j (st.consts.getD (x.m 7 5) 0#32).toNat then [(x.dstN, e.1, e.2)] else []

/-- RETIRE (R306): a sink. -/
def execRetire (at_ : SiteRef) (x : SiteArgs) (s : State) : Result :=
  flow (.retire at_ x) at_ s fun _ st _ s => s.putSite at_.task st

/-- MARK (R296, R306): passes data and counts the bundles that hold a valid lane. -/
def execMark (at_ : SiteRef) (x : SiteArgs) (s : State) : Result :=
  flow (.mark at_ x) at_ s fun r st ls s =>
    let n := st.core.fl.count + (if ls.isEmpty then 0 else 1)
    let st1 := { st with core := { st.core with fl := { st.core.fl with count := n } } }
    (s.putSite at_.task st1).emitSent at_.task st1 [x.dstN]
      (withLate ((r.outs st).contains 3) (fun e => [(x.dstN, e.1, e.2)]) ls)

/-- R306: TAGSET's tags for the records that stay, in lane order. -/
def retag (x : SiteArgs) (st : Site) (late : Bool) : BitVec 16 → List (Nat × Rec) → List Sent × BitVec 16
  | c, [] => ([], c)
  | c, e :: es =>
    if late && e.2.absent.isSome then
      let r := retag x st late c es
      ((3, e.1, e.2) :: r.1, r.2)
    else
      let tag := if x.m 0 0 = 1 then c else (flVal st e.2 x.selA).setWidth 16
      let r := retag x st late (if x.m 0 0 = 1 then c + 1#16 else c) es
      ((x.dstN, e.1, { e.2 with tag := tag }) :: r.1, r.2)

/-- TAGSET (R306). -/
def execTagset (at_ : SiteRef) (x : SiteArgs) (s : State) : Result :=
  flow (.tagset at_ x) at_ s fun r st ls s =>
    let q := retag x st ((r.outs st).contains 3) st.core.fl.ctr ls
    let st1 := { st with core := { st.core with fl := { st.core.fl with ctr := q.2 } } }
    (s.putSite at_.task st1).emitSent at_.task st1 [x.dstN] q.1

/-! ## COMPACT and ORDER (R310) -/

/-- R310: the full bundles that COMPACT can form, and what it keeps. -/
def fullBundles (recs : List Rec) : List Rec × List Rec :=
  let n := recs.length / 16 * 16
  (recs.take n, recs.drop n)

/-- COMPACT (R310). -/
def execCompact (at_ : SiteRef) (x : SiteArgs) (s : State) : Result :=
  flow (.compact at_ x) at_ s fun r st ls s =>
    let late := (r.outs st).contains 3
    let gone := ls.filter fun e => late && e.2.absent.isSome
    let stay := (ls.filter fun e => !(late && e.2.absent.isSome)).map (·.2)
    let q := fullBundles (st.core.fl.compact ++ stay)
    let st1 := { st with core := { st.core with fl := { st.core.fl with compact := q.2 } } }
    ((s.putSite at_.task st1).emitPacked at_.task st1 x.dstN q.1).emitPlaced at_.task st1 3 gone

/-- R310: held records whose tag comes next leave, each tag in turn. -/
def releaseTags : Nat → BitVec 16 → List Rec → List Rec × BitVec 16 × List Rec
  | 0, t, held => ([], t, held)
  | n + 1, t, held =>
    match held.find? fun q => q.tag == t with
    | none => ([], t, held)
    | some q =>
      let r := releaseTags n (t + 1#16) (held.erase q)
      (q :: r.1, r.2)

/-- R310: one record arrives at ORDER: what is late, what leaves in order, the next tag, what is held. -/
def orderOne (t : BitVec 16) (held : List Rec) (q : Rec) : Option Rec × List Rec × BitVec 16 × List Rec :=
  if 256 ≤ (q.tag - t).toNat ∨ 256 ≤ held.length then (some q, [], t, held)
  else
    let r := releaseTags (held.length + 1) t (held ++ [q])
    (none, r.1, r.2)

/-- R310: the records of a bundle in lane order. -/
def orderAll (absLate : Bool) : BitVec 16 → List Rec → List (Nat × Rec) → List (Nat × Rec) × List Rec × BitVec 16 × List Rec
  | t, held, [] => ([], [], t, held)
  | t, held, e :: es =>
    if absLate && e.2.absent.isSome then
      let r := orderAll absLate t held es
      (e :: r.1, r.2)
    else
      let q := orderOne t held e.2
      let r := orderAll absLate q.2.2.1 q.2.2.2 es
      ((match q.1 with | some x => [(e.1, x)] | none => []) ++ r.1, q.2.1 ++ r.2.1, r.2.2)

/-- ORDER (R310). -/
def execOrder (at_ : SiteRef) (x : SiteArgs) (s : State) : Result :=
  flow (.order at_ x) at_ s fun r st ls s =>
    let q := orderAll ((r.outs st).contains 3) st.core.fl.nextTag st.core.fl.order ls
    let st1 := { st with core := { st.core with fl := { st.core.fl with nextTag := q.2.2.1, order := q.2.2.2 } } }
    ((s.putSite at_.task st1).emitPlaced at_.task st1 (r.lateOut st x.dstN) q.1).emitPacked at_.task st1 x.dstN q.2.1

/-- R310: held records in ascending tag, counted from the tag expected next. -/
def byTag (t : BitVec 16) (held : List Rec) : List Rec :=
  held.mergeSort fun p q => decide ((p.tag - t).toNat ≤ (q.tag - t).toNat)

/-- R310: what ORDER emits at final dusk, and its next tag. -/
def drainOrder (fl : FlCore) : List Rec × FlCore :=
  let l := byTag fl.nextTag fl.order
  (l, { fl with order := [], nextTag := (l.getLast?.map fun q => q.tag + 1#16).getD fl.nextTag })

/-! ## MERGE and RECIRC (R307 to R309) -/

/-- R305: records of different field counts are extended with zero fields. -/
def evenFields (recs : List Rec) : List Rec :=
  let n := (recs.map fun q => q.flds.length).foldl max 0
  recs.map fun q => { q with flds := q.flds ++ List.replicate (n - q.flds.length) 0#32 }

/-- MERGE (R307). -/
def execMerge (at_ : SiteRef) (x : SiteArgs) (s : State) : Result :=
  withEvent (.merge at_ x) at_ s fun _ st s =>
    let t := st.takeHeads
    let recs := evenFields ((t.1.flatMap fun e => lanesOf e.2).map (·.2))
    ((s.putSite at_.task t.2).emit at_.task t.2 x.dstN (.data (t.2.bundle ((List.range 16).map fun l => recs[l]?)))).emitPacked
      at_.task t.2 (x.m 1 0) (recs.drop 16)

/-- R215, R307: fill a record whose elements have landed in the window of a port. The answer says which ordinal it
consumed. -/
def fillRec (p : Port) (k : Nat) (q : Rec) : Rec × Option Nat :=
  match q.absent with
  | some (k', j) =>
    if k' = k then
      match p.recordAt j with
      | some cs => ({ q with
          flds := packConts (tidFmt p.tid) cs ++ q.flds.drop (packConts (tidFmt p.tid) cs).length
          absent := none }, some j)
      | none => (q, none)
    else (q, none)
  | none => (q, none)

/-- R215: the window after records have been filled. -/
def Port.consumed (p : Port) (js : List Nat) : Port :=
  let owed := p.owed.filter fun o => !js.contains o
  { p with owed := owed, landed := p.landed.filter fun e =>
      decide (p.next * p.per ≤ e.1) || owed.any fun o => decide (o ≤ e.1 ∧ e.1 < o + p.per) }

/-- R307: held records take room from the run-ahead: elements requested beyond the window are given up. -/
def Run.trimWindow (r : Run) (k : Nat) : Run :=
  let p := r.port k
  let lim := max (p.next * p.per) (r.windowEnd k p)
  let kept (j : Nat) : Bool := decide (j < lim) || p.owed.any fun o => decide (o ≤ j ∧ j < o + p.per)
  r.putPort k { p with req := min p.req lim, landed := p.landed.filter fun e => kept e.1 }

/-- R309: an arriving bundle of i1 joins the loop sets of the rounds whose marker has not come back. -/
def captureLoop (rounds : List Nat) (b : Bundle) (snaps : List (Nat × SiteCore)) : List (Nat × SiteCore) :=
  snaps.map fun e => if rounds.contains e.1 then
    (e.1, { e.2 with fl := { e.2.fl with loopSet := e.2.fl.loopSet ++ [b] } }) else e

/-- R307: the records of i0 that find no lane, with the lane in which each arrived: which are held, which leave on the
overflow output, or the one that faults. `others` records of other RECIRCs stand in the same window. -/
def overflowTo (pv ovf : Bool) (others : Nat) : List Rec → List (Nat × Rec) → Except (Nat × Rec) (List Rec × List Rec)
  | hold, [] => .ok (hold, [])
  | hold, e :: es =>
    if pv && decide (hold.length + others < 256) then overflowTo pv ovf others (hold ++ [e.2]) es
    else if !pv || ovf then
      match overflowTo pv ovf others hold es with
      | .ok (h, o) => .ok (h, e.2 :: o)
      | .error x => .error x
    else .error e

/-- R307, R308, R309, R215: one bundle of a RECIRC: i1 first, then its holds, then i0. -/
def State.recircStep (s : State) (h : W64) (r : Run) (st : Site) (x : SiteArgs) : State :=
  let k := x.m 3 0
  let p := r.port k
  let b1 := headData (st.q 1)
  let b0 := headData (st.q 0)
  let t := st.takeHeads.2
  let fl := t.core.fl
  let rec1 := (b1.map lanesOf).getD []
  let rec0 := (b0.map lanesOf).getD []
  let fill (q : Rec) := fillRec p k q
  let used := (rec1.map (·.2) ++ fl.hold ++ rec0.map (·.2)).filterMap fun q => (fill q).2
  let in1 := rec1.map fun e => (fill e.2).1
  let held := fl.hold.map fun q => (fill q).1
  let in0 := rec0.map fun e => (e.1, (fill e.2).1)
  let lead := (in1 ++ held).take 16
  let keep := (in1 ++ held).drop 16
  let room := 16 - lead.length
  let out := evenFields (lead ++ (in0.take room).map (·.2))
  match overflowTo st.pv (x.m 7 7 == 1) (r.heldIn k - fl.hold.length) keep (in0.drop room) with
  | .error e => s.regionFault h 0x16 0 (siteInfo st e.1 (e.2.tag.setWidth 64) 0)
  | .ok (hold, extra) =>
    let snaps := match b1 with | some b => captureLoop fl.capture b t.snaps | none => t.snaps
    let st1 := { t with
      snaps := snaps
      core := { t.core with fl := { fl with hold := hold, clean := fl.clean && rec1.isEmpty } } }
    let s1 := s.modRun h fun q => ((q.putSite st1).putPort k (p.consumed used)).trimWindow k
    let s2 := s1.emit h st1 x.dstN (.data (st1.bundle ((List.range 16).map fun l => out[l]?)))
    let s3 := s2.emitPacked h st1 (x.m 6 5) extra
    if used.isEmpty && hold.length == fl.hold.length then s3 else s3.pushNew (.portRunAhead ⟨h, k⟩)

/-- RECIRC (R307 to R309). -/
def execRecirc (at_ : SiteRef) (x : SiteArgs) (s : State) : Result :=
  withEvent (.recirc at_ x) at_ s fun r st s => s.recircStep at_.task r st x

/-! ## Markers (R18, R99, R124, R193, R309) -/

/-- What a site emits before the marker of its round leaves: COMPACT's partial bundle, REDUCE's open run. -/
def flushAtMarker (st : Site) : List Rec × SiteCore :=
  if st.runs 3 6 then (st.core.fl.compact, { st.core with fl := { st.core.fl with compact := [] } })
  else if st.runs 2 6 then (runRec st.core.sp.run, { st.core with sp := { st.core.sp with run := none } })
  else ([], st.core)

/-- R309: a marker at a RECIRC: on i1 it closes its loop set and is absorbed; from i0 it leaves at once, and the loop
set of its round opens. -/
def State.recircMarker (s : State) (h : W64) (r : Run) (st : Site) : State :=
  match st.q 1, st.q 0 with
  | .marker n :: q, _ =>
    let fl := st.core.fl
    let g := r.region.roundOf n
    (s.putSite h { st.setQ 1 q with core := { st.core with fl := { fl with capture := fl.capture.filter (· != g) } } }).checkCommit h
  | _, .marker n :: q =>
    let g := r.region.roundOf n
    let fl := { st.core.fl with capture := st.core.fl.capture ++ [g] }
    let st1 := { st.setQ 0 q with
      snaps := st.snaps ++ [(g, { st.core with fl := { st.core.fl with capture := [], loopSet := [] } })]
      rnd := g + 1
      core := { st.core with fl := fl } }
    ((s.putSite h st1).forward h r st1 (.marker n)).checkCommit h
  | _, _ => s

/-- R18: a marker that has arrived on every used input leaves on every routed output; what the site flushes before it
is of the round that ends, and the site's state is noted. -/
def State.passMarker (s : State) (h : W64) (r : Run) (st : Site) (n : BitVec 8) : State :=
  let f := flushAtMarker st
  let g := r.region.roundOf n
  let st1 := { st with core := f.2, snaps := st.snaps ++ [(g, f.2)], rnd := g + 1 }
  let s1 := (s.putSite h st1).emitPacked h st st.args.dstN f.1
  (s1.forward h r st1 (.marker n)).checkCommit h

/-- R18, R296: the marker of a site. A MARK that another MARK's marker reaches passes it on as its own, and counts anew;
one that it has sent already ends no round again (DEDUCED, log entry 60). -/
def State.siteMarker (s : State) (h : W64) (r : Run) (st : Site) (n : BitVec 8) : State :=
  let st1 := st.mapQ fun q => if headMarker q = some n then popBody q else q
  let g := r.region.roundOf n
  if st.isMark then
    if g < st.core.fl.nextMark then s.putSite h st1 else s.markAt h r st1 g
  else s.passMarker h r st1 n

/-- ROUND_MARKER (R18, R309). -/
def execRoundMarker (at_ : SiteRef) (s : State) : Result :=
  withEvent (.roundMarker at_) at_ s fun r st s =>
    if st.isRecirc then s.recircMarker at_.task r st
    else match st.markable with
      | some n => s.siteMarker at_.task r st n
      | none => s

/-! ## Dusk (R308, R310, R128) -/

/-- What a site emits before dusk leaves. TOPK's list is empty after any dusk, a trial one too (DESIGN CHOICE, log
entry 54). -/
def flushAtDusk (st : Site) (final : Bool) : List Rec × SiteCore :=
  let c := st.core
  if st.runs 3 6 ∨ st.runs 2 6 then flushAtMarker st
  else if st.runs 3 7 ∧ final then ((drainOrder c.fl).1, { c with fl := (drainOrder c.fl).2 })
  else if st.runs 2 7 then (topRecs c.sp.top, { c with sp := { c.sp with top := [] } })
  else ([], c)

/-- R125: the bundles a site emits before dusk leaves: TOPK ceil(k / 16), another site as many as it fills. -/
def duskBundles (st : Site) (n : Nat) : Nat := if st.runs 2 7 then (st.args.m 5 0 + 1 + 15) / 16 else (n + 15) / 16

/-- R308: dusk has arrived on every used input: it leaves, final only if every input's was. A DUSK site keeps trial
dusk back. -/
def State.siteDusk (s : State) (h : W64) (r : Run) (st : Site) : State :=
  let final := st.used.all fun i => finalFirst (st.q i)
  let f := flushAtDusk st final
  let st1 := { st.mapQ popLead with core := f.2, fin := final }
  let s1 := (s.putSite h st1).emitExact h st1 st1.args.dstN (duskBundles st f.1.length) f.1
  let s2 := if st.runs 3 9 && !final then s1 else s1.forward h r st1 (.dusk final)
  if final then s2.checkCommit h else s2

/-- R308: dusk of a kind at i0 of a RECIRC. -/
def State.recircDusk0 (s : State) (h : W64) (st : Site) (final : Bool) (q : List Msg) : State :=
  let fl := st.core.fl
  match fl.pend with
  | none =>
    let st1 := { st.setQ 0 q with core := { st.core with fl := { fl with pend := some final, clean := true } } }
    (s.putSite h st1).emit h st1 st1.args.dstN (.dusk false)
  | some k => s.putSite h { st.setQ 0 q with core := { st.core with fl := { fl with pend := some (k || final) } } }

/-- R308: dusk at i1 of a RECIRC. Final dusk is absorbed, and closes what loop sets are open. -/
def State.recircDusk1 (s : State) (h : W64) (r : Run) (st : Site) (final : Bool) (q : List Msg) : State :=
  let fl := st.core.fl
  let put (f : FlCore) : Site := { st.setQ 1 q with core := { st.core with fl := f } }
  if final then (s.putSite h (put { fl with capture := [] })).checkCommit h
  else match fl.pend with
    | none => s.putSite h (put fl)
    | some k =>
      if !fl.clean then
        let st1 := put { fl with clean := true }
        (s.putSite h st1).emit h st1 st1.args.dstN (.dusk false)
      else if k then
        let st1 := { put { fl with done := true, pend := none, capture := [] } with fin := true }
        ((s.putSite h st1).forward h r st1 (.dusk true)).checkCommit h
      else
        let st1 := put { fl with pend := none }
        (s.putSite h st1).emit h st1 st1.args.dstN (.dusk false)

/-- DUSK_TOKEN (R308). -/
def execDuskToken (at_ : SiteRef) (s : State) : Result :=
  withEvent (.duskToken at_) at_ s fun r st s =>
    if st.isRecirc then
      match st.q 1, st.q 0 with
      | .dusk k :: q, _ => s.recircDusk1 at_.task r st k q
      | _, .dusk k :: q => s.recircDusk0 at_.task st k q
      | _, _ => s
    else s.siteDusk at_.task r st

end Sys2Proof.Machine
end

