-- ==== Sys2Proof/Machine/Crypto.lean ====
section
/-! DEFINITION. The two functions that R389, R450 and R451 name: SHA-512 (FIPS 180-4) and Ed25519 (RFC 8032), from
which they are taken (PRESUMED, log entry 115). A string of 32 or 64 bytes stands as one number, its first byte lowest. -/

namespace Sys2Proof.Machine

/-! ## SHA-512 -/

/-- The round constants: the first 64 bits of the fractions of the cube roots of the first 80 primes. -/
def shaK : List Nat :=
  [0x428A2F98D728AE22, 0x7137449123EF65CD, 0xB5C0FBCFEC4D3B2F, 0xE9B5DBA58189DBBC,
   0x3956C25BF348B538, 0x59F111F1B605D019, 0x923F82A4AF194F9B, 0xAB1C5ED5DA6D8118,
   0xD807AA98A3030242, 0x12835B0145706FBE, 0x243185BE4EE4B28C, 0x550C7DC3D5FFB4E2,
   0x72BE5D74F27B896F, 0x80DEB1FE3B1696B1, 0x9BDC06A725C71235, 0xC19BF174CF692694,
   0xE49B69C19EF14AD2, 0xEFBE4786384F25E3, 0x0FC19DC68B8CD5B5, 0x240CA1CC77AC9C65] ++
  [0x2DE92C6F592B0275, 0x4A7484AA6EA6E483, 0x5CB0A9DCBD41FBD4, 0x76F988DA831153B5,
   0x983E5152EE66DFAB, 0xA831C66D2DB43210, 0xB00327C898FB213F, 0xBF597FC7BEEF0EE4,
   0xC6E00BF33DA88FC2, 0xD5A79147930AA725, 0x06CA6351E003826F, 0x142929670A0E6E70,
   0x27B70A8546D22FFC, 0x2E1B21385C26C926, 0x4D2C6DFC5AC42AED, 0x53380D139D95B3DF,
   0x650A73548BAF63DE, 0x766A0ABB3C77B2A8, 0x81C2C92E47EDAEE6, 0x92722C851482353B] ++
  [0xA2BFE8A14CF10364, 0xA81A664BBC423001, 0xC24B8B70D0F89791, 0xC76C51A30654BE30,
   0xD192E819D6EF5218, 0xD69906245565A910, 0xF40E35855771202A, 0x106AA07032BBD1B8,
   0x19A4C116B8D2D0C8, 0x1E376C085141AB53, 0x2748774CDF8EEB99, 0x34B0BCB5E19B48A8,
   0x391C0CB3C5C95A63, 0x4ED8AA4AE3418ACB, 0x5B9CCA4F7763E373, 0x682E6FF3D6B2B8A3,
   0x748F82EE5DEFB2FC, 0x78A5636F43172F60, 0x84C87814A1F0AB72, 0x8CC702081A6439EC] ++
  [0x90BEFFFA23631E28, 0xA4506CEBDE82BDE9, 0xBEF9A3F7B2C67915, 0xC67178F2E372532B,
   0xCA273ECEEA26619C, 0xD186B8C721C0C207, 0xEADA7DD6CDE0EB1E, 0xF57D4F7FEE6ED178,
   0x06F067AA72176FBA, 0x0A637DC5A2C898A6, 0x113F9804BEF90DAE, 0x1B710B35131C471B,
   0x28DB77F523047D84, 0x32CAAB7B40C72493, 0x3C9EBE0A15C9BEBC, 0x431D67C49C100D4C,
   0x4CC5D4BECB3E42B6, 0x597F299CFC657E2A, 0x5FCB6FAB3AD6FAEC, 0x6C44198C4A475817]

/-- The first chaining value: the same of the square roots of the first eight primes. -/
def shaInit : List W64 :=
  [0x6A09E667F3BCC908#64, 0xBB67AE8584CAA73B#64, 0x3C6EF372FE94F82B#64, 0xA54FF53A5F1D36F1#64,
   0x510E527FADE682D1#64, 0x9B05688C2B3E6C1F#64, 0x1F83D9ABFB41BD6B#64, 0x5BE0CD19137E2179#64]

/-- A number of n bytes as bytes, the first the highest. -/
def beBytes (n v : Nat) : List Byte := (leBytes n v).reverse

/-- Bytes as a number, the first the highest. -/
def beNat (bs : List Byte) : Nat := leNat bs.reverse

/-- The message with its padding: a byte 0x80, zero bytes up to 16 short of a block of 128, and its length in bits. -/
def shaPad (m : List Byte) : List Byte :=
  m ++ 0x80#8 :: List.replicate ((239 - m.length % 128) % 128) 0#8 ++ beBytes 16 (8 * m.length)

/-- The next word of a block's schedule, from the sixteen before it, the newest first. -/
def shaNext (w : List W64) : W64 :=
  let a := w.getD 1 0#64
  let b := w.getD 14 0#64
  (a.rotateRight 19 ^^^ a.rotateRight 61 ^^^ (a >>> 6)) + w.getD 6 0#64 +
    (b.rotateRight 1 ^^^ b.rotateRight 8 ^^^ (b >>> 7)) + w.getD 15 0#64

/-- n more words of a schedule held newest first. -/
def shaSchedule : Nat → List W64 → List W64
  | 0, w => w
  | n + 1, w => shaSchedule n (shaNext w :: w)

/-- One round on the eight working variables, with its constant and its word of the schedule. -/
def shaRound (v : List W64) (k : Nat) (w : W64) : List W64 :=
  match v with
  | [a, b, c, d, e, f, g, h] =>
    let t1 := h + (e.rotateRight 14 ^^^ e.rotateRight 18 ^^^ e.rotateRight 41) + ((e &&& f) ^^^ (~~~e &&& g)) +
      BitVec.ofNat 64 k + w
    let t2 := (a.rotateRight 28 ^^^ a.rotateRight 34 ^^^ a.rotateRight 39) + ((a &&& b) ^^^ (a &&& c) ^^^ (b &&& c))
    [t1 + t2, a, b, c, d + t1, e, f, g]
  | _ => v

/-- The rounds of one block. -/
def shaBlock (v : List W64) (block : List Byte) : List W64 :=
  let w := (List.range 16).map fun i => BitVec.ofNat 64 (beNat ((block.drop (8 * i)).take 8))
  let rounds := List.zip shaK (shaSchedule 64 w.reverse).reverse
  List.zipWith (· + ·) v (rounds.foldl (fun x p => shaRound x p.1 p.2) v)

/-- SHA-512 of a string of bytes, as it is computed. -/
def shaDigest (m : List Byte) : BitVec 512 :=
  let p := shaPad m
  let v := (List.range (p.length / 128)).foldl (fun x i => shaBlock x ((p.drop (128 * i)).take 128)) shaInit
  BitVec.ofNat 512 (leNat (v.flatMap fun x => beBytes 8 x.toNat))

/-- SHA-512 sealed with its equation, so that no proof computes rounds on bytes it does not know; its values are those of
`shaDigest` and nothing of it is free. -/
opaque shaSealed : { f : List Byte → BitVec 512 // f = shaDigest } := ⟨shaDigest, rfl⟩

/-- R389, R450, R451: SHA-512. -/
def sha512 (m : List Byte) : BitVec 512 := shaSealed.1 m

theorem sha512_eq (m : List Byte) : sha512 m = shaDigest m := congrFun shaSealed.2 m

/-- A digest as 64 bytes. -/
def digestBytes (d : BitVec 512) : List Byte := leBytes 64 d.toNat

/-! ## Ed25519 -/

/-- The field's prime 2^255 − 19. -/
def edP : Nat := 2 ^ 255 - 19

/-- The order of the base point. -/
def edL : Nat := 2 ^ 252 + 27742317777372353535851937790883648493

/-- The curve's constant d = −121665 / 121666. -/
def edD : Nat := 37095705934669439343138083508754565189542113879843219016388785533085940283555

/-- A square root of −1. -/
def edI : Nat := 19681161376707505956807079304988542015446066515923890162744021073123829784752

/-- x to the power e modulo the prime; e has at most n bits. -/
def edPow : Nat → Nat → Nat → Nat
  | 0, _, _ => 1
  | n + 1, x, e =>
    let r := edPow n (x * x % edP) (e / 2)
    if e % 2 = 1 then r * x % edP else r

/-- A point in extended coordinates: x = X/Z, y = Y/Z, xy = T/Z. -/
structure EdPoint where
  x : Nat
  y : Nat
  z : Nat
  t : Nat
deriving DecidableEq, Repr

/-- A point given by its plain coordinates. -/
def edAffine (x y : Nat) : EdPoint := ⟨x, y, 1, x * y % edP⟩

/-- The neutral point. -/
def edZero : EdPoint := ⟨0, 1, 1, 0⟩

/-- The base point B. -/
def edBase : EdPoint :=
  edAffine 15112221349535400772501151409588531511454012693041857206046113283949847762202
    46316835694926478169428394003475163141307993866256225615783033603165251855960

/-- The difference of two residues. -/
def edSub (a b : Nat) : Nat := (a + edP - b % edP) % edP

/-- The sum of two points. -/
def edAdd (p q : EdPoint) : EdPoint :=
  let a := edSub p.y p.x * edSub q.y q.x % edP
  let b := (p.y + p.x) * (q.y + q.x) % edP
  let c := p.t * 2 * edD * q.t % edP
  let d := p.z * 2 * q.z % edP
  let e := edSub b a
  let f := edSub d c
  let g := (d + c) % edP
  let h := (b + a) % edP
  ⟨e * f % edP, g * h % edP, f * g % edP, e * h % edP⟩

/-- A point k times; k has at most n bits. -/
def edMul : Nat → Nat → EdPoint → EdPoint
  | 0, _, _ => edZero
  | n + 1, k, p =>
    let r := edMul n (k / 2) (edAdd p p)
    if k % 2 = 1 then edAdd r p else r

/-- Two points are the same. -/
def edEq (p q : EdPoint) : Bool := edSub (p.x * q.z) (q.x * p.z) == 0 && edSub (p.y * q.z) (q.y * p.z) == 0

/-- The 32 bytes of a point: y, and the low bit of x above it. -/
def edEncode (p : EdPoint) : Nat :=
  let i := edPow 255 p.z (edP - 2)
  p.y * i % edP + 2 ^ 255 * (p.x * i % edP % 2)

/-- The point of 32 bytes, where they hold one. -/
def edDecode (v : Nat) : Option EdPoint :=
  let y := v % 2 ^ 255
  let sign := v / 2 ^ 255 % 2
  let u := edSub (y * y) 1
  let w := (edD * (y * y) + 1) % edP
  let r := u * edPow 255 w 3 % edP * edPow 255 (u * edPow 255 w 7 % edP) ((edP - 5) / 8) % edP
  let x := if w * (r * r) % edP = u then some r else if w * (r * r) % edP = edSub 0 u then some (r * edI % edP) else none
  match x with
  | none => none
  | some x =>
    if edP ≤ y ∨ (x = 0 ∧ sign = 1) then none
    else some (edAffine (if x % 2 = sign then x else edP - x) y)

/-- The challenge of a signature: SHA-512 of R, of the key and of the message. -/
def edChallenge (r key : Nat) (m : List Byte) : Nat := (sha512 (leBytes 32 r ++ leBytes 32 key ++ m)).toNat % edL

/-- A signature (R below, S above) verifies under a public key over a message, as it is computed. -/
def edCheck (key : BitVec 256) (sig : BitVec 512) (m : List Byte) : Bool :=
  let r := sig.toNat % 2 ^ 256
  let n := sig.toNat / 2 ^ 256
  match edDecode r, edDecode key.toNat with
  | some pr, some pk =>
    decide (n < edL) &&
      edEq (edMul 4 8 (edMul 253 n edBase)) (edMul 4 8 (edAdd pr (edMul 253 (edChallenge r key.toNat m) pk)))
  | _, _ => false

/-- The check sealed with its equation. -/
opaque edSealed : { f : BitVec 256 → BitVec 512 → List Byte → Bool // f = edCheck } := ⟨edCheck, rfl⟩

/-- R389, R450: a signature verifies under a public key over a message. -/
def edVerifies (key : BitVec 256) (sig : BitVec 512) (m : List Byte) : Bool := edSealed.1 key sig m

theorem edVerifies_eq (key : BitVec 256) (sig : BitVec 512) (m : List Byte) : edVerifies key sig m = edCheck key sig m :=
  congrFun (congrFun (congrFun edSealed.2 key) sig) m

/-- The number that multiplies the base point, from the low half of the digest of a private key. -/
def edClamp (h : Nat) : Nat := h % 2 ^ 254 / 8 * 8 + 2 ^ 254

/-- The public key of a private key. -/
def edPublic (seed : BitVec 256) : BitVec 256 :=
  BitVec.ofNat 256 (edEncode (edMul 255 (edClamp (sha512 (leBytes 32 seed.toNat)).toNat) edBase))

/-- The signature of a message under a private key, as it is computed. -/
def edMake (seed : BitVec 256) (m : List Byte) : BitVec 512 :=
  let h := (sha512 (leBytes 32 seed.toNat)).toNat
  let n := (sha512 (leBytes 32 (h / 2 ^ 256) ++ m)).toNat % edL
  let r := edEncode (edMul 253 n edBase)
  let k := edChallenge r (edPublic seed).toNat m
  BitVec.ofNat 512 (r + 2 ^ 256 * ((n + k * edClamp h) % edL))

/-- The signing sealed with its equation. -/
opaque signSealed : { f : BitVec 256 → List Byte → BitVec 512 // f = edMake } := ⟨edMake, rfl⟩

/-- R451: the signature of a message under a private key. -/
def edSign (seed : BitVec 256) (m : List Byte) : BitVec 512 := signSealed.1 seed m

theorem edSign_eq (seed : BitVec 256) (m : List Byte) : edSign seed m = edMake seed m := congrFun (congrFun signSealed.2 seed) m

end Sys2Proof.Machine
end

