-- ==== Sys2Proof/Machine/Matrix.lean ====
section
/-! DEFINITION. Matrix tiles (R130 to R144) and the tile fetch unit (R224 to R226). -/

namespace Sys2Proof.Machine

/-! ## Panels (R132) -/

/-- The side of an operand store. -/
def Tile.side (t : Tile) (side : Nat) : SMap Byte := if side = 0 then t.a else t.b

/-- n bytes of a side. -/
def sideAt (m : SMap Byte) (off n : Nat) : List Byte := (List.range n).map fun i => SMap.get 0#8 m (off + i)

/-- R132: the code of element i of column k of a panel at a byte offset. -/
def panelCode (m : SMap Byte) (ty off k i : Nat) : Nat :=
  let p := elemPos ty i
  leNat (sideAt m (off + colBytes ty * k + p.1) (contBytes ty)) / 2 ^ p.2 % 2 ^ fmtBits ty

/-- R132: the scale byte of group g and row or column i; 127 stands for no scale. -/
def panelScale (m : SMap Byte) (t : Tid) (off kk g i : Nat) : Nat :=
  if tidSfmt t = 1 then (SMap.get 0#8 m (off + colBytes (tidFmt t) * kk + 128 * g + i)).toNat else 127

/-! ## MMA and MMAZ (R134, R135) -/

/-- R134: Prod: the exact product of two elements; for l6 the log product. -/
def prodNum (fa fb : Nat) (fz : Bool) (x y : Nat) : Num :=
  if fa = 14 then l6Prod x y else mulNum (decodeNum fa fz x) (decodeNum fb fz y)

/-- R135: under FZ a binary32 result that is subnormal becomes zero of its sign. -/
def flushF32 (fz : Bool) (x : Nat) : W32 :=
  let w := BitVec.ofNat 32 x
  if fz ∧ (w.extractLsb' 23 8) = 0#8 then w &&& 0x80000000#32 else w

/-- R134: the exact sum of a list of terms, in order; the sign of a zero sum follows R135. -/
def sumNum : List Num → Num
  | [] => zeroNum false
  | v :: vs => vs.foldl (addNum 0) v

/-- R134: what an MMA reads of its two panels. -/
structure MmaIn where
  ma  : SMap Byte
  mb  : SMap Byte
  ta  : Tid
  tb  : Tid
  oa  : Nat
  ob  : Nat
  k   : Nat
  fz  : Bool

/-- R134: the rounded sum of group g at (i, j). -/
def groupSum (p : MmaIn) (i j g : Nat) : W32 :=
  let fa := tidFmt p.ta
  let fb := tidFmt p.tb
  let xa := panelScale p.ma p.ta p.oa p.k g i
  let xb := panelScale p.mb p.tb p.ob p.k g j
  let terms := (List.range 32).map fun d =>
    let k := 32 * g + d
    scaleNum xb (scaleNum xa (prodNum fa fb p.fz (panelCode p.ma fa p.oa k i) (panelCode p.mb fb p.ob k j)))
  flushF32 p.fz (roundN 8 0 false false (sumNum terms))

/-- R134: element (i, j) of the bank after the groups in ascending order. -/
def mmaElem (p : MmaIn) (i j : Nat) (acc : W32) : W32 :=
  (List.range (p.k / 32)).foldl (fun a g =>
    flushF32 p.fz (roundN 8 0 false false (addNum 0 (f32Of false a) (f32Of false (groupSum p i j g))))) acc

/-- The bank of a tile, and the tile with a bank replaced. -/
def Tile.bank (t : Tile) (b : Nat) : SMap W32 := if b = 0 then t.acc0 else t.acc1
def Tile.setBank (t : Tile) (b : Nat) (m : SMap W32) : Tile := if b = 0 then { t with acc0 := m } else { t with acc1 := m }

/-- A bank given element by element, with zeros left out. -/
def bankOf (f : Nat → W32) : SMap W32 := (List.range 16384).filterMap fun e => if f e = 0#32 then none else some (e, f e)

/-- R134, R140: MMA, or MMAZ, which first clears the bank. -/
def Tile.mma (t : Tile) (c : Cmd) (fz zero : Bool) : Tile :=
  let x := c.args
  let p : MmaIn := ⟨t.a, t.b, c.tidA, c.tidB, x.p0.toNat, x.p1.toNat, mmaK x, fz⟩
  let b := x.fld 88 88
  t.setBank b (bankOf fun e => mmaElem p (e / 128) (e % 128) (if zero then 0#32 else SMap.get 0#32 (t.bank b) e))

/-- R134: a matrix multiplication of a command. -/
def runMma (zero : Bool) (k : CmdRef) (x : CmdArgs) (s : State) : Result :=
  withCmd k s fun _ c s =>
    (s.modRun k.task fun q => q.setTile x.tc.toNat ((q.tile x.tc.toNat).mma c q.fz zero)).cmdDone k 0#2

def execMmaE4m3 (k : CmdRef) (x : CmdArgs) (s : State) : Result := runMma false k x s
def execMmaE5m2 (k : CmdRef) (x : CmdArgs) (s : State) : Result := runMma false k x s
def execMmaBf16 (k : CmdRef) (x : CmdArgs) (s : State) : Result := runMma false k x s
def execMmaF16 (k : CmdRef) (x : CmdArgs) (s : State) : Result := runMma false k x s
def execMmaE2m1 (k : CmdRef) (x : CmdArgs) (s : State) : Result := runMma false k x s
def execMmaL6 (k : CmdRef) (x : CmdArgs) (s : State) : Result := runMma false k x s
def execMmazE4m3 (k : CmdRef) (x : CmdArgs) (s : State) : Result := runMma true k x s
def execMmazE5m2 (k : CmdRef) (x : CmdArgs) (s : State) : Result := runMma true k x s
def execMmazBf16 (k : CmdRef) (x : CmdArgs) (s : State) : Result := runMma true k x s
def execMmazF16 (k : CmdRef) (x : CmdArgs) (s : State) : Result := runMma true k x s
def execMmazE2m1 (k : CmdRef) (x : CmdArgs) (s : State) : Result := runMma true k x s
def execMmazL6 (k : CmdRef) (x : CmdArgs) (s : State) : Result := runMma true k x s

/-! ## MLOAD, MSTORE, MSCALE (R141 to R144) -/

/-- R141: element e of the bank after an MLOAD. -/
def loadElem (r : Run) (c : Cmd) (e : Nat) (s : State) : Except AccErr W32 × State :=
  let i0 := c.args.p1.toNat + e % 128
  let i1 := c.args.p0.toNat + e / 128
  if i0 < tidDim c.tidA 0 ∧ i1 < tidDim c.tidA 1 then
    match readValue s r.lease r.extn c.tidA r.fz i0 i1 with
    | (.error x, s1) => (.error x, s1)
    | (.ok v, s1) => (.ok (BitVec.ofNat 32 (roundN 8 0 false r.fz v)), s1)
  else (.ok 0#32, s)

/-- MLOAD (R141). -/
def execMload (k : CmdRef) (x : CmdArgs) (s : State) : Result :=
  withCmd k s fun r c s =>
    match mapAcc (List.range 16384) (loadElem r c) s with
    | (.error e, s1) => s1.cmdFault k c e
    | (.ok l, s1) =>
      (s1.modRun k.task fun q => q.setTile x.tc.toNat ((q.tile x.tc.toNat).setBank (x.fld 88 88)
        ((l.zipIdx.filter fun p => p.1 != 0#32).map fun p => (p.2, p.1)))).cmdDone k 0#2

/-- R142, R143: one conversion out of a bank: the code and the generator of its column afterwards. -/
structure StoreIn where
  r    : Run
  c    : Cmd
  bank : SMap W32
  mode : Nat
  sat  : Bool

/-- R142: the value of element (i, j) as it is converted. -/
def StoreIn.val (p : StoreIn) (i j : Nat) : Num := f32Of p.r.fz (SMap.get 0#32 p.bank (128 * i + j))

/-- R142: write element j of row i unscaled; the generators are threaded through. -/
def storeElem (p : StoreIn) (i j : Nat) (gs : List W32) (s : State) : Except AccErr (List W32) × State :=
  let q := roundG (tidFmt p.c.tidA) p.mode p.sat p.r.fz (gs.getD j 0#32) (p.val i j)
  match writeElem s p.r.lease p.r.extn p.c.tidA (p.c.args.p1.toNat + j) (p.c.args.p0.toNat + i) q.1 with
  | (.error e, s1) => (.error e, s1)
  | (.ok _, s1) => (.ok (gs.set j q.2), s1)

/-- R142: write the codes of a block from column j0 on. -/
def storeCodes (p : StoreIn) (i : Nat) : Nat → List (Nat × W32) → List W32 → State → Except AccErr (List W32) × State
  | _, [], gs, s => (.ok gs, s)
  | j, q :: qs, gs, s =>
    match writeElem s p.r.lease p.r.extn p.c.tidA (p.c.args.p1.toNat + j) (p.c.args.p0.toNat + i) q.1 with
    | (.error e, s1) => (.error e, s1)
    | (.ok _, s1) => storeCodes p i (j + 1) qs (gs.set j q.2) s1

/-- R142, R69: block b of row i, with its scale byte. -/
def storeBlock (p : StoreIn) (i b : Nat) (gs : List W32) (s : State) : Except AccErr (List W32) × State :=
  let n := min 32 (tidDim p.c.tidA 0 - p.c.args.p1.toNat - 32 * b)
  let q := quantBlock (tidFmt p.c.tidA) p.mode p.sat
    ((List.range n).map fun d => (p.val i (32 * b + d), gs.getD (32 * b + d) 0#32))
  match storeCodes p i (32 * b) q.2 gs s with
  | (.error e, s1) => (.error e, s1)
  | (.ok gs', s1) =>
    match writeExt s1 p.r.lease p.r.extn (tidSloc p.c.tidA)
        (scaleOff p.c.tidA (p.c.args.p1.toNat + 32 * b) (p.c.args.p0.toNat + i)) [BitVec.ofNat 8 q.1] with
    | (.error e, s2) => (.error e, s2)
    | (.ok _, s2) => (.ok gs', s2)

/-- Run steps that thread generators, stopping at the first failure. -/
def chainAcc {α : Type} (f : Nat → α → State → Except AccErr α × State) : List Nat → α → State → Except AccErr α × State
  | [], a, s => (.ok a, s)
  | i :: is, a, s =>
    match f i a s with
    | (.error e, s1) => (.error e, s1)
    | (.ok b, s1) => chainAcc f is b s1

/-- R142: row i of the window. -/
def storeRow (p : StoreIn) (i : Nat) (gs : List W32) (s : State) : Except AccErr (List W32) × State :=
  let col0 := p.c.args.p1.toNat
  let dim0 := tidDim p.c.tidA 0
  if tidDim p.c.tidA 1 ≤ p.c.args.p0.toNat + i then (.ok gs, s)
  else if tidSfmt p.c.tidA = 1 then
    chainAcc (storeBlock p i) ((List.range 4).filter fun b => decide (col0 + 32 * b < dim0)) gs s
  else chainAcc (storeElem p i) ((List.range 128).filter fun j => decide (col0 + j < dim0)) gs s

/-- MSTORE (R142, R143). -/
def execMstore (k : CmdRef) (x : CmdArgs) (s : State) : Result :=
  withCmd k s fun r c s =>
    let t := r.tile x.tc.toNat
    let b := x.fld 88 88
    match chainAcc (storeRow ⟨r, c, t.bank b, x.fld 91 89, x.bit 87⟩) (List.range 128) t.gens s with
    | (.error e, s1) => s1.cmdFault k c e
    | (.ok gs, s1) =>
      (s1.modRun k.task fun q =>
        let t1 := { q.tile x.tc.toNat with gens := gs }
        q.setTile x.tc.toNat (if x.bit 86 then t1.setBank b [] else t1)).cmdDone k 0#2

/-- R144: 128 factors from an index on, or 1.0 each when they are not selected. -/
def readFactors (r : Run) (used : Bool) (t : Tid) (i0 : Nat) (s : State) : Except AccErr (List Num) × State :=
  if used then
    mapAcc (List.range 128) (fun i s =>
      match readElem s r.lease r.extn t (i0 + i) 0 with
      | (.error e, s1) => (.error e, s1)
      | (.ok c, s1) => (.ok (decodeNum 8 r.fz c), s1)) s
  else (.ok (List.replicate 128 (intNum 1)), s)

/-- R144: scale element e of a bank; the generators are threaded through. -/
def scaleElem (mode : Nat) (fz : Bool) (bank : SMap W32) (rs cs : List Num) (e : Nat) (gs : List W32) : W32 × List W32 :=
  let j := e % 128
  let v := mulNum (mulNum (f32Of fz (SMap.get 0#32 bank e)) (rs.getD (e / 128) .nan)) (cs.getD j .nan)
  let q := roundG 8 mode false fz (gs.getD j 0#32) v
  (BitVec.ofNat 32 q.1, gs.set j q.2)

/-- R144: all elements of a bank in ascending order. -/
def scaleBank (mode : Nat) (fz : Bool) (bank : SMap W32) (rs cs : List Num) (gs : List W32) : SMap W32 × List W32 :=
  (List.range 16384).foldl (fun a e =>
    let q := scaleElem mode fz bank rs cs e a.2
    (if q.1 = 0#32 then a.1 else a.1 ++ [(e, q.1)], q.2)) ([], gs)

/-- MSCALE (R144). -/
def execMscale (k : CmdRef) (x : CmdArgs) (s : State) : Result :=
  withCmd k s fun r c s =>
    match readFactors r (x.bit 87) c.tidA x.p0.toNat s with
    | (.error e, s1) => s1.cmdFault k c e
    | (.ok rs, s1) =>
      match readFactors r (x.bit 86) c.tidB x.p1.toNat s1 with
      | (.error e, s2) => s2.cmdFault k c e
      | (.ok cs, s2) =>
        (s2.modRun k.task fun q =>
          let t := q.tile x.tc.toNat
          let b := x.fld 88 88
          let m := scaleBank (x.fld 91 89) q.fz (t.bank b) rs cs t.gens
          q.setTile x.tc.toNat ({ t with gens := m.2 }.setBank b m.1)).cmdDone k 0#2

/-! ## TFETCH and UNPIN (R224 to R226) -/

/-- R224: the codes of row m of a panel: the zero code out of bounds. -/
def panelRow (r : Run) (c : Cmd) (m : Nat) (s : State) : Except AccErr (List Nat) × State :=
  let t := c.tidA
  let i1 := c.args.p0.toNat + m
  mapAcc (List.range (fetchK c.args)) (fun k s =>
    let i0 := c.args.p1.toNat + k
    if i0 < tidDim t 0 ∧ i1 < tidDim t 1 then readElem s r.lease r.extn t i0 i1
    else (.ok (zeroCode (tidFmt t) false), s)) s

/-- R224: the scale bytes of row m of a panel, one for each group: 0x7F, without a read, out of bounds. -/
def panelScales (r : Run) (c : Cmd) (m : Nat) (s : State) : Except AccErr (List Nat) × State :=
  let t := c.tidA
  let i1 := c.args.p0.toNat + m
  if tidSfmt t = 1 then
    mapAcc (List.range (fetchK c.args / 32)) (fun g s =>
      let i0 := c.args.p1.toNat + 32 * g
      if i0 < tidDim t 0 ∧ i1 < tidDim t 1 then readScale s r.lease r.extn t i0 i1 else (.ok 0x7F, s)) s
  else (.ok [], s)

/-- R132: a panel as bytes: its columns, then its scales group by group. -/
def panelLayout (ty k : Nat) (scaled : Bool) (rows scales : List (List Nat)) : List Byte :=
  ((List.range k).flatMap fun j => leBytes (colBytes ty) (packCodes ty (rows.map fun r => r.getD j 0))) ++
  (if scaled then (List.range (k / 32)).flatMap fun g => scales.map fun r => BitVec.ofNat 8 (r.getD g 0) else [])

/-- R225: the lines of a range of virtual bytes, by physical address. -/
def rangeLines (e : Extent) (va n : Nat) : List Nat :=
  if e.peer.isSome then []
  else e.runs.flatMap fun q =>
    let lo := max va q.vstart
    let hi := min (va + n) (q.vstart + q.len)
    if lo < hi then
      let p := q.pstart + (lo - q.vstart)
      (List.range ((p + (hi - lo) + 127) / 128 - p / 128)).map fun i => (p / 128 + i) * 128
    else []

/-- R225: the lines that a panel's elements and scales lie in. -/
def panelLines (r : Run) (c : Cmd) : List Nat :=
  let t := c.tidA
  let f := tidFmt t
  let k0 := c.args.p1.toNat
  let k1 := min (tidDim t 0) (k0 + fetchK c.args)
  let lines (ext off n : Nat) : List Nat :=
    match extentOf r.lease r.extn ext with | some e => rangeLines e (e.base + off) n | none => []
  ((List.range 128).flatMap fun m =>
    let i1 := c.args.p0.toNat + m
    if k0 < k1 ∧ i1 < tidDim t 1 then
      lines (tidExt t) (rowOff t i1 0 0 + (elemPos f k0).1) ((elemPos f (k1 - 1)).1 + contBytes f - (elemPos f k0).1) ++
      (if tidSfmt t = 1 then lines (tidSloc t) (scaleOff t k0 i1) ((k1 + 31) / 32 - k0 / 32) else [])
    else []).eraseDups

/-- R225: the lines of one slice that some tile has pinned, each once. -/
def pinnedIn (s : State) (slice : Nat) : List Nat :=
  (s.allRuns.flatMap fun r => r.tiles.flatMap fun t => (t.2.pins.filter fun p => p.slice == slice).map fun p =>
    p.pa / 128).eraseDups

/-- R225: pin one line of a panel, while its slice holds fewer than 8,192. -/
def State.pinLine (k : CmdRef) (c : Cmd) (s : State) (pa : Nat) : State :=
  match c.fillRange with
  | some (side, off, n) =>
    let l := pinnedIn s (homeSlice pa)
    if l.length < 8192 ∨ l.contains (pa / 128) then
      s.modRun k.task fun q =>
        let t := q.tile c.args.tc.toNat
        q.setTile c.args.tc.toNat { t with pins := t.pins ++ [⟨pa, homeSlice pa, side, off, n, k.id, c.args.ff⟩] }
    else s
  | none => s

/-- TFETCH (R224, R225): the panel is read whole, then lands. -/
def execTfetch (k : CmdRef) (x : CmdArgs) (s : State) : Result :=
  withCmd k s fun r c s =>
    if r.fillHeld c then s
    else
      match mapAcc (List.range 128) (panelRow r c) s with
      | (.error e, s1) => s1.cmdFault k c e
      | (.ok rows, s1) =>
        match mapAcc (List.range 128) (panelScales r c) s1 with
        | (.error e, s2) => s2.cmdFault k c e
        | (.ok scales, s2) =>
          let bs := panelLayout (tidFmt c.tidA) (fetchK x) (tidSfmt c.tidA == 1) rows scales
          let s3 := s2.modRun k.task fun q => q.setTile x.tc.toNat
            ((q.tile x.tc.toNat).fill (x.fld 94 94) (128 * x.fld 93 82) bs ⟨c.word, c.tidA⟩)
          ((panelLines r c).foldl (State.pinLine k c) s3).landed k c

/-- UNPIN (R226): release every pin of the named sides. -/
def execUnpin (k : CmdRef) (x : CmdArgs) (s : State) : Result :=
  withCmd k s fun _ _ s =>
    (s.modRun k.task fun q =>
      let t := q.tile x.tc.toNat
      q.setTile x.tc.toNat { t with pins := t.pins.filter fun p => !(if p.side = 0 then x.bit 93 else x.bit 94) }).cmdDone k 0#2

end Sys2Proof.Machine
end

