-- ==== Sys2Proof/Machine/Tasks.lean ====
section
/-! DEFINITION. Tasks: templates and records (R249, R250), SPAWN (R260, R261), DEPADD and DEPDEC (R263), ARM (R264),
DONE and SUSPEND (R265, R266), aging, lease walks and dispatch (R252 to R255, R356 to R362, R414), preemption (R409 to
R411). -/

namespace Sys2Proof.Machine

/-! ## Templates (R250) -/

/-- Word i of a template. -/
def tw (ws : List W64) (i : Nat) : W64 := ws.getD i 0#64

/-- R250, R254: the registers a live mask names, ascending; bit 0 is ignored. -/
def liveRegs (live : W32) : List Nat := (List.range 32).filter fun k => decide (k ≠ 0) && live.getLsbD k

/-- R260: the live mask of a template with s3 added. -/
def liveArg (ws : List W64) : W32 := (tw ws 5).extractLsb' 32 32 ||| 8#32

/-- R250, R260: the template keeps its layout: reserved and scheduler fields are zero, EXTN and NCMD are in range, and
the argument leaves at most 16 live registers. -/
def tmplOk (ws : List W64) : Bool :=
  let w := tw ws
  decide (bits (w 0) 63 61 = 0 ∧ bits (w 0) 57 55 = 0 ∧ bits (w 0) 52 49 = 0 ∧ bits (w 0) 48 44 ≤ 16 ∧ bits (w 0) 43 32 = 0) &&
  decide (bits (w 1) 63 57 = 0 ∧ bits (w 1) 1 0 = 0) &&
  ([2, 3, 7].all fun i => decide (bits (w i) 63 57 = 0 ∧ bits (w i) 5 0 = 0)) && w 4 == 0#64 &&
  decide (bits (w 5) 31 20 ≤ 2048 ∧ bits (w 5) 19 0 = 0) && decide (bits (w 6) 63 57 = 0 ∧ bits (w 6) 3 0 = 0) &&
  decide ((liveRegs (liveArg ws)).length ≤ 16)

/-- R260: the values of the live registers with the argument at s3's place. -/
def argRegs (ws : List W64) (arg : W64) : List W64 :=
  let own := liveRegs ((tw ws 5).extractLsb' 32 32)
  (liveRegs (liveArg ws)).map fun k => if k = 3 then arg else tw ws (8 + (own.takeWhile (· != k)).length)

/-- R249: the handle a record would have now. The first generation of a record is 1 (DESIGN CHOICE, log entry 40). -/
def nextHandle (s : State) (die i : Nat) : W64 := mkHandle die (SMap.get 1#16 s.taskGen (die * 2 ^ 32 + i)) i

/-- R249: the first free record of a die from an index on; one whose handle would be 0 is passed over, since 0 names no
task. -/
def freeRecord (s : State) (die : Nat) : Nat → Nat → Option Nat
  | _, 0 => none
  | i, n + 1 =>
    if (SMap.get? s.tasks (die * 2 ^ 32 + i)).isNone && nextHandle s die i != 0#64 then some i
    else freeRecord s die (i + 1) n

/-- R268: the number of a die's records in use. -/
def usedRecords (s : State) (die : Nat) : Nat := (s.tasks.filter fun t => decide (t.1 / 2 ^ 32 = die)).length

/-- R260: the record that a template gives. -/
def recordOf (ws : List W64) (h : W64) (ctx : Nat) (parent : W64) (prio : Nat) (arg : W64) : TaskRec :=
  { handle := h, st := .waiting, prio := prio, eprio := prio, fz := bit (tw ws 0) 54, strict := bit (tw ws 0) 53,
    res := false, extn := bits (tw ws 0) 48 44, ctx := ctx, count := bits (tw ws 0) 31 0, pc := tw ws 1, image := tw ws 2,
    decl := tw ws 3, parent := parent, live := liveArg ws, ncmd := bits (tw ws 5) 31 20, cmds := tw ws 6, crec := tw ws 7,
    regs := argRegs ws arg, readyAt := 0, leaseAt := 0, bookAt := 0, wakes := 0, kids := 0, arms := [],
    cent := ⟨false, 0, 0#64⟩, walk := ⟨[], none, false⟩, lease := [], save := none, area := none, startC := none }

/-- R260, R319: create a record on a die; `none` when the die is full. -/
def State.newTask (s : State) (die : Nat) (ws : List W64) (ctx : Nat) (parent : W64) (prio : Nat) (arg : W64) :
    Option (W64 × State) :=
  match freeRecord s die 0 recordsPerDie with
  | none => none
  | some i =>
    let h := nextHandle s die i
    let t := recordOf ws h ctx parent prio arg
    let s1 := s.putTask t
    some (h, if t.count = 0 then s1.makeReady h else s1)

/-! ## SPAWN, DEPADD, DEPDEC -/

/-- R260: the completion record of a template, if it has one, lies in the lease with right W. -/
def crecOk (s : State) (ws : List W64) : Bool :=
  tw ws 7 == 0#64 || (match covered s.cc.lease (tw ws 7).toNat 128 .w with | .ok _ => true | .error _ => false)

/-- R260, R261: SPAWN. -/
def execSpawn (d a b : Reg) (ta tb : Bool) (p : Bool) (r : BitVec 3) (s : State) : Result :=
  withSrcs [(a, ta), (b, tb)] s fun s =>
    let ea := s.reg a
    if ea.toNat % 64 ≠ 0 then .next (s.trapAcc 0x03 ea 192 4)
    else match covered s.cc.lease ea.toNat 192 .r with
      | .error x => .next (s.ccLeaseFault ea 192 4 x)
      | .ok e =>
        if ccBusy s then .next s.stall
        else withTable ea e 24 s fun ws s1 =>
          if !tmplOk ws || !crecOk s1 ws then .next (s1.trap 0x07 0 0 ea false)
          else withDest d s1 fun s =>
            match s.newTask (dieOf s.cc.fc) ws s.cc.ctx s.cc.task (if p then r.toNat else bits (tw ws 0) 60 58) (s.reg b) with
            | none => .next (s.trap 0x09 0 0 ea false)
            | some (h, s2) => finishLate d (some h) s2 fun id t => t.push (.lateDelivery ⟨t.cc.task, id⟩)

/-- R263: a new COUNT for a waiting or running task. -/
def State.setCount (s : State) (h : W64) (f : Nat → Nat) : State :=
  match s.task? h with
  | none => s
  | some t =>
    if t.st = .waiting ∨ t.st = .running then
      let n := f t.count
      let s1 := s.putTask { t with count := n }
      if t.st = .waiting ∧ n = 0 then s1.makeReady h else s1
    else s

/-- R263, R168: DEPADD, a release. -/
def execDepadd (a b : Reg) (ta tb : Bool) (s : State) : Result :=
  withSrcs [(a, ta), (b, tb)] s fun s =>
    if ccBusy s then .next s.stall
    else .next (s.setCount (s.reg a) fun c => min (c + (s.reg b).toNat % 2 ^ 32) (2 ^ 32 - 1)).retire

/-- R263, R168: DEPDEC, a release. -/
def execDepdec (a b : Reg) (ta tb : Bool) (s : State) : Result :=
  withSrcs [(a, ta), (b, tb)] s fun s =>
    if ccBusy s then .next s.stall
    else .next (s.setCount (s.reg a) fun c => c - (s.reg b).toNat % 2 ^ 32).retire

/-! ## ARM (R264) -/

/-- R264: raise COUNT of the running task, and arm an event. Above 2^32 − 1 the manual gives COUNT no value: it is a
free value then (DESIGN CHOICE, log entry 11). -/
def State.raise (s : State) (n : Nat) (arm : Option Arm) : State :=
  match s.task? s.cc.task with
  | none => s
  | some t =>
    let c := t.count + n
    let big := decide (2 ^ 32 ≤ c)
    let t1 := { t with
      count := if big then (Config.bigCount s.free).toNat else c
      arms := t.arms ++ arm.toList }
    (if big then s.fresh else s).putTask t1

/-- R264: arm events of a kind with a count; a count of 0 has no effect. -/
def State.armEvents (s : State) (kind : Nat) (src : W64) (n : Nat) : State :=
  if n = 0 then s else s.raise n (some ⟨kind, src, BitVec.ofNat 64 n⟩)

/-- R264: COPYs of the running task that match and are not yet complete. -/
def copiesOpen (r : Run) (p : W64) : Nat :=
  (r.cmds.filter fun c => c.op == 0x10 && c.phase != .done &&
    (p == 0#64 || c.prom.any fun q => BitVec.ofNat 64 q == p)).length

/-- R264: consume pending events: how many are still to come, and the task without those consumed. -/
def State.usePending (s : State) (kids : Bool) (n : Nat) : Nat × State :=
  match s.task? s.cc.task with
  | none => (n, s)
  | some t =>
    let have_ := if kids then t.kids else t.wakes
    let used := min n have_
    (n - used, s.putTask (if kids then { t with kids := t.kids - used } else { t with wakes := t.wakes - used }))

/-- R228, R264: ARM of a phase; for want of a place at the engine the wait is held there. -/
def State.armPhase (s : State) (pa : Nat) (tok : W64) : State :=
  if phaseResult s pa tok = 0#64 then
    (s.raise 1 none).attempt ⟨homeDie pa, pa, true, false, .waitph tok, .arm s.cc.task⟩
  else s

/-- R264, R374, R375: ARM of a phase: the object is looked at where it lies. One in another device's memory is waited
for there, and counts as not yet left (DEDUCED, log entry 61); one that this device's import table refuses ends the task. -/
def State.armAt (s : State) (e : Extent) (ea tok : W64) : State :=
  match e.place ea.toNat with
  | .phys pa _ => s.armPhase pa tok
  | .peer p off =>
    if isSelf s p then
      match ingress s s.dev.devno.toNat p.win off 40 true true false p.key with
      | .ok pa => s.armPhase pa tok
      | .error z => s.importFault s.cc.task ea 40 6 z 0#64 5
    else (s.raise 1 none).sendPeer p off ea s.cc.pc true (.waitph tok) false (.arm s.cc.task)

/-- R264: ARM. -/
def execArm (a b : Reg) (ta tb : Bool) (k : BitVec 4) (s : State) : Result :=
  withSrcs [(a, ta), (b, tb)] s fun s =>
    let x := s.reg a
    let n := s.reg b
    let bad (v : W64) : Result := .next (s.trap 0x07 0 0 v false)
    match k.toNat with
    | 0 => if n ≠ 1#64 then bad n else .next (s.armEvents 0 x (if (s.task? x).isSome then 1 else 0)).retire
    | 1 => .next (s.armEvents 1 x (min n.toNat (copiesOpen s.cc x))).retire
    | 2 =>
      if x.toNat % 64 ≠ 0 then bad x
      else match coveredRW s.cc.lease x.toNat 40 false false with
        | .error _ => bad x
        | .ok e => if ccBusy s then .next s.stall else withSound true x 40 6 e s fun s => .next (s.armAt e x n).retire
    | 3 =>
      if x ≠ 0#64 then bad x
      else
        let q := s.usePending false n.toNat
        .next (q.2.armEvents 3 0#64 q.1).retire
    | _ =>
      if x ≠ 0#64 then
        if n ≠ 1#64 then bad n else .next (s.armEvents 4 x (if (s.task? x).isSome then 1 else 0)).retire
      else
        let q := s.usePending true n.toNat
        .next (q.2.armEvents 4 0#64 q.1).retire

/-! ## DONE and SUSPEND (R265, R266) -/

/-- R265: DONE, held until every accepted command has completed. -/
def execDone (a : Reg) (ta : Bool) (s : State) : Result :=
  withSrcs [(a, ta)] s fun s =>
    if !s.cc.cmds.isEmpty || ccBusy s then .next s.stall
    else
      let status := (s.reg a) &&& ~~~(1#64 <<< 63)
      .next (((s.modCc fun r => { r with ending := some (.done status), due := [], stall := 0 }).modTask s.cc.task
        fun t => { t with st := .ending }).settle s.cc.task)

/-- R265, R252: the window ends and the task waits, or is ready, with its continuation in its record. The save area is freed
(R411), and a retry owed to a round that will not be replayed is gone (R420). -/
def State.suspendTask (s : State) (live : W32) : State :=
  let h := s.cc.task
  let r := s.cc
  let regs := (liveRegs live).map fun k => r.reg (BitVec.ofNat 5 k)
  let s1 := s.modTask h fun t => { t with
    live := live, pc := r.pc + 4#64, res := true, regs := regs, st := .waiting, save := none, area := none }
  let s2 := ((((((s1.passOn r).clearDebt h).leaseEnds h r.lease).dropWaits h).freeWindow h true).dropRun h).pushAll [.contextSwitch, .dispatch]
  match s2.task? h with
  | some t => if t.count = 0 then s2.makeReady h else s2
  | none => s2

/-- R265, R266: SUSPEND. -/
def execSuspend (b : Reg) (tb : Bool) (s : State) : Result :=
  if !s.cc.cmds.isEmpty then .next s.stall
  else withSrcs [(b, tb)] s fun s =>
    let v := s.reg b
    let live : W32 := v.extractLsb' 0 32
    if bits v 63 32 ≠ 0 ∨ 16 < (liveRegs live).length then .next (s.trap 0x07 0 0 v false)
    else if !s.cc.loops.isEmpty || (s.cc.sys.hmode && !s.cc.aside.isEmpty) then .next (s.trap 0x04 2 0 0#64 false)
    else withSrcs ((liveRegs live).map fun k => (BitVec.ofNat 5 k, false)) s fun s =>
      if ccBusy s then .next s.stall else .next (s.suspendTask live)

/-! ## The end of a task that holds no window -/

/-- R356: the state as a task sees its context: through the entry its lease is made under. -/
def State.under (s : State) (t : TaskRec) : State := { s with ctxs := SMap.ins s.ctxs t.ctx (s.entryOf t) }

/-- R359: the declared extents of a task; `none` when the block cannot be read. A reserved bit is ignored (R7). -/
def declExtents (s : State) (t : TaskRec) : Option (List Extent) :=
  match ctxWords (s.under t) t.ctx (t.decl.toNat + 64) (2 * t.extn) with
  | none => none
  | some ws => some ((List.range t.extn).map fun k => readExtent k (tw ws (2 * k)) (tw ws (2 * k + 1)))

/-- R248: the address of the object that a saved ARRIVEC names. -/
def savedObject (s : State) (t : TaskRec) (c : Cmd) : Option Nat :=
  match (declExtents s t).bind fun l => extentOf l t.extn (tidExt c.tidC) with
  | some e => some (e.base + chunkOff c)
  | none => none

/-- R206, R248: what the end of a preempted task does for one command of its save: an ARRIVEC arrives with FAULT set,
and the S signal is written. The task holds no lease, so both go through its context's tables (DEDUCED, log entry 62). -/
def State.dropOne (s : State) (t : TaskRec) (c : Cmd) : State :=
  let x := c.args
  let s1 := match c.isArrivec, savedObject s t c with
    | true, some va => (s.sendCtx (s.entryOf t) va 40 true (.arrivec
        (if x.p1.getLsbD 24 then some (x.p1.extractLsb' 0 16) else none) (x.p1.extractLsb' 16 8) true) x.scope.toNat false false
        .none).getD s
    | _, _ => s
  if x.fs then
    (s1.sendCtx (s.entryOf t) c.csig.toNat 8 true (.sigop 2 1#64 (max x.scope.toNat 2)) (max x.scope.toNat 2)
      false true .none).getD s1
  else s1

/-- R248, R395, R410: the commands of the save of a task that ends while it holds no window are dropped. -/
def State.dropSaved (s : State) (h : W64) : State :=
  match s.task? h with
  | none => s
  | some t =>
    match t.save with
    | none => s
    | some r => (r.cmds.filter fun c => c.phase != .done).foldl (fun st c => st.dropOne t c) s

/-- R252, R395, R396: a task that holds no window ends by a fault, with what its raiser says of it in the record. -/
def State.endUnplacedRec (s : State) (h cause : W64) (i : FaultInfo) : State :=
  (s.dropSaved h).endTask h (faultStatus cause) (some (unplacedRec s.cyc cause i))

/-- R252, R395: a task that holds no window ends by a fault of the scheduler. -/
def State.endUnplaced (s : State) (h cause tval : W64) : State :=
  s.endUnplacedRec h cause { ccInfo 0#64 tval with agent := 7 }

/-- R252, R262, R274, R361: a task that is not running ends with a cause before it is dispatched. -/
def State.endEarly (s : State) (h : W64) (code reason : Nat) (tval : Nat) : State :=
  s.endUnplaced h (causeWord code reason 0) (BitVec.ofNat 64 tval)

/-! ## Aging and the ready queues (R253) -/

/-- R253: the effective priority of a task that waits to be dispatched. -/
def aged (cyc : Nat) (t : TaskRec) : TaskRec :=
  if t.st = .ready ∨ t.st = .leasing ∨ t.st = .booking then
    { t with eprio := min 7 (t.prio + (cyc - t.readyAt) / 64 / 4096) }
  else t

/-- AGING (R253). -/
def execAging (s : State) : Result :=
  let ts : SMap TaskRec := s.tasks.map fun e => (e.1, aged s.cyc e.2)
  .next { s with tasks := ts }

/-- R253: the order of the ready queues of a die. -/
def readyBefore (x y : TaskRec) : Bool :=
  keyLt [7 - x.eprio, x.readyAt, handleIdx x.handle] [7 - y.eprio, y.readyAt, handleIdx y.handle]

/-- R253: the task that the lease unit of a die takes next: one that is leasing and does not wait, else the head of the
ready queues while fewer than 64 tasks of the die are leasing. -/
def nextWalk (s : State) (die : Nat) : Option TaskRec :=
  let mine := (s.tasks.map (·.2)).filter fun t => handleDie t.handle == die
  let leasing := mine.filter fun t => t.st == .leasing
  match sortBy (fun x y => decide (x.leaseAt < y.leaseAt)) (leasing.filter fun t => !t.walk.waits) with
  | t :: _ => some t
  | [] => if leasing.length < 64 then (sortBy readyBefore (mine.filter fun t => t.st == .ready)).head? else none

/-! ## Leasing (R252, R359 to R362) -/

/-- Where a lease walk ends: a lease, a page to wait for, an error. -/
inductive LeaseRes where
  | ok (lease : List Extent)
  | wait (w : Walk)
  | error (reason va : Nat)
deriving DecidableEq, Repr

/-- R360, R361: the code extent comes last; R362: at most 128 runs. -/
def walkLast (m : List (Nat × Byte)) (root pc : Nat) (done : List Extent) (start : Option (Extent × Nat)) : LeaseRes :=
  let p := start.getD (codeExtent pc, pc / 65536 * 65536)
  match walkCode m root p.1 p.2 64 with
  | .error r va => .error r va
  | .wait e va => .wait ⟨done, some (e, va), true⟩
  | .ok e =>
    let all := done ++ [e]
    if 128 < ((all.map fun x => x.runs.length).sum) then .error 6 e.base else .ok all

/-- R361: walk the extents that are left, in ascending number. -/
def walkRest (m : List (Nat × Byte)) (root pc : Nat) : List Extent → List Extent → LeaseRes
  | [], done => walkLast m root pc done none
  | e :: es, done =>
    match walkExtent m root e (e.base / 4096 * 4096) with
    | .error r va => .error r va
    | .wait e' va => .wait ⟨done, some (e', va), true⟩
    | .ok e' => walkRest m root pc es (done ++ [e'])

/-- R360, R414: the pc of a task at leasing: that of its save, or of its record. -/
def TaskRec.pcNow (t : TaskRec) : Nat := (match t.save with | some r => r.pc | none => t.pc).toNat

/-- R361: the walk of a task, from where it stands. -/
def walkTask (s : State) (t : TaskRec) (root : Nat) (decl : List Extent) : LeaseRes :=
  match t.walk.part with
  | none => walkRest s.mem root t.pcNow decl []
  | some (e, va) =>
    if e.idx = 16 then walkLast s.mem root t.pcNow t.walk.done (some (e, va))
    else match walkExtent s.mem root e va with
      | .error r va => .error r va
      | .wait e' va => .wait ⟨t.walk.done, some (e', va), true⟩
      | .ok e' => walkRest s.mem root t.pcNow (decl.drop (e.idx + 1)) (t.walk.done ++ [e'])

/-- R361: the EP posts LEASEWAIT. -/
def State.leaseWait (s : State) (t : TaskRec) (va : Nat) : State :=
  s.postEvent (mbEvent 0x81 t.ctx (BitVec.ofNat 64 va) 0#64 0#64 0#64)

/-- R254, R319: the image of a task as its context's tables show it: `none` for a task without one, or when it can no
longer be read (DESIGN CHOICE, log entry 63). -/
def taskImage (s : State) (t : TaskRec) : Option (ImageHdr × List Nat) :=
  if t.image = 0#64 then none else (loadImage (s.under t) t.ctx t.image.toNat).map fun i => (i.1, i.2.1)

/-- R274: the declaration's reservation is checked, and the task asks for a window. -/
def State.book (s : State) (t : TaskRec) : State :=
  match ctxWords (s.under t) t.ctx t.decl.toNat 8 with
  | none => s.endEarly t.handle 0x23 2 t.decl.toNat
  | some ws =>
    let hdr := taskImage s t
    let d := readDesc ws
    let win := winOf d (match hdr with | some h => h.2 | none => [])
    let hd := hdr.map (·.1)
    if descOk s (handleDie t.handle) d hd win then s.request t.handle d win hd
    else (s.modTask t.handle fun x => { x with st := .booking }).endEarly t.handle 0x24 0 0

/-- R368: a lease has a run that overlaps a range. -/
def leaseMeets (l : List Extent) (va n : Nat) : Bool :=
  l.any fun e => e.runs.any fun r => decide (0 < overlap va n r.vstart r.len)

/-- R368: the recall in progress takes back a page of a lease just made: the walk starts again after it. -/
def underRecall (s : State) (ctx : Nat) (lease : List Extent) : Bool :=
  match s.mbox.taking with
  | some (c, va, n) => c == ctx && leaseMeets lease va n
  | none => false

/-- R361, R362: act on the outcome of a walk. -/
def State.leased (s : State) (t : TaskRec) : LeaseRes → State
  | .error r va => s.endEarly t.handle 0x23 r va
  | .wait w =>
    (s.modTask t.handle fun x => { x with walk := w }).leaseWait t (match w.part with | some p => p.2 | none => 0)
  | .ok lease =>
    if underRecall s t.ctx lease then s.modTask t.handle fun x => { x with walk := ⟨[], none, true⟩ }
    else (s.modTask t.handle fun x => { x with lease := lease, walk := ⟨[], none, false⟩ }).book t

/-- R250, R28: what the lease unit and the front end read for a task: its declaration, its command section, its image header. -/
def taskBlocks (t : TaskRec) : List (Nat × Nat) :=
  [(t.decl.toNat, 64 + 16 * t.extn), (t.cmds.toNat, 16 * t.ncmd)] ++ if t.image = 0#64 then [] else [(t.image.toNat, 64)]

/-- R418, R421: a sector with an uncorrectable error that the lease unit meets, again at its second attempt. -/
def taskBad (s : State) (t : TaskRec) : Option Nat := (taskBlocks t).findSome? fun b => ctxBad s (s.entryOf t) b.1 b.2

/-- R419: the task ends by the memory error that the lease unit met. -/
def State.walkBad (s : State) (t : TaskRec) (pa : Nat) : State :=
  ((s.memErr pa false).memErr pa true).endEarly t.handle 0x25 0 pa

/-- R252, R361: one walk, under the context entry in the record; the declaration block and the command section are
read through the same tables. -/
def State.walkOne (s : State) (t : TaskRec) : State :=
  if !t.cent.valid then s.endEarly t.handle 0x23 1 0
  else match taskBad s t with
    | some pa => s.walkBad t pa
    | none =>
      match declExtents s t with
      | none => s.endEarly t.handle 0x23 2 (t.decl.toNat + 64)
      | some decl =>
        if !ctxMapped (s.under t) t.ctx t.cmds.toNat .r (16 * t.ncmd) then s.endEarly t.handle 0x23 2 t.cmds.toNat
        else s.leased t (walkTask s t t.cent.root decl)

/-- R356, R368: the record of a task at its walk: a walk that begins, or begins again, takes the context entry as it
stands; one that goes on keeps its own. -/
def TaskRec.beginWalk (t : TaskRec) (s : State) : TaskRec :=
  if t.st = .leasing ∧ t.walk.part.isSome then t
  else { t with
    st := .leasing
    leaseAt := if t.st = .leasing then t.leaseAt else s.cyc
    cent := ctxEnt s t.ctx
    walk := ⟨[], none, false⟩ }

/-- R262: a child that enters Leasing with an image that fails validation. -/
def badChild (s : State) (t t1 : TaskRec) : Bool :=
  t.st != .leasing && t.parent != 0#64 && t.image != 0#64 && t1.cent.valid && (taskImage s t1).isNone

/-- LEASE_WALK (R253, R262, R361): the lease units of the dies take their next tasks. A child's image is validated on
entry, before any extent is walked. -/
def execLeaseWalk (s : State) : Result :=
  match [0, 1, 2, 3].findSome? (nextWalk s) with
  | none => .next s
  | some t =>
    let t1 := t.beginWalk s
    let s1 := s.putTask t1
    .next ((if badChild s t t1 then s1.endEarly t.handle 0x28 0 t.image.toNat else s1.walkOne t1).push .leaseWalk)

/-! ## Dispatch (R254, R255, R414) -/

/-- R293: the placement record. -/
def placeWord (e : AlmEnt) : W64 :=
  BitVec.ofNat 64 (fieldAt e.fc 58 + fieldAt e.ctxn 26 +
    (if e.rgn then fieldAt e.row0 55 + fieldAt e.cgo 53 + fieldAt e.hgt 50 + fieldAt e.wid 48 + fieldAt e.ports 32 +
      fieldAt e.tiles 28 else 0))

/-- R81, R254: the registers of a fresh dispatch. -/
def freshRegs (t : TaskRec) : Vector RegCell 32 :=
  ((liveRegs t.live).zip t.regs).foldl (fun v e => v.set! e.1 ⟨e.2, true, false⟩) (Vector.replicate 32 RegCell.reset)

/-- R28, R254: the command section as command memory. -/
def loadCmds (s : State) (t : TaskRec) : SMap W128 :=
  match ctxWords (s.under t) t.ctx t.cmds.toNat (2 * t.ncmd) with
  | none => []
  | some ws => (List.range t.ncmd).filterMap fun i =>
      let w : W128 := tw ws (2 * i + 1) ++ tw ws (2 * i)
      if w = 0#128 then none else some (i, w)

/-- R254, R255: the context of a fresh dispatch. -/
def freshRun (s : State) (t : TaskRec) (e : AlmEnt) : Run :=
  { Run.reset with
    task := t.handle, fc := e.fc, ctxn := e.ctxn, ctx := t.ctx, fz := t.fz, strict := t.strict, place := placeWord e,
    regs := freshRegs t, pc := t.pc, sys := { SysRegs.reset with seed := (s.entryOf t).seed },
    cmdMem := loadCmds s t, lease := t.lease, extn := t.extn, region := { Region.reset with
      hdr := (taskImage s t).map (·.1) } }

/-- R414: the context of a restoring dispatch before its operand stores are filled. R399, R411: of the system registers the
save holds the writable ones and sr.tstat; sr.frec0 to sr.frec7 are not stated and hold free values (DESIGN CHOICE, log entry
113). -/
def restoredRun (r : Run) (t : TaskRec) (e : AlmEnt) (n : Nat) : Run :=
  let tiles : SMap Tile := r.tiles.map fun x => (x.1, { x.2 with a := [], b := [], pins := [] })
  { r with fc := e.fc, ctxn := e.ctxn, place := placeWord e, lease := t.lease, active := false, ending := none,
           preempt := false, stall := 0, yields := false, relCur := false, tiles := tiles
           sys := { r.sys with frec := vec8 ((List.range 8).map (Config.lostFrec n)) } }

/-- R411, R414: one entry of the fill log is read again from its source as it stands now. -/
def refill (r : Run) (tile : Nat) (f : FillLog) (s : State) : Except AccErr Unit × State :=
  let x := unpackCmd f.word
  let put (bs : List Byte) (s : State) : State := s.modRun r.task fun q =>
    let t := q.tile tile
    let off := 128 * x.fld 93 82
    q.setTile tile (if x.fld 94 94 = 0 then { t with a := putSide t.a off bs } else { t with b := putSide t.b off bs })
  if opCmd f.word = 0x11 then
    match copymBytes s r x f.tid with
    | (.error e, s1) => (.error e, s1)
    | (.ok bs, s1) => (.ok (), put bs s1)
  else
    let c := { r.mkCmd 0 f.word none with tidA := f.tid }
    match mapAcc (List.range 128) (panelRow r c) s with
    | (.error e, s1) => (.error e, s1)
    | (.ok rows, s1) =>
      match mapAcc (List.range 128) (panelScales r c) s1 with
      | (.error e, s2) => (.error e, s2)
      | (.ok scales, s2) => (.ok (), put (panelLayout (tidFmt f.tid) (fetchK x) (tidSfmt f.tid == 1) rows scales) s2)

/-- R414 step 2: the operand stores of every tile; a source that can no longer be read ends the task. -/
def State.refillAll (s : State) (r : Run) : State :=
  let jobs := r.tiles.flatMap fun t => t.2.fills.map fun f => (t.1, f)
  match forAcc (List.range jobs.length) (fun i s => match jobs[i]? with
      | some j => refill r j.1 j.2 s
      | none => (.ok (), s)) s with
  | (.ok _, s1) => s1
  | (.error e, s1) => s1.accFault r.task 0#64 3 0 0 0 0 e

/-- R414 steps 4 and 5: the restored context goes on: pending commands are tried, the accesses its save held go on, the
parked records of the edge are armed again (R200), the stage replays from its edge. -/
def State.resume (s : State) (h : W64) (r : Run) : State :=
  let s1 := ((s.refillAll r).kick h).push (.lateDelivery ⟨h, r.nextId⟩)
  if r.region.running then (s1.rearm h).replay h else s1

/-- R412: a save area whose save has been restored holds none. -/
def areaFree (v : Vector W64 8) : Vector W64 8 := v.set 0 (word8 v 0 &&& ~~~(1#64 <<< 63))

/-- R254, R280: dispatch one granted task. -/
def State.dispatchTask (s : State) (t : TaskRec) (e : AlmEnt) : State :=
  let start := 64 * e.start
  let s1 := (s.putTask { t with
    st := .running, save := none, area := t.area.map areaFree, lease := [], startC := some (t.startC.getD start) })
  let s2 := { s1 with alm := s1.alm.replace e { e with st := 2 }, allow := SMap.put 0 s1.allow (handleKey t.handle) e.xlim }
  match t.save with
  | none => (s2.addRun (freshRun s2 t e)).push .contextSwitch
  | some r =>
    let r1 := restoredRun r t e s2.free
    ((s2.fresh.addRun r1).push .contextSwitch).resume t.handle r1

/-- R254, R280: the entered grants whose start slot has come and whose context is free. A context whose last window
still ends holds its own grant alone. -/
def dueGrants (s : State) : List AlmEnt :=
  s.alm.filter fun e => decide (e.st = 1 ∧ e.start ≤ s.slot) && (residentAt s e.fc e.ctxn).isNone

/-- DISPATCH (R254, R280): the first due grant; the others follow. -/
def execDispatch (s : State) : Result :=
  match dueGrants s with
  | [] => .next s
  | e :: rest =>
    let s1 := match s.task? e.handle with
      | none => { s with alm := s.alm.erase e }
      | some t => s.dispatchTask t e
    .next (if rest.isEmpty then s1 else s1.push .dispatch)

/-! ## Preemption (R282, R409, R410) -/

/-- R410: what a preemption leaves of an accepted command: a started port command starts again after the dispatch, and
so do a CBAR and an ARRIVEC that still wait for earlier commands (DEDUCED, log entry 14). -/
def Cmd.saved (c : Cmd) : Cmd :=
  match c.queue, c.phase with
  | .port _, .started => { c with phase := .waiting }
  | .barrier, .started => { c with phase := .waiting }
  | _, .started => if c.isArrivec && c.step == 0 then { c with phase := .waiting } else c
  | _, _ => c

/-- R409, R410: the context is stopped at an edge and its commands are settled. A started fill that nothing will let land is
kept like a command that has not started (DEDUCED, log entry 14). -/
def State.preemptNow (s : State) (r : Run) : State :=
  let h := r.task
  let s1 := if r.region.running then s.rollback h else s
  let s2 := (r.cmds.filter fun c => c.op == 0x07 && c.phase != .done).foldl (fun t c => t.cmdDone ⟨h, c.id⟩ 0#2) s1
  let s3 := s2.modRun h fun q => { q with
    ending := some .preempt
    due := q.due.filter (·.region)
    cmds := q.cmds.map fun c => if q.stuck.contains c.id then { c with phase := .waiting } else c.saved }
  (s3.askGuests h).settle h

/-- R282: the closing slot of a task's window has ended. -/
def closed (s : State) (h : W64) : Bool :=
  match startedEnt s h with
  | some e => decide (e.last + 1 < s.slot)
  | none => false

/-- R282: the overrun of a strict task ends it. -/
def State.overrunEnd (s : State) (r : Run) : State :=
  let last := match startedEnt s r.task with | some e => e.last | none => 0
  let cause := causeWord 0x20 0 0
  s.faultEnd r.task cause (mkRec s.cyc r cause { ccInfo 0#64 (BitVec.ofNat 64 last) with agent := 7 })

/-- R411: the save buffer of the context's core, of 2 MiB, has room for its save beside those that have not drained; a
save alone always fits. -/
def saveFits (s : State) (r : Run) : Bool :=
  let l := s.saveBuf.filter fun e => e.fc == r.fc
  l.isEmpty || decide ((l.map (·.bytes)).sum + saveBytes r ≤ 2097152)

/-- R409, R411: a preemption that waited for room goes on: at the next edge of a stage that runs. -/
def State.preemptAgain (s : State) (r : Run) : State :=
  if r.region.running && !closed s r.task then (if r.region.early then s else s.askEdge r.task) else s.push (.preemption r.task)

/-- R411: the oldest save of a core's buffer has drained; preemptions that wait for room are tried again. -/
def State.saveDrained (s : State) (fc : Nat) : State :=
  let s1 : State := match s.saveBuf.find? fun e => e.fc == fc with
    | some e => { s with saveBuf := s.saveBuf.erase e }
    | none => s
  (s1.allRuns.filter fun r => r.fc == fc && r.preempt && r.ending.isNone).foldl State.preemptAgain s1

/-- PREEMPTION (R409): at an edge of the region, or where no stage runs, or once the closing slot has ended. R411: without
room in the save buffer an overrun is settled as a strict task's, and another preemption waits for room. -/
def execPreemption (task : W64) (s : State) : Result :=
  match s.run? task with
  | none => .next s
  | some r =>
    if !r.preempt || r.ending.isSome then .next s
    else if !r.region.running || !r.region.early || closed s task then
      .next (if s.overrun.contains task && (r.strict || !saveFits s r) then s.overrunEnd r
        else if saveFits s r then s.preemptNow r
        else s)
    else .next s

end Sys2Proof.Machine
end

