-- ==== Sys2Proof/Machine/Guest.lean ====
section
/-! DEFINITION. Guest engine sites: GQPOST and what a guest may do (R379 to R389). -/

namespace Sys2Proof.Machine

/-! ## Sites and tags -/

def State.putGuest (s : State) (site : Nat) (g : GSite) : State := { s with guests := SMap.ins s.guests site g }

/-- Change one tag of a site. -/
def State.modTag (s : State) (site tag : Nat) (f : GTag → GTag) : State :=
  let g := s.guest site
  s.putGuest site { g with tags := g.tags.map fun t => if t.1 = tag then (t.1, f t.2) else t }

/-- R449: the presence bits of the device information block follow the sites. -/
def State.present (s : State) (site : Nat) (v : Bool) : State :=
  let g := s.guest site
  let bit_ := 2 ^ site
  let gsp := if v then s.dev.gsp ||| bit_ else s.dev.gsp &&& (3 - bit_)
  { s.putGuest site { g with present := v } with dev := { s.dev with gsp := gsp } }

/-- R380: the physical address of a tag's save area: 64 KiB in HBM, its own. The spec does not say where the EP puts
the areas: they follow one another from an address that nothing fixes (DESIGN CHOICE, log entry 3). -/
def saveArea (site tag : Nat) : Nat :=
  Config.saveArea % (hbmSize - 2 ^ 25 + 1) + (256 * (site % 2) + tag % 256) * 65536

/-- R7, R380: the packet as the guest site sends it: the reserved bits of W0 read 0. -/
def guestWords (ws : List W64) (site tag prom : Nat) (resume : Bool) : List W64 :=
  [tw ws 0 &&& 0xFFFF0000FFFFFFFF#64, BitVec.ofNat 64 (fieldAt tag 56 + fieldAt (boolNat resume) 55), BitVec.ofNat 64 (saveArea site tag),
    BitVec.ofNat 64 prom, tw ws 4, tw ws 5, tw ws 6, tw ws 7]

/-- R380: GOP and BUDGET. -/
def guestOp (ws : List W64) : W64 := BitVec.ofNat 64 (bits (tw ws 0) 63 48)
def guestBudget (ws : List W64) : Nat := bits (tw ws 0) 31 0

/-- R381: send a packet under a tag; of a host packet the context of its queue and its A bit are kept. -/
def State.sendGuest (s : State) (site tag : Nat) (owner : Owner) (ws : List W64) (resume : Bool) (ctx : Nat)
    (abort : Bool) : State :=
  let p := s.cyc + guestBudget ws
  let words := guestWords ws site tag p resume
  let g := s.guest site
  let s1 := s.putGuest site { g with tags := SMap.ins g.tags tag ⟨owner, words, none, none, false, false, [], ctx, abort⟩ }
  { s1 with out := s1.out ++ [.guestPacket site words] }

/-- R383, R384: the lease that a tag's accesses are checked against: that of the posting task, or the one that a
pending invalidation left behind; of a host packet the pages pinned for it. -/
def tagLease (s : State) (t : GTag) : List Extent :=
  match t.inval, t.owner with
  | none, .cmd k => (match s.run? k.task with | some r => r.lease | none => [])
  | _, _ => t.oldLease

/-- R384: a tag that is freed: its translations are invalidated; it can be given again once that is acknowledged. -/
def State.freeTag (s : State) (site tag : Nat) : State :=
  let s1 := s.modTag site tag fun t => { t with
    owner := .none, preempt := none, saved := false, inval := some (t.inval.getD s.cyc), oldLease := tagLease s t }
  { s1 with out := s1.out ++ [.guestInval site tag] }

/-- The packet of a tag came from a host's queue. -/
def GTag.hosted (t : GTag) : Bool := match t.owner with | .pkt _ => true | _ => false

/-! ## GQPOST (R381, R387) -/

/-- A guest command ends without a token: its S signal is written (R385). -/
def State.dropGuest (s : State) (k : CmdRef) : State :=
  match s.run? k.task with
  | none => s
  | some r =>
    match r.cmd? k.id with
    | none => s
    | some c =>
      let s1 := s.modRun k.task fun q => { q with cmds := q.cmds.filter fun d => !decide (d.id = k.id) }
      if c.args.fs then s1.signal r.lease k c.csig c.args.scope.toNat else s1

/-- R396: the ISSUE of a guest command, of a dispatched task or of one whose save holds the command. -/
def State.guestPc (s : State) (k : CmdRef) : W64 :=
  match ((s.run? k.task).or ((s.task? k.task).bind (·.save))).bind fun r => r.cmd? k.id with
  | some c => c.pc
  | none => 0#64

/-- R395, R396: a guest cause ends the task of a command, whether it holds a window or not. -/
def State.guestCause (s : State) (k : CmdRef) (cause : W64) (i : FaultInfo) : State :=
  let info := { i with agent := 6 }
  match s.run? k.task with
  | none => s.endUnplacedRec k.task cause info
  | some r => s.faultEnd k.task cause (mkRec s.cyc r cause info)

/-- The same, for a command whose work the guest does not hold or has lost: it goes, without a token. -/
def State.guestEnd (s : State) (k : CmdRef) (cause : W64) (i : FaultInfo) : State :=
  ((s.dropGuest k).guestCause k cause { i with pc := s.guestPc k }).settle k.task

/-- R381: the packet of a command is posted under a tag, with its promise. -/
def State.postGuest (s : State) (k : CmdRef) (site tag : Nat) (ws : List W64) (resume : Bool) : State :=
  (s.modCmd k fun y => { y with step := 1, prom := some (s.cyc + guestBudget ws), missed := false }).sendGuest site tag
    (.cmd k) ws resume 0 false

/-- A GQPOST that has not sent its packet goes back to wait: for a tag, or for the task's next dispatch (R387). -/
def State.holdGuest (s : State) (k : CmdRef) : State :=
  (s.modCmd k fun y => { y with phase := .waiting }).settle k.task

/-- GQPOST (R381): it posts the packet it has read; or, when its work was saved at a preemption, sends it again. R387:
where the window has begun to end before the packet was sent, a preemption keeps the command, a fault drops it. -/
def execGqpost (k : CmdRef) (x : CmdArgs) (s : State) : Result :=
  withCmd k s fun r c s =>
    let site := x.fld 90 90
    match r.ending with
    | some .preempt => s.holdGuest k
    | some _ => (s.dropGuest k).settle k.task
    | none =>
      if !(s.guest site).present then s.holdGuest k
      else match savedTag (s.guest site) k with
        | some (tag, t) => if t.inval.isSome then s.holdGuest k else s.postGuest k site tag t.words true
        | none =>
          if guestBudget c.words = 0 then s.guestEnd k (causeWord 0x30 0 0) (ccInfo 0#64 (guestOp c.words))
          else match freeTag (s.guest site) with
            | some tag => s.postGuest k site tag c.words false
            | none => s.holdGuest k

/-! ## Messages from a guest -/

/-- A tag whose packet has started and is with the guest. -/
def liveTag (s : State) (site tag : Nat) : Option GTag :=
  match SMap.get? (s.guest site).tags tag with
  | some t => if (s.guest site).present && t.owner != .none && !t.saved then some t else none
  | none => none

/-- GUEST_COMPLETION (R381). -/
def State.guestComplete (s : State) (site tag : Nat) : State :=
  match liveTag s site tag with
  | none => s
  | some t =>
    let s1 := s.freeTag site tag
    match t.owner with
    | .cmd k => s1.cmdDone k 0#2
    | _ => s1

def execGuestCompletion (site tag : Nat) (s : State) : Result := .next (s.guestComplete site tag)

/-- R385, R396: the guest's record, with the words the guest site overwrites; reserved bits read 0 (R7). -/
def guestRec (s : State) (r : Run) (pc : W64) (site tag : Nat) : Vector W64 8 :=
  let ws := memWords s.mem (saveArea site tag) 8
  vec8 [tw ws 0 &&& 0xF0000000FFFFFFFF#64, BitVec.ofNat 64 s.cyc, r.place, BitVec.ofNat 64 (bits pc 56 0), tw ws 4,
    tw ws 5 &&& 0xFFFFFFE0FFFFFFFF#64, tw ws 6 &&& 0x7FFF#64, tw ws 7]

/-- GUEST_FAULT_MESSAGE (R385). -/
def State.guestFault (s : State) (site tag : Nat) : State :=
  match liveTag s site tag with
  | none => s
  | some t =>
    let s1 := s.freeTag site tag
    match t.owner with
    | .cmd k =>
      match s1.run? k.task with
      | none => s1
      | some r =>
        let pc := match r.cmd? k.id with | some c => c.pc | none => 0#64
        let rec_ := guestRec s1 r pc site tag
        ((s1.dropGuest k).faultEnd k.task (BitVec.ofNat 64 (bits (word8 rec_ 0) 31 0)) rec_).settle k.task
    | _ => s1

def execGuestFaultMessage (site tag : Nat) (s : State) : Result := .next (s.guestFault site tag)

/-- INVALIDATION_ACK (R384): a tag that nobody owns may be given again, and a GQPOST whose saved work waits for the
acknowledgement may go on (R387). -/
def execInvalidationAck (site tag : Nat) (s : State) : Result :=
  match SMap.get? (s.guest site).tags tag with
  | none => .next s
  | some t =>
    if t.inval.isNone then .next s
    else if t.owner = .none then
      .next (s.putGuest site { s.guest site with tags := SMap.del (s.guest site).tags tag }).kickAll
    else .next (s.modTag site tag fun t => { t with inval := none, acked := true, oldLease := [] }).kickAll

/-- R387: the guest has saved the work of a tag: after a preemption the command waits for the task's next dispatch; at
a task end the state is discarded. -/
def State.guestSaved (s : State) (site tag : Nat) (k : CmdRef) : State :=
  match s.run? k.task with
  | none => s.freeTag site tag
  | some r =>
    match r.ending with
    | some .preempt =>
      ((s.modTag site tag fun t => { t with preempt := none, saved := true }).modCmd k fun c =>
        { c with phase := .waiting, step := 0, prom := none }).settle k.task
    | _ => ((s.freeTag site tag).dropGuest k).settle k.task

/-- GUEST_PREEMPT_ANSWER (R387). -/
def execGuestPreemptAnswer (site tag : Nat) (ans : GuestAnswer) (s : State) : Result :=
  match liveTag s site tag with
  | none => .next s
  | some t =>
    if t.preempt.isNone then .next s
    else match ans, t.owner with
      | .saved, .cmd k => .next (s.guestSaved site tag k)
      | .saved, _ => .next s
      | .completed, _ => .next (s.guestComplete site tag)
      | .fault, _ => .next (s.guestFault site tag)

/-! ## Reset (R387) -/

/-- R387: the bits of the tags whose work is discarded, in four words. -/
def tagBits (tags : SMap GTag) (i : Nat) : W64 :=
  BitVec.ofNat 64 ((tags.filter fun t => t.2.owner != .none && decide (t.1 / 64 = i)).map fun t => 2 ^ (t.1 % 64)).sum

/-- R320, R321, R323, R387: the work of a host packet is lost: a packet that has not yet signalled ends in packet
error; one that has completed when the site accepted it (R319) has written its signal, once for all, and its error
still aborts its queue when A = 1 (DEDUCED, log entry 64). -/
def State.packetLost (s : State) (p : PktRef) (abort : Bool) : State :=
  match SMap.get? s.queues p.q with
  | none => s
  | some q =>
    if q.packets.any fun x => decide (x.idx = p.idx) then
      (s.modPacket p fun x => { x with ended := some false }).push (.packetComplete p)
    else if abort && q.st == .active then
      ({ s with queues := SMap.ins s.queues p.q { q with st := .aborted } }).push (.packetFetch p.q)
    else s

/-- R387: a task whose guest work is lost ends by a fault, whether it runs or waits with its work saved. -/
def State.guestLost (s : State) (site : Nat) (t : GTag) : State :=
  match t.owner with
  | .cmd k => s.guestEnd k (causeWord 0x32 0 0) (ccInfo 0#64 (BitVec.ofNat 64 site))
  | .pkt p => s.packetLost p t.abort
  | _ => s

/-- R387: the guest site resets its engine; the site is absent until its image is authenticated again. -/
def State.guestReset (s : State) (site : Nat) : State :=
  let tags := (s.guest site).tags
  let s1 := (s.putGuest site ⟨false, []⟩).present site false
  let s2 := tags.foldl (fun st t => st.guestLost site t.2) s1
  s2.postEvent (mbEvent 0x84 site (tagBits tags 0) (tagBits tags 1) (tagBits tags 2) (tagBits tags 3))

/-- The first site one of whose tags a test selects. -/
def siteWith (s : State) (f : GTag → Bool) : Option Nat :=
  (s.guests.find? fun g => g.2.tags.any fun t => f t.2).map (·.1)

/-- INVALIDATION_DEADLINE (R384): 6,000 cycles have passed without an acknowledgement. -/
def execInvalidationDeadline (s : State) : Result :=
  match siteWith s fun t => t.inval.any fun c => decide (c + 6000 < s.cyc) with
  | some site => .next (s.guestReset site)
  | none => .next s

/-- PREEMPT_DEADLINE (R387): 150,000 cycles have passed without an answer. -/
def execPreemptDeadline (s : State) : Result :=
  match siteWith s fun t => t.preempt.any fun c => decide (c + 150000 < s.cyc) with
  | some site => .next (s.guestReset site)
  | none => .next s

/-- R389, R450: an image is accepted when the digest of its key is the hash fused for its kind and its signature verifies
over the digest of its body. -/
def authenticate (hash : BitVec 512) (i : BootImage) : AuthResult :=
  if sha512 (leBytes 32 i.key.toNat) != hash then .keyMismatch
  else if edVerifies i.key i.sig (digestBytes (sha512 i.body)) then .accepted
  else .badSignature

/-- R389: the image of a site is authenticated; one that is accepted is loaded, and its digest kept (R451). -/
def State.guestAuth (s : State) (site : Nat) (i : BootImage) : State :=
  match authenticate s.dev.gsHash i with
  | .accepted =>
    let t := s.present site true
    { t with dev := { t.dev with gsDigest := t.dev.gsDigest.setIfInBounds site (sha512 i.body) } }
  | .keyMismatch => (s.present site false).postEvent (mbEvent 0x85 site 0#64 0#64 0#64 0#64)
  | .badSignature => (s.present site false).postEvent (mbEvent 0x85 site 1#64 0#64 0#64 0#64)

/-- GUEST_REAUTHENTICATION (R387, R389): the EP authenticates the image of an absent site. -/
def execGuestReauthentication (site : Nat) (r : BootImage) (s : State) : Result :=
  if guestsWired s && decide (site < 2) && !(s.guest site).present && decide (s.dev.st = 2) then
    .next (s.guestAuth site r).kickAll
  else .next s

/-! ## Accesses (R383, R384) -/

/-- R383: every run that an access touches has GV = 1. -/
def Extent.gvOk (e : Extent) (va n : Nat) : Bool :=
  e.peer.isNone && e.runs.all fun r => decide (overlap va n r.vstart r.len = 0) || attrGv r.attr

/-- R383: the physical address an access under a tag reaches, or the reason it is refused. -/
def guestPlace (s : State) (t : GTag) (va n : Nat) (right : Right) : Except Nat Nat :=
  match covered (tagLease s t) va n right with
  | .error r => .error r
  | .ok e =>
    if e.gvOk va n then
      match e.place va with
      | .phys pa _ => .ok pa
      | .peer _ _ => .error 2
    else .error 2

/-- R319, R383: the pages pinned for a host packet, as one extent; nothing of it is an instruction. -/
def pinExtent (l : List Extent) : Extent := (l.head?).getD ⟨16, true, true, false, 0, 2 ^ 56, [], none⟩

/-- The 4 KiB page of an address, as an extent. -/
def pageExtent (va : Nat) : Extent :=
  ⟨16, true, true, false, va / 4096 * 4096, 4096, [⟨va / 4096 * 4096, 4096, 0#8, 0, 0⟩], none⟩

/-- R319, R383: the page of an access of a host packet is pinned for it when the packet first touches it, as the tables
of the queue's context stand then (DESIGN CHOICE, log entry 65). -/
def GTag.pin (t : GTag) (s : State) (va : Nat) : GTag :=
  let e := pinExtent t.oldLease
  if (e.runAt va).isSome || decide (2 ^ 56 ≤ va) || !(ctxEnt s t.ctx).valid || underRecall s t.ctx [pageExtent va] then t
  else match pageAt s.mem (ctxEnt s t.ctx).root va with
    | .leaf vb size frame psz attr => { t with oldLease := [{ e with runs := e.runs ++ [⟨vb, size, attr, psz, frame⟩] }] }
    | _ => t

/-- R383: before an access of a host packet its page is pinned. -/
def State.pinGuest (s : State) (site tag va : Nat) : State :=
  s.modTag site tag fun t => if t.hosted && t.inval.isNone then t.pin s va else t

def accNeed (g : GuestAcc) : Right :=
  match g.right with
  | .read => .r
  | .write _ => .w

/-- R383: the access is at most 128 bytes within one line. -/
def accInLine (g : GuestAcc) : Bool :=
  decide (0 < g.size ∧ g.va.toNat % 128 + g.size ≤ 128) &&
  (match g.right with | .read => true | .write bs => decide (bs.length = g.size))

/-- A refused access: the guest gets an error response. -/
def State.guestRefuse (s : State) (g : GuestAcc) : State := { s with out := s.out ++ [.guestAnswer g.site g.tag false []] }

/-- The access is performed at a physical address. R421: a read that finds an uncorrectable error gets an error response
(DESIGN CHOICE, log entry 114). -/
def State.guestDo (s : State) (g : GuestAcc) (pa : Nat) : State :=
  match g.right with
  | .read =>
    match s.badAt pa g.size with
    | some b => (s.errTwice b).guestRefuse g
    | none => { s with out := s.out ++ [.guestAnswer g.site g.tag true (memBytes s.mem pa g.size)] }
  | .write bs => let s1 := s.land pa bs
      { s1 with out := s1.out ++ [.guestAnswer g.site g.tag true []] }

/-- R365, R383, R387: the task that posted a tag's packet takes the lease fault of a refused access, whether it holds a window or
waits with its work saved; the guest gets an error response, and is asked for the packets that it works on. -/
def State.guestDeny (s : State) (g : GuestAcc) (t : GTag) (reason : Nat) : State :=
  match t.owner with
  | .cmd k => (s.guestRefuse g).guestCause k (causeWord 0x21 reason 0)
      { ccInfo (s.guestPc k) g.va with size := min g.size 128, right := (accNeed g).code }
  | _ => s.guestRefuse g

/-- R383: a write to the tag's save area, by its physical address. -/
def savesTag (g : GuestAcc) : Bool :=
  let a := saveArea g.site g.tag
  accInLine g && accNeed g == .w && decide (a ≤ g.va.toNat ∧ g.va.toNat + g.size ≤ a + 65536)

/-- R384: no acknowledgement of the tag's invalidation came within 6,000 cycles: every access of the tag is refused. -/
def GTag.overdue (t : GTag) (now : Nat) : Bool := t.inval.any fun c => decide (c + 6000 < now)

/-- R380, R383: an access by a physical address: performed in the tag's save area while a packet is with the guest (R384: and no
invalidation is overdue), and refused otherwise, with reason 1 (DEDUCED, log entry 68). -/
def State.guestSave (s : State) (g : GuestAcc) (t : GTag) : State :=
  if !t.saved && !t.overdue s.cyc && t.owner != .none && savesTag g then s.guestDo g g.va.toNat else s.guestDeny g t 1

/-- R383, R384: a tag lets no access through: its packet is not started (its work stands saved and its invalidation has been
acknowledged), or the access carries a translation that an acknowledged invalidation took back. -/
def GTag.closed (t : GTag) (g : GuestAcc) : Bool := t.inval.isNone && (t.saved || (g.stale && t.acked))

/-- R383, R384: an access by a virtual address under a tag that has a packet, or whose invalidation is not yet
acknowledged. -/
def State.guestUse (s : State) (g : GuestAcc) (t : GTag) : State :=
  match if accInLine g && !t.closed g && !t.overdue s.cyc then guestPlace s t g.va.toNat g.size (accNeed g) else .error 1 with
  | .ok pa => s.guestDo g pa
  | .error reason => s.guestDeny g t reason

/-- GUEST_ACCESS (R383, R384): under a tag that holds nothing, or at an absent site, it is refused. -/
def State.guestAccess (s : State) (g : GuestAcc) : State :=
  let s1 := if g.save then s else s.pinGuest g.site g.tag g.va.toNat
  match SMap.get? (s1.guest g.site).tags g.tag with
  | some t =>
    if (s1.guest g.site).present && (t.owner != .none || t.inval.isSome) then
      (if g.save then s1.guestSave g t else s1.guestUse g t)
    else s1.guestRefuse g
  | none => s1.guestRefuse g

def execGuestAccess (g : GuestAcc) (s : State) : Result := .next (s.guestAccess g)

end Sys2Proof.Machine
end

