-- ==== Sys2Proof/Machine/MbSites.lean ====
section
/-! DEFINITION. The memory-bank sites (R188 to R201): the service cycle with its banks, window, miss queue and parked
records, shadow lines, and the operations. -/

namespace Sys2Proof.Machine

/-! ## Storage -/

def MbStore.none_ : MbStore := ⟨0, 0, 0, false, [], []⟩
def Run.mb (r : Run) (k : Nat) : MbStore := SMap.get MbStore.none_ r.region.mbs k
def Run.putMb (r : Run) (k : Nat) (m : MbStore) : Run :=
  { r with region := { r.region with mbs := SMap.ins r.region.mbs k m } }

/-- Two stores go to the same kind of place: scratchpad, memory, or the same window of another device. -/
def sameShadow : ShadowAt → ShadowAt → Bool
  | .scratch, .scratch => true
  | .phys, .phys => true
  | .peer w _, .peer v _ => w.dev == v.dev && w.win == v.win
  | _, _ => false

/-- R194: a byte through the shadow lines that cover it, oldest first. -/
def shadowByte (lines : List ShadowLine) (pl : ShadowAt) (addr : Nat) (b : Byte) : Byte :=
  lines.foldl (fun v l =>
    if sameShadow l.place pl && l.addr == addr / 32 * 32 then
      match SMap.get? l.bytes (addr % 32) with
      | some (x, m) => (v &&& ~~~m) ||| (x &&& m)
      | none => v
    else v) b

/-- R194: one byte into the shadow line of a round; a new line needs room. -/
def shadowPut (cap rnd : Nat) (pl : ShadowAt) (addr : Nat) (b : Byte) (lines : List ShadowLine) : Option (List ShadowLine) :=
  let base := addr / 32 * 32
  let mine (l : ShadowLine) : Bool := sameShadow l.place pl && l.addr == base && l.rnd == rnd
  if lines.any mine then
    some (lines.map fun l => if mine l then { l with bytes := SMap.ins l.bytes (addr % 32) (b, 0xFF#8) } else l)
  else if lines.length < cap then
    let place := match pl with | .peer w va => ShadowAt.peer w (va - addr % 32) | p => p
    some (lines ++ [⟨place, base, [(addr % 32, (b, 0xFF#8))], rnd⟩])
  else none

/-- R194: bytes into shadow lines; `none` when the area is full. -/
def shadowPuts (cap rnd : Nat) (pl : ShadowAt) : Nat → List Byte → List ShadowLine → Option (List ShadowLine)
  | _, [], lines => some lines
  | addr, b :: bs, lines =>
    match shadowPut cap rnd pl addr b lines with
    | none => none
    | some l =>
      let next := match pl with | .peer w va => ShadowAt.peer w (va + 1) | p => p
      shadowPuts cap rnd next (addr + 1) bs l

/-- R194: c words of scratchpad at an offset, newest value. -/
def MbStore.words (m : MbStore) (o c : Nat) : List W32 :=
  (List.range c).map fun i => BitVec.ofNat 32 (leNat ((List.range 4).map fun j =>
    let a := o + 4 * i + j
    shadowByte m.shadow .scratch a (SMap.get 0#8 m.scratch a)))

/-! ## Addresses (R189, R196 to R200) -/

/-- Where a request goes: scratchpad words, memory bytes through an extent, or nowhere (an index outside its tensor). -/
inductive MbTarget where
  | scratch (o c : Nat)
  | mem (e : Option Extent) (ea n align : Nat)
  | nowhere
deriving DecidableEq, Repr

/-- R198: an address in a logical extent. -/
def extTarget (r : Run) (ext off n align : Nat) : MbTarget :=
  match extentOf r.lease r.extn ext with
  | some e => .mem (some e) (e.base + off) n align
  | none => .mem none off n align

/-- R199: element (i, j) of the tensor of a TLD or TST. -/
def elemTarget (r : Run) (t : Tid) (i j : Nat) : MbTarget :=
  if tidDim t 0 ≤ i ∨ tidDim t 1 ≤ j then .nowhere
  else extTarget r (tidExt t) (rowOff t j 0 0 + (elemPos (tidFmt t) i).1) (contBytes (tidFmt t)) 1

/-- R199: the tensor of a TLD or TST, as it was when the stage was loaded. -/
def mbTid (r : Run) (x : SiteArgs) : Tid := SMap.get Tid.zero r.region.tids (x.m 23 18)

/-- R196 to R200: the target of a request. -/
def mbTarget (r : Run) (st : Site) (e : WinEnt) : MbTarget :=
  let x := st.args
  let a := (linkVal e.recs x.selA).toNat
  let b := (linkVal e.recs x.selB).toNat
  let c := mbC x
  match opSite st.word with
  | 1 => .scratch (a + x.m 18 0) c
  | 2 => .scratch (a + x.m 18 0) c
  | 3 => .scratch (a + b * 2 ^ x.m 21 19 + x.m 18 0) c
  | 4 => .scratch (a + x.m 18 0) 1
  | 5 => extTarget r (x.m 18 15) (a * 2 ^ x.m 21 19 + x.m 14 0) (4 * c) (4 * c)
  | 6 => extTarget r (x.m 18 15) (a * 2 ^ x.m 21 19 + x.m 14 0) (4 * c) (4 * c)
  | 7 => elemTarget r (mbTid r x) a (if x.selB = .none then 0 else b)
  | 8 => elemTarget r (mbTid r x) a (if x.selC = .none then 0 else (linkVal e.recs x.selC).toNat)
  | _ => let n := if x.m 23 23 = 1 then 8 else 4
    extTarget r (x.m 22 19) (a * 2 ^ x.m 18 16) n n

/-- R189: the banks of the words that n bytes at an address touch. -/
def wordBanks (a n : Nat) : List Nat := (List.range ((a + n - 1) / 4 - a / 4 + 1)).map fun i => (a / 4 + i) % 16

/-- R189: the banks an access uses. -/
def MbTarget.banks : MbTarget → List Nat
  | .scratch o c => wordBanks o (4 * c)
  | .mem _ ea n _ => wordBanks ea n
  | .nowhere => []

/-- R199: element numbers of a TLD. -/
def tldIndex (x : SiteArgs) (e : WinEnt) : Nat × Nat :=
  ((linkVal e.recs x.selA).toNat, if x.selB = .none then 0 else (linkVal e.recs x.selB).toNat)

/-- R78, R199: the extent and address of the scale byte that a TLD reads. -/
def tldScale (r : Run) (x : SiteArgs) (e : WinEnt) : Option (Extent × Nat) :=
  let t := mbTid r x
  let i := tldIndex x e
  if tidSfmt t ≠ 1 ∨ tidDim t 0 ≤ i.1 ∨ tidDim t 1 ≤ i.2 then none
  else (extentOf r.lease r.extn (tidSloc t)).map fun z => (z, z.base + scaleOff t i.1 i.2)

/-- R189, R199: the banks of a request, those of a TLD's scale byte among them. -/
def mbBanks (r : Run) (st : Site) (e : WinEnt) : List Nat :=
  let own := (mbTarget r st e).banks
  if opSite st.word = 7 then
    match tldScale r st.args e with
    | some z => own ++ (wordBanks z.2 1).filter fun b => !own.contains b
    | none => own
  else own

/-! ## The service cycle (R191) -/

/-- R191: the requests that find their banks free, in order, those that do not, and the banks in use. -/
def grantBanks {α : Type} (banks : α → List Nat) : List Nat → List α → List α × List α × List Nat
  | busy, [] => ([], [], busy)
  | busy, e :: es =>
    let b := banks e
    if b.any busy.contains then
      let r := grantBanks banks busy es
      (r.1, e :: r.2.1, r.2.2)
    else
      let r := grantBanks banks (busy ++ b) es
      (e :: r.1, r.2)

/-- R191: output lanes for the records that served window entries leave: the original lane where that is a bubble, else
the lowest free one; an entry that finds none stays. -/
def placeWin : List Nat → List (WinEnt × Rec) → List (Nat × Rec) × List (WinEnt × Rec)
  | _, [] => ([], [])
  | used, e :: es =>
    let lane := if used.contains e.1.lane then (List.range 16).find? fun l => !used.contains l else some e.1.lane
    match lane with
    | some l =>
      let r := placeWin (l :: used) es
      ((l, e.2) :: r.1, r.2)
    | none =>
      let r := placeWin used es
      (r.1, e :: r.2)

/-- R191: lanes that were not served go to the window while it has room, and leave on o3 otherwise. -/
def intoWindow : List WinEnt → List WinEnt → List WinEnt × List WinEnt
  | win, [] => (win, [])
  | win, e :: es =>
    if win.length < 32 then intoWindow (win ++ [e]) es
    else
      let r := intoWindow win es
      (r.1, e :: r.2)

/-- R191: lanes that leave on o3 unperformed, each in its own lane. -/
def lateLanes (l : List WinEnt) : List (Nat × Rec) := l.filterMap fun e => (startRec e.recs).map fun q => (e.lane, q)

/-- R200: a woken record with the value in its fields. -/
def ParkEnt.woken (p : ParkEnt) : Option Rec :=
  match p.val with
  | some v =>
    let l := setField p.rec_.flds p.fld (BitVec.setWidth 32 v)
    some { p.rec_ with flds := if p.size8 then setField l (p.fld + 1) (BitVec.setWidth 32 (v >>> 32)) else l }
  | none => none

/-- R191, R193, R200: one service cycle of an MB. Where it grants no request, the lanes that must wait go to the window at
once. -/
def State.serve (s : State) (h : W64) (r : Run) (st : Site) : State :=
  let go := st.joined || r.quietFor st.key
  let t := if go then st.takeHeads else ([], st)
  let lanes : List WinEnt := if t.1.isEmpty then [] else
    (List.range 16).filterMap fun l => (joinLane st.used t.1 l).map fun recs => ⟨l, recs⟩
  let gone := (lanes.filter fun e => (absentIn e.recs).isSome).filterMap fun e => (startRec e.recs).map fun q => (e.lane, q)
  let new := lanes.filter fun e => (absentIn e.recs).isNone
  let gw := grantBanks (mbBanks r st) [] st.core.win
  let gn := grantBanks (mbBanks r st) gw.2.2 new
  let woken := st.core.parked.filter fun p => p.val.isSome
  let reqs := gw.1.map (fun e => (1, e)) ++ gn.1.map fun e => (0, e)
  let iw := if reqs.isEmpty then intoWindow st.core.win gn.2.1 else (st.core.win, [])
  let late := gone ++ lateLanes iw.2
  let st1 := { t.2 with
    core := { st.core with win := iw.1, parked := st.core.parked.filter fun p => p.val.isNone }
    mb := if reqs.isEmpty then none else some ⟨reqs, gn.2.1⟩ }
  ((s.putSite h st1).emitPacked h st1 3 (woken.filterMap ParkEnt.woken)).emitPlaced h st1 3 late

/-- MB_SERVICE_CYCLE (R191). -/
def execMbServiceCycle (at_ : SiteRef) (s : State) : Result :=
  withEvent (.mbServiceCycle at_) at_ s fun r st s => s.serve at_.task r st

/-- R188, R192: a line has a place in an L1 partition that has room for `room` of them: it is there already, the partition is
not full, or some line of it is not held. -/
def State.l1Fits (s : State) (h : W64) (k room line : Nat) : Bool :=
  let there := s.l1.filter fun c => decide (c.task = h ∧ c.mb = k)
  decide (there.length < room) || there.any fun c => decide (c.line = line) || c.wait.isEmpty

/-- R153, R188, R192: a line enters an L1 partition: where that is full, the line that came first among those that nothing
holds gives way (DESIGN CHOICE, log entry 33). -/
def State.l1Put (s : State) (h : W64) (k room line : Nat) (wait : List Rec) : State :=
  let mine (c : L1Copy) : Bool := decide (c.task = h ∧ c.mb = k)
  let there := s.l1.filter mine
  let has := there.any fun c => decide (c.line = line)
  let out : Option L1Copy := if has || decide (there.length < room) then none else there.find? fun c => c.wait.isEmpty
  let l := s.l1.filter fun c => !out.any fun o => decide (o = c)
  { s with l1 := if has then l.map fun c => if mine c && decide (c.line = line) then { c with wait := c.wait ++ wait } else c
                 else l ++ [⟨h, k, line, wait⟩] }

/-- R192: the records that hold a line, after one of them has been presented again: the record itself, or, where its way back
has changed its fields, the first with its hidden tag (DESIGN CHOICE, log entry 33). -/
def eraseSeen (wait : List Rec) (q : Rec) : List Rec :=
  if wait.contains q then wait.erase q else wait.eraseP fun p => p.tag == q.tag

/-- R192: a record that asked for lines has been presented again. -/
def State.l1Seen (s : State) (h : W64) (k : Nat) (lines : List Nat) (q : Rec) : State :=
  { s with l1 := s.l1.map fun c =>
      if decide (c.task = h ∧ c.mb = k) && lines.contains c.line then { c with wait := eraseSeen c.wait q } else c }

/-- L1_LINE_ARRIVAL (R192): the line is held, and the records that asked for it leave unchanged on o3, in queue
order. A line that finds the partition full of held lines waits for one of them. -/
def execL1LineArrival (at_ : SiteRef) (line : Nat) (s : State) : Result :=
  match withSite at_ s fun r st s =>
      let mine := st.core.missq.filter fun q => q.line == line
      if !st.isMb || mine.isEmpty then s
      else if !s.l1Fits at_.task st.key (r.mb st.key).room line then s.push (.l1LineArrival at_ line)
      else
        let st1 := { st with core := { st.core with missq := st.core.missq.filter fun q => q.line != line } }
        let s1 := (s.modRun at_.task fun q => q.putSite st1).l1Put at_.task st.key (r.mb st.key).room line
          (mine.map (·.rec_))
        s1.emitPacked at_.task st1 3 (mine.map (·.rec_)) with
  | .next t => .next (t.wakeSite at_.task (siteKey at_.row at_.col))
  | r => r

/-! ## Performing requests -/

/-- What becomes of a served request: its record leaves, leaves on o3 unperformed, or waits inside the MB. -/
inductive MbOut where
  | done (q : Rec)
  | late (q : Rec)
  | held
deriving DecidableEq, Repr

/-- The outcome of a request: a fault has been raised, or the request's fate. -/
abbrev MbRes := Except State (MbOut × State)

/-- R190, R97: the output record with words in fields from the destination on. -/
def withWords (x : SiteArgs) (q : Rec) (ws : List W32) : Rec :=
  { q with flds := (List.range ws.length).foldl (fun l i => setField l (x.dstN - 8 + i) (ws.getD i 0#32)) q.flds }

/-- The requests of a service cycle take effect in order (R195). -/
def mbRun (f : Nat × WinEnt → Rec → State → MbRes) :
    List (Nat × WinEnt) → State → Except State (List ((Nat × WinEnt) × MbOut) × State)
  | [], s => .ok ([], s)
  | e :: es, s =>
    match startRec e.2.recs with
    | none => mbRun f es s
    | some q =>
      match f e q s with
      | .error t => .error t
      | .ok (o, s1) =>
        match mbRun f es s1 with
        | .error t => .error t
        | .ok (l, s2) => .ok ((e, o) :: l, s2)

/-- R191: the output records of a service cycle in their lanes, and the window entries that found no lane. -/
def mbPlaces (l : List ((Nat × WinEnt) × MbOut)) : List (Nat × Rec) × List WinEnt :=
  let done := l.filterMap fun x => match x.2 with | .done q => some (x.1, q) | _ => none
  let new := (done.filter fun x => x.1.1 == 0).map fun x => (x.1.2.lane, x.2)
  let win := placeWin (new.map (·.1)) ((done.filter fun x => x.1.1 == 1).map fun x => (x.1.2, x.2))
  (new ++ win.1, win.2.map (·.1))

/-- R191: the records that leave on o3: new lanes that found the window full in their own lanes, the requests that leave
unperformed beside them. -/
def mbLate (own : List (Nat × Rec)) (l : List ((Nat × WinEnt) × MbOut)) : List (Nat × Rec) :=
  own ++ (placeWin (own.map (·.1)) (l.filterMap fun x => match x.2 with | .late q => some (x.1.2, q) | _ => none)).1

/-- R191: the requests that count as served: a window entry that finds no lane stays in the window, unserved. -/
def mbServed (f : Nat × WinEnt → Rec → State → MbRes) (s : State) :
    Nat → List (Nat × WinEnt) → List (Nat × WinEnt)
  | 0, reqs => reqs
  | fuel + 1, reqs =>
    match mbRun f reqs s with
    | .error _ => reqs
    | .ok (l, _) =>
      let out := (mbPlaces l).2
      if out.isEmpty then reqs else mbServed f s fuel (reqs.filter fun e => !(e.1 == 1 && out.contains e.2))

/-- R190, R191: the output bundle goes to every routed link among o0 to o2, what is late to o3. A service cycle that
serves nothing emits no bundle. -/
def State.emitMb (s : State) (h : W64) (r : Run) (st : Site) (d l : List (Nat × Rec)) : State :=
  (((r.outs st).filter fun o => decide (o < 3)).foldl (fun t o => t.emitPlaced h st o d) s).emitPlaced h st 3 l

/-- R191: the window after a service cycle: without the entries that were served, in the order of their arrival, and with the
new lanes that wait, as far as it has room; and the lanes that find none. -/
def windowAfter (win : List WinEnt) (served : List (Nat × WinEnt)) (wait : List WinEnt) : List WinEnt × List WinEnt :=
  intoWindow ((served.filter fun e => e.1 == 1).foldl (fun l e => l.erase e.2) win) wait

/-- The meaning of an MB word on the requests of a service cycle. -/
def mbWord (i : Instr) (a : SiteRef) (s : State) (f : Run → Site → Nat × WinEnt → Rec → State → MbRes) : Result :=
  withEvent i a s fun r st s =>
    let w := st.mb.getD ⟨[], []⟩
    let st1 := { st with mb := none }
    let served := mbServed (f r st1) (s.putSite a.task st1) w.reqs.length w.reqs
    let iw := windowAfter st.core.win served w.wait
    let st2 := { st1 with core := { st1.core with win := iw.1 } }
    match mbRun (f r st2) served (s.putSite a.task st2) with
    | .error t => t
    | .ok (l, t) => t.emitMb a.task r st2 (mbPlaces l).1 (mbLate (lateLanes iw.2) l)

/-- The MB storage as earlier requests left it. -/
def State.mbOf (s : State) (h : W64) (k : Nat) : MbStore :=
  match s.run? h with
  | some r => r.mb k
  | none => MbStore.none_

/-- R196, R201: the checks of a scratchpad access. -/
def withScratch (h : W64) (r : Run) (st : Site) (e : Nat × WinEnt) (s : State) (k : Nat → Nat → MbRes) : MbRes :=
  match mbTarget r st e.2 with
  | .scratch o c =>
    let fault (n : Nat) : MbRes := .error (s.regionFault h 0x12 n (siteInfo st e.2.lane (BitVec.ofNat 64 o) (o % 2 ^ 32)))
    if (r.mb st.key).size < o + 4 * c then fault 1 else if o % (4 * c) ≠ 0 then fault 2 else k o c
  | _ => .ok (.held, s)

/-- R194: a store of an MB enters the shadow area, or leaves on o3 and asks for an edge. -/
def storeShadow (h : W64) (st : Site) (pl : ShadowAt) (addr : Nat) (bs : List Byte) (done late : Rec) (s : State) : MbRes :=
  let m := s.mbOf h st.key
  match shadowPuts m.cap st.rnd pl addr bs m.shadow with
  | some l => .ok (.done done, s.modRun h fun r => r.putMb st.key { m with shadow := l })
  | none => .ok (.late late, s.wantEdge h)

/-- SPLD and SPLDI (R196). -/
def spLoad (h : W64) (r : Run) (st : Site) (e : Nat × WinEnt) (q : Rec) (s : State) : MbRes :=
  withScratch h r st e s fun o c => .ok (.done (withWords st.args q ((s.mbOf h st.key).words o c)), s)

/-- R196: the words a store takes: source B's field and the c − 1 after it on the same input. -/
def storeWords (x : SiteArgs) (e : WinEnt) (c : Nat) : List Byte :=
  match x.selB with
  | .link i f => (List.range c).flatMap fun j => leBytes 4 (fieldOf ((e.recs[i]?).join) (f + j)).toNat
  | _ => []

/-- SPLD (R196). -/
def execSpld (at_ : SiteRef) (x : SiteArgs) (s : State) : Result := mbWord (.spld at_ x) at_ s (spLoad at_.task)

/-- SPLDI (R196). -/
def execSpldi (at_ : SiteRef) (x : SiteArgs) (s : State) : Result := mbWord (.spldi at_ x) at_ s (spLoad at_.task)

/-- SPST (R196). -/
def execSpst (at_ : SiteRef) (x : SiteArgs) (s : State) : Result :=
  mbWord (.spst at_ x) at_ s fun r st e q s =>
    withScratch at_.task r st e s fun o c => storeShadow at_.task st .scratch o (storeWords x e.2 c) q q s

/-- R197: the new value of SPATOM. FZ does not apply. -/
def spatomNew (op ty : Nat) (old b c : W32) : W32 :=
  let f (w : W32) : Num := f32Of false w
  match op with
  | 0 => if ty = 8 then BitVec.ofNat 32 (roundN 8 0 false false (addNum 0 (f old) (f b))) else old + b
  | 1 => if ty = 8 then BitVec.ofNat 32 (roundN 8 0 false false (minMax false (f old) (f b)))
    else BitVec.ofInt 32 (min (if ty = 2 then old.toInt else old.toNat) (if ty = 2 then b.toInt else b.toNat))
  | 2 => if ty = 8 then BitVec.ofNat 32 (roundN 8 0 false false (minMax true (f old) (f b)))
    else BitVec.ofInt 32 (max (if ty = 2 then old.toInt else old.toNat) (if ty = 2 then b.toInt else b.toNat))
  | 3 => old &&& b
  | 4 => old ||| b
  | 5 => old ^^^ b
  | 6 => b
  | _ => if old = c then b else old

/-- SPATOM (R197). -/
def execSpatom (at_ : SiteRef) (x : SiteArgs) (s : State) : Result :=
  mbWord (.spatom at_ x) at_ s fun r st e q s =>
    withScratch at_.task r st e s fun o _ =>
      let old := ((s.mbOf at_.task st.key).words o 1).getD 0 0#32
      let new := spatomNew (x.m 23 20) x.tyN old (linkVal e.2.recs x.selB) (linkVal e.2.recs x.selC)
      storeShadow at_.task st .scratch o (leBytes 4 new.toNat) (withWords x q [old]) q s

/-- R198, R201, R363: the checks of a memory access: an extent number the task does not have, alignment, the lease. -/
def withMem (h : W64) (r : Run) (st : Site) (e : Nat × WinEnt) (right : Right) (s : State)
    (k : Extent → Nat → Nat → MbRes) (nowhere : MbRes) : MbRes :=
  let info := siteInfo st e.2.lane 0#64 0
  match mbTarget r st e.2 with
  | .mem none ea n _ => .error (s.regionAcc h info (.lease ea n right.code 1))
  | .mem (some x) ea n align =>
    if ea % align ≠ 0 then .error (s.regionFault h 0x13 0 { info with tval := BitVec.ofNat 64 ea })
    else match covered [x] ea n right with
      | .error y => .error (s.regionAcc h info (.lease ea n right.code y))
      | .ok x => k x ea n
  | .nowhere => nowhere
  | .scratch _ _ => .ok (.held, s)

/-- R192, R372: the lines of n bytes of an extent; another device's memory is never cached. -/
def l1Lines (x : Extent) (va n : Nat) : List Nat :=
  ([va, va + n - 1].filterMap fun a => match x.place a with | .phys pa _ => some (pa / 128) | .peer _ _ => none).eraseDups

/-- R192: an access that needs lines: where all of them are in the partition it goes on; else the record waits in the
miss queue for the first that is not, or leaves on o3 when the queue is full. -/
def withLines (h : W64) (st : Site) (lines : List Nat) (q : Rec) (s : State) (k : State → MbRes) : MbRes :=
  match lines.find? fun n => !s.l1.any fun c => decide (c.task = h ∧ c.mb = st.key ∧ c.line = n) with
  | none => k (s.l1Seen h st.key lines q)
  | some line =>
    match s.run? h with
    | none => .ok (.held, s)
    | some r =>
      let site := (r.site? st.key).getD st
      if site.core.missq.length < 64 then
        let site1 := { site with core := { site.core with missq := site.core.missq ++ [⟨q, line⟩] } }
        .ok (.held, (s.putSite h site1).pushNew (.l1LineArrival (st.at h) line))
      else .ok (.late q, s)

/-- A failing access of a site. -/
def memRes {α : Type} (h : W64) (st : Site) (e : Nat × WinEnt) (r : Except AccErr α × State)
    (k : α → State → MbRes) : MbRes :=
  match r with
  | (.error x, t) => .error (t.regionAcc h (siteInfo st e.2.lane 0#64 0) x)
  | (.ok v, t) => k v t

/-- R194: bytes of memory seen through the MB's own shadow lines. -/
def throughShadow (m : MbStore) (x : Extent) (ea : Nat) (bs : List Byte) : List Byte :=
  (List.range bs.length).map fun i =>
    match x.place (ea + i) with
    | .phys pa _ => shadowByte m.shadow .phys pa (bs.getD i 0#8)
    | .peer w off => shadowByte m.shadow (.peer w 0) off (bs.getD i 0#8)

/-- L1LD (R198, R192). -/
def execL1ld (at_ : SiteRef) (x : SiteArgs) (s : State) : Result :=
  mbWord (.l1ld at_ x) at_ s fun r st e q s =>
    withMem at_.task r st e .r s (fun y ea n => withLines at_.task st (l1Lines y ea n) q s fun s =>
      memRes at_.task st e (readVa s [y] ea n) fun bs t =>
        let l := throughShadow (t.mbOf at_.task st.key) y ea bs
        .ok (.done (withWords x q ((List.range (n / 4)).map fun i => BitVec.ofNat 32 (leNat ((l.drop (4 * i)).take 4)))), t))
      (.ok (.held, s))

/-- R194, R199: a store to memory by an MB. -/
def storeMem (h : W64) (st : Site) (y : Extent) (ea : Nat) (bs : List Byte) (q : Rec) (s : State) : MbRes :=
  match y.place ea with
  | .phys pa _ => storeShadow h st .phys pa bs q q s
  | .peer w off => storeShadow h st (.peer w ea) off bs q q s

/-- L1ST (R198, R194). -/
def execL1st (at_ : SiteRef) (x : SiteArgs) (s : State) : Result :=
  mbWord (.l1st at_ x) at_ s fun r st e q s =>
    withMem at_.task r st e .w s (fun y ea _ => storeMem at_.task st y ea (storeWords x e.2 (mbC x)) q s) (.ok (.held, s))

/-- R199, R363: the lease check of the scale byte that a TLD reads. -/
def tldScaleFault (r : Run) (x : SiteArgs) (e : WinEnt) : Option AccErr :=
  let t := mbTid r x
  let i := tldIndex x e
  if tidSfmt t ≠ 1 ∨ tidDim t 0 ≤ i.1 ∨ tidDim t 1 ≤ i.2 then none
  else match extentOf r.lease r.extn (tidSloc t) with
    | none => some (.lease (scaleOff t i.1 i.2) 1 4 1)
    | some z =>
      match covered [z] (z.base + scaleOff t i.1 i.2) 1 .r with
      | .error y => some (.lease (z.base + scaleOff t i.1 i.2) 1 4 y)
      | .ok _ => none

/-- TLD (R199): the lease checks of the element and of its scale byte, then the lines of both. -/
def execTld (at_ : SiteRef) (x : SiteArgs) (s : State) : Result :=
  mbWord (.tld at_ x) at_ s fun r st e q s =>
    let t := mbTid r x
    let i := tldIndex x e.2
    let scale := match tldScale r x e.2 with | some z => l1Lines z.1 z.2 1 | none => []
    withMem at_.task r st e .r s (fun y ea n =>
      match tldScaleFault r x e.2 with
      | some z => .error (s.regionAcc at_.task (siteInfo st e.2.lane 0#64 0) z)
      | none => withLines at_.task st (l1Lines y ea n ++ scale) q s fun s =>
          memRes at_.task st e (readValue s r.lease r.extn t false i.1 i.2) fun v u =>
            .ok (.done (withWords x q [BitVec.ofNat 32 (convertG (tidFmt t) x.tyN x.rndN false false 0#32 v).1]), u))
      (.ok (.done (withWords x q [0#32]), s))

/-- TST (R199). -/
def execTst (at_ : SiteRef) (x : SiteArgs) (s : State) : Result :=
  mbWord (.tst at_ x) at_ s fun r st e q s =>
    let t := mbTid r x
    let v := decodeNum x.tyN false (linkVal e.2.recs x.selB).toNat
    let code := (convertG x.tyN (tidFmt t) x.rndN (x.m 17 17 == 1) false 0#32 v).1
    withMem at_.task r st e .w s (fun y ea n => storeMem at_.task st y ea (leBytes n code) q s) (.ok (.done q, s))

/-- R200: a full future word goes into the record. -/
def parkValue (x : SiteArgs) (q : Rec) (size8 : Bool) (v : W64) : Rec :=
  withWords x q (if size8 then [v.setWidth 32, (v >>> 32).setWidth 32] else [v.setWidth 32])

/-- R200, R246: a record parks in the vigil table of its word's home. -/
def parkRec (h : W64) (st : Site) (x : SiteArgs) (va : Nat) (size8 : Bool) (q : Rec) (s : State) : MbRes :=
  match s.run? h with
  | none => .ok (.held, s)
  | some r =>
    let site := (r.site? st.key).getD st
    let p : ParkEnt := ⟨s.free, q, va, size8, x.dstN - 8, none⟩
    .ok (.held, (s.fresh.putSite h { site with core := { site.core with parked := site.core.parked ++ [p] } }).armPark h r
      st.key p)

/-- R200: a full word goes into the record; an empty one parks it. -/
def parkAt (h : W64) (st : Site) (x : SiteArgs) (va pa : Nat) (size8 : Bool) (q : Rec) (s : State) : MbRes :=
  let n := if size8 then 8 else 4
  let w := leNat (memBytes s.mem pa n)
  if w ≠ 2 ^ (8 * n) - 1 then .ok (.done (parkValue x q size8 (BitVec.ofNat 64 w)), s) else parkRec h st x va size8 q s

/-- PARK (R200). The word of another device is asked for there, and the record waits for its answer (R375; log entry
1). -/
def execPark (at_ : SiteRef) (x : SiteArgs) (s : State) : Result :=
  mbWord (.park at_ x) at_ s fun r st e q s =>
    let size8 := x.m 23 23 == 1
    withMem at_.task r st e .r s (fun y ea n =>
      match badIn s y ea n, y.place ea with
      | some pa, _ => .error (s.regionAcc at_.task (siteInfo st e.2.lane 0#64 0) (.memory pa n 4))
      | none, .phys pa _ => parkAt at_.task st x ea pa size8 q s
      | none, .peer w off =>
        if isSelf s w then
          match ingress s s.dev.devno.toNat w.win off n true false false w.key with
          | .ok pa => parkAt at_.task st x ea pa size8 q s
          | .error z => .error (s.regionAcc at_.task (siteInfo st e.2.lane 0#64 0) (.import ea n 4 z))
        else parkRec at_.task st x ea size8 q s)
      (.ok (.held, s))

end Sys2Proof.Machine
end

