-- ==== Sys2Proof/Machine/Queues.lean ====
section
/-! DEFINITION. The front end: doorbells, rings and laps, packets, their effects, signals, barriers, abort and queue
error, service among queues (R311 to R325). -/

namespace Sys2Proof.Machine

/-! ## Queues -/

/-- R312: the ring size. -/
def Queue.size (q : Queue) : Nat := 2 ^ q.log2n

def State.putQueue (s : State) (n : Nat) (q : Queue) : State := { s with queues := SMap.ins s.queues n q }

/-- R449: doorbells count once the device is ready and the mailbox addresses are set. -/
def State.bellsOn (s : State) : Bool := decide (s.dev.st = 2) && s.dev.mbcmd != 0#64 && s.dev.mbidx != 0#64

/-- R324: the queue error: nothing more starts, and the EP is told. -/
def State.queueError (s : State) (n : Nat) (q : Queue) : State :=
  (s.putQueue n { q with st := .error }).postEvent (mbEvent 0x80 n q.rd 0#64 0#64 0#64)

/-- DOORBELL_WRITE (R311, R315, R324). -/
def State.ringBell (s : State) (n : Nat) (v : W64) : State :=
  match SMap.get? s.queues n with
  | none => s
  | some q =>
    if !s.bellsOn || q.st == .error || q.st == .disabled || decide (v.toNat < q.wr.toNat) then s
    else if v.toNat % 64 ≠ 0 ∨ q.rd.toNat + q.size < v.toNat then s.queueError n q
    else (s.putQueue n { q with wr := v, stale := false }).push (.packetFetch n)

def execDoorbellWrite (q : Nat) (v : W64) (s : State) : Result := .next (s.ringBell q v)

/-! ## Packets (R317, R318) -/

/-- Word i of a packet. -/
def Packet.w (p : Packet) (i : Nat) : W64 := tw p.words i
def Packet.type (p : Packet) : Nat := bits (p.w 0) 47 44
/-- R317: the barrier bit and the abort bit. -/
def Packet.b (p : Packet) : Bool := bit (p.w 0) 43
def Packet.a (p : Packet) : Bool := bit (p.w 0) 42
def Packet.units (p : Packet) : Nat := bits (p.w 0) 37 32 + 1
/-- R317: the completion signal address. -/
def Packet.sig (p : Packet) : Nat := bits (p.w 1) 56 3 * 8

/-- R317, R318: the bits that a type defines in body word i. -/
def bodyMask (p : Packet) (i : Nat) : W64 :=
  match p.type, i with
  | 1, 2 => 0x1FFFFFFFFFFFFC0#64
  | 1, 3 => BitVec.allOnes 64
  | 1, 4 => 7#64
  | 1, _ => if p.w 2 = 0#64 ∧ 8 ≤ i ∧ i < 32 then BitVec.allOnes 64 else 0#64
  | 2, 2 | 2, 3 | 2, 4 => BitVec.allOnes 64
  | 2, 5 => 7#64
  | 3, _ => if i < 8 then BitVec.allOnes 64 else 0#64
  | 4, 2 | 4, 4 => BitVec.allOnes 64
  | 4, 3 => 15#64
  | 5, 2 => 1#64
  | 5, 8 => 0xFFFF0000FFFFFFFF#64
  | 5, _ => if 8 ≤ i ∧ i < 16 then BitVec.allOnes 64 else 0#64
  | _, _ => 0#64

/-- R318: the least LEN of a type. -/
def minLen (p : Packet) : Nat :=
  match p.type with
  | 1 => if p.w 2 = 0#64 then 3 else 0
  | 5 => 1
  | _ => 0

/-- R320: the packet's form is right, as far as its words alone say. -/
def Packet.formOk (p : Packet) : Bool :=
  decide (p.type ≤ 5) && decide (bits (p.w 0) 41 38 = 0 ∧ bits (p.w 0) 31 0 = 0) &&
  decide (bits (p.w 1) 63 57 = 0 ∧ bits (p.w 1) 2 0 = 0) && decide (minLen p + 1 ≤ p.units) &&
  (List.range (8 * p.units)).all fun i => decide (i < 2) || (p.w i &&& ~~~(bodyMask p i)) == 0#64

/-- R320, R356: the completion signal's word has a place with both rights. A LAUNCH into a context that is not valid is
no packet error on that ground: its task ends in Leasing. -/
def sigOk (s : State) (ctx : Nat) (p : Packet) : Bool :=
  p.sig == 0 || (ctxWord s (ctxEnt s ctx) p.sig).isSome || (p.type == 1 && !(ctxEnt s ctx).valid)

/-! ## Starting (R322, R325) -/

/-- R319, R268: the die of a LAUNCH: the given one, or the die with the most free records, the lower of equals. -/
def launchDie (s : State) (p : Packet) : Nat :=
  if bit (p.w 4) 2 then bits (p.w 4) 1 0
  else [1, 2, 3].foldl (fun b d => if usedRecords s d < usedRecords s b then d else b) 0

/-- R388: packets from hosts that a site works on. -/
def hostGuests (s : State) (site : Nat) : Nat :=
  ((s.guest site).tags.filter fun t => match t.2.owner with | .pkt _ => true | _ => false).length

/-- How many packets of all queues have started, have not ended, run as no task yet, and pass a test. -/
def starting (s : State) (f : Packet → Bool) : Nat :=
  (s.queues.flatMap fun q => q.2.packets.filter fun p => p.started && p.ended.isNone && p.task == 0#64 && f p).length

/-- R388: a guest slot of a site that no reservation holds in the current slot and no host packet uses is left beside n
more. -/
def guestSlotFree (s : State) (site n : Nat) : Bool :=
  decide (heldOf (s.alm.filter fun e => e.covers s.slot) (.guest site) + hostGuests s site + n < 8)

/-- R380: more than n context tags of a site are free. -/
def tagsFree (s : State) (site n : Nat) : Bool := decide ((s.guest site).tags.length + n < 256)

/-- R319, R361, R371: a page of a range is not resident. -/
def pagedIn (s : State) (ctx va n : Nat) : Bool :=
  match SMap.get? s.ctxs ctx with
  | none => false
  | some c => (List.range (n / 4096 + 2)).any fun i =>
      let a := va / 4096 * 4096 + 4096 * i
      decide (a < va + n ∧ a < 2 ^ 56) && pageAt s.mem c.root a == .paged

/-- What holds a packet whose form is right: a full die (R268), a page that is not resident (R319), no free guest slot
or tag (R388). -/
def Packet.held (s : State) (ctx : Nat) (p : Packet) : Bool :=
  p.formOk &&
  match p.type with
  | 1 => decide (recordsPerDie ≤ usedRecords s (launchDie s p) + starting s fun x => x.type == 1)
  | 2 => pagedIn s ctx (p.w 2).toNat (p.w 4).toNat || pagedIn s ctx (p.w 3).toNat (p.w 4).toNat
  | 5 => let site := bits (p.w 2) 0 0
      let n := starting s fun x => x.type == 5 && bits (x.w 2) 0 0 == site
      guestsWired s && (!(s.guest site).present || !guestSlotFree s site n || !tagsFree s site n)
  | _ => false

/-- R268, R322: a LAUNCH or GUEST that has started and may still find its die or its site full. -/
def Packet.unsettled (p : Packet) : Bool := p.started && p.ended.isNone && ((p.type == 1 && p.task == 0#64) || p.type == 5)

/-- R322, R353: the packet that may start next: the first not started, when no B packet before it is open, fewer than 32
are, none may still go back to waiting, and nothing holds it; in an aborted queue nothing holds a packet from retiring. -/
def startable (s : State) (q : Queue) : Option Packet :=
  let busy := q.packets.filter (·.started)
  match q.st, q.packets.find? fun p => !p.started with
  | .aborted, r => r
  | .active, some p => if busy.any (fun x => x.b || x.unsettled) || decide (32 ≤ busy.length) || p.held s q.ctx then none else some p
  | _, _ => none

/-- The instruction that runs a packet. -/
def pktInstr (r : PktRef) (p : Packet) : Option Instr :=
  match p.type with
  | 0 => some (.pktNop r)
  | 1 => some (.pktLaunch r)
  | 2 => some (.pktCopy r)
  | 3 => some (.pktBarrier r)
  | 4 => some (.pktSignal r)
  | 5 => some (.pktGuest r)
  | _ => none

/-- R323: start a packet; in an aborted queue it retires unexecuted. A reserved type is a packet error (R320). -/
def State.startPacket (s : State) (n : Nat) (q : Queue) (p : Packet) : State :=
  let r : PktRef := ⟨n, p.idx⟩
  let s1 := s.modPacket r fun x => { x with started := true }
  if q.st == .aborted then (s1.modPacket r fun x => { x with ended := some false }).push (.packetComplete r)
  else match pktInstr r p with
    | some i => s1.push i
    | none => (s1.modPacket r fun x => { x with ended := some false }).push (.packetComplete r)

/-- R325: the turn of one queue: packets start while its credit covers their length; the credit is cleared when no
packet of it is startable any more. -/
def State.serveQueue (s : State) (n : Nat) : Nat → State
  | 0 => s
  | fuel + 1 =>
    match SMap.get? s.queues n with
    | none => s
    | some q =>
      match startable s q with
      | none => s.putQueue n { q with credit := 0 }
      | some p =>
        if 64 * p.units ≤ q.credit then
          ((s.putQueue n { q with credit := q.credit - 64 * p.units }).startPacket n q p).serveQueue n fuel
        else s

/-- R325: one round: every queue with a startable packet gains credit and starts what it covers. -/
def State.feRound (s : State) : State :=
  s.queues.foldl (fun t e =>
    match SMap.get? t.queues e.1 with
    | none => t
    | some q => if (startable t q).isSome then
        (t.putQueue e.1 { q with credit := q.credit + 64 * q.weight }).serveQueue e.1 (q.packets.length + 1) else t) s

/-- R325: rounds until nothing more can start. -/
def State.feServe (s : State) : Nat → State
  | 0 => s
  | fuel + 1 => if s.queues.any fun e => (startable s e.2).isSome then s.feRound.feServe fuel else s

/-! ## Fetching (R313 to R315, R324) -/

/-- The pinned extent of a queue's ring, and of its RDPTR page. -/
def Queue.ring (q : Queue) : Option Extent := q.pins[0]?
def Queue.rdPage (q : Queue) : Option Extent := q.pins[1]?

/-- R418, R421: a sector with an uncorrectable error in the unit at a byte index, met on both attempts. -/
def unitBad (s : State) (q : Queue) (i : Nat) : Option Nat := q.ring.bind fun e => badIn s e (q.base + i % q.size) 64

/-- R162, R313: the eight words of the unit at a byte index, which the page must let be read. -/
def readUnit (s : State) (q : Queue) (i : Nat) : Option (List W64) :=
  match q.ring with
  | none => none
  | some e =>
    let va := q.base + i % q.size
    match e.place va with
    | .phys pa _ => if e.grants va 64 .r then some (memWords s.mem pa 8) else none
    | .peer _ _ => none

/-- The words of n units from a byte index on. -/
def readUnits (s : State) (q : Queue) (i : Nat) : Nat → Option (List W64)
  | 0 => some []
  | n + 1 =>
    match readUnit s q i, readUnits s q (i + 64) n with
    | some a, some b => some (a ++ b)
    | _, _ => none

/-- R314: the lap mark that makes the unit at an index valid. -/
def lapOf (q : Queue) (i : Nat) : Nat := i / q.size % 65535 + 1

/-- R315: RD is written to RDPTR. -/
def State.writeRd (s : State) (q : Queue) : State :=
  match q.rdPage with
  | none => s
  | some e =>
    match e.place q.rdptr with
    | .phys pa _ => s.land pa (leBytes 8 q.rd.toNat)
    | .peer _ _ => s

/-- R315, R324: fetch the packet at RD, if a valid one is there. A unit with a wrong lap is not read again before the
next doorbell or retry. -/
def State.fetchPacket (s : State) (n : Nat) : State :=
  match SMap.get? s.queues n with
  | none => s
  | some q =>
    let rd := q.rd.toNat
    if (q.st != .active && q.st != .aborted) || q.wr.toNat ≤ rd || q.stale then s
    else match unitBad s q rd, readUnit s q rd with
      | some pa, _ => (s.errTwice pa).queueError n q
      | none, none => s.queueError n q
      | none, some ws =>
        if bits (tw ws 0) 63 48 ≠ lapOf q rd then s.putQueue n { q with stale := true }
        else
          let units := bits (tw ws 0) 37 32 + 1
          if q.size < 64 * units then s.queueError n q
          else match (List.range units).findSome? fun i => unitBad s q (rd + 64 * i), readUnits s q rd units with
            | some pa, _ => (s.errTwice pa).queueError n q
            | none, none => s.queueError n q
            | none, some all =>
              let q1 := { q with
                rd := q.rd + BitVec.ofNat 64 (64 * units)
                packets := q.packets ++ [⟨rd, all, false, [], 0#64, none⟩] }
              ((s.putQueue n q1).writeRd q1).push (.packetFetch n)

/-- The rounds one service may take: enough for the longest packet at the least weight. -/
def feFuel : Nat := 4096

/-- PACKET_FETCH (R315). -/
def execPacketFetch (q : Nat) (s : State) : Result := .next ((s.fetchPacket q).feServe feFuel)

/-- R315: the unit at RD may be read again. -/
def State.retryLap (s : State) (n : Nat) : State :=
  match SMap.get? s.queues n with
  | none => s
  | some q => s.putQueue n { q with stale := false }

/-- LAP_RETRY (R315): the unit at RD is read again. -/
def execLapRetry (q : Nat) (s : State) : Result := .next (((s.retryLap q).fetchPacket q).feServe feFuel)

/-! ## Completion (R321, R323) -/

/-- R321, R375: the completion signal: sub 1, or set −1, at .sys. A word that the SIGOP cannot reach is left (R377). -/
def State.packetSignal (s : State) (ctx : Nat) (p : Packet) (ok : Bool) : State :=
  if p.sig = 0 then s
  else (s.sendCtx (ctxEnt s ctx) p.sig 8 true (if ok then .sigop 2 1#64 5 else .sigop 0 (BitVec.allOnes 64) 5) 5 true true
    .none).getD s

/-- R228, R322: the vigil entries of a packet that are left, or that its home holds, are removed, on this device and on others. -/
def State.dropSlots (s : State) (r : PktRef) (p : Packet) : State :=
  { s with
    vigils := s.vigils.filter fun v => match v.waiter with | .packet q u _ => !(q == r.q && u == p.unit) | _ => true
    heldOps := s.heldOps.filter fun w => match w.owner with | .slot x _ => !decide (x = r) | _ => true
    peers := s.peers.filter fun w => match w.owner with | .slot x _ => !decide (x = r) | _ => true }

/-- R321 to R323: a packet that has ended leaves its queue. -/
def State.packetDone (s : State) (r : PktRef) : State :=
  match SMap.get? s.queues r.q with
  | none => s
  | some q =>
    match q.packets.find? fun p => decide (p.idx = r.idx) with
    | none => s
    | some p =>
      match p.ended with
      | none => s
      | some ok =>
        let st := if !ok && p.a && q.st == .active then QSt.aborted else q.st
        let s1 := s.putQueue r.q { q with st := st, packets := q.packets.filter fun x => !decide (x.idx = r.idx) }
        ((s1.dropSlots r p).packetSignal q.ctx p ok).feServe feFuel

/-- PACKET_COMPLETE (R321). -/
def execPacketComplete (p : PktRef) (s : State) : Result := .next (s.packetDone p)

/-- A packet ends, without error or with one. -/
def State.endPacket (s : State) (r : PktRef) (ok : Bool) : State :=
  (s.modPacket r fun x => { x with ended := some ok }).push (.packetComplete r)

/-- The effect of a started packet that has not ended, once its form and its signal are right (R320). -/
def withPacket (r : PktRef) (s : State) (f : Queue → Packet → State → State) : Result :=
  match SMap.get? s.queues r.q with
  | none => .next s
  | some q =>
    match q.packets.find? fun p => decide (p.idx = r.idx) with
    | none => .next s
    | some p =>
      if !p.started || p.ended.isSome then .next s
      else if !p.formOk || !sigOk s q.ctx p then .next (s.endPacket r false)
      else .next (f q p s)

/-! ## The packet types (R319) -/

/-- R268, R388: a packet that can no longer start waits in its queue again, with the credit it spent. -/
def State.unstart (s : State) (p : PktRef) (q : Queue) (k : Packet) : State :=
  (s.putQueue p.q { q with credit := q.credit + 64 * k.units }).modPacket p fun x => { x with started := false }

/-- PKT_NOP. -/
def execPktNop (p : PktRef) (s : State) : Result := withPacket p s fun _ _ s => s.endPacket p true

/-- R319, R371: the template of a LAUNCH. -/
def launchTemplate (s : State) (q : Queue) (p : Packet) : Option (List W64 × State) :=
  if p.w 2 = 0#64 then some ((p.words.drop 8).take 24, s)
  else (ctxRange s (ctxEnt s q.ctx) (p.w 2).toNat 25 192).map fun r =>
    ((List.range 24).map fun i => BitVec.ofNat 64 (leNat ((r.1.drop (8 * i)).take 8)), r.2)

/-- R320, R356: the template and the image of a LAUNCH pass their checks; under a context that is not valid the task
goes to Leasing, and its lease error is that of R356. -/
def launchOk (s : State) (q : Queue) (ws : List W64) : Bool :=
  tmplOk ws && (!(ctxEnt s q.ctx).valid ||
    ((tw ws 7 == 0#64 || ctxCan s.mem (ctxEnt s q.ctx) (tw ws 7).toNat 128 .w) &&
     (tw ws 2 == 0#64 || (loadImage s q.ctx (tw ws 2).toNat).isSome)))

/-- R419, R421: a packet whose source holds an uncorrectable error, met on both attempts, ends in packet error. -/
def soundSource (c : CtxEnt) (va n : Nat) (p : PktRef) (s : State) (k : State → State) : State :=
  match ctxBad s c va n with
  | some pa => (s.errTwice pa).endPacket p false
  | none => k s

/-- PKT_LAUNCH (R319, R268): once its task has a record, the packets behind it may start. -/
def execPktLaunch (p : PktRef) (s : State) : Result :=
  withPacket p s fun q k s => soundSource (ctxEnt s q.ctx) (k.w 2).toNat (if k.w 2 = 0#64 then 0 else 192) p s fun s =>
    match launchTemplate s q k with
    | none => s.endPacket p false
    | some (ws, s) =>
      if !launchOk s q ws then s.endPacket p false
      else match s.newTask (launchDie s k) ws q.ctx 0#64 (bits (tw ws 0) 60 58) (k.w 3) with
        | none => s.unstart p q k
        | some (h, s1) => (s1.modPacket p fun x => { x with task := h }).push (.packetFetch p.q)

/-- PKT_COPY (R319). -/
def execPktCopy (p : PktRef) (s : State) : Result :=
  withPacket p s fun q k s =>
    let src := (k.w 2).toNat
    let dst := (k.w 3).toNat
    let n := (k.w 4).toNat
    let sc := bits (k.w 5) 2 0
    let c := ctxEnt s q.ctx
    if (sc ≠ 3 ∧ sc ≠ 5) ∨ !ctxCan s.mem c dst n .w then s.endPacket p false
    else soundSource c src n p s fun s =>
      match ctxRange s c src (n + 1) n with
      | none => s.endPacket p false
      | some (old, s1) =>
        let b := copiedBytes s1 src dst old
        match ctxPut b.2 c dst (n + 1) b.1 with
        | none => s.endPacket p false
        | some t => t.endPacket p true

/-- R322, R351: the slots of a BARRIER that name a signal, with its address. -/
def barrierSlots (p : Packet) : List (Nat × Nat) :=
  ((List.range 6).map fun i => (i, (p.w (i + 2)).toNat)).filter fun x => x.2 ≠ 0

/-- R319, R370, R371: where the signal of a BARRIER slot stands: on this device, or on another. -/
def slotPlace (s : State) (c : CtxEnt) (va : Nat) : Option Place :=
  match ctxPlace s.mem c va .r with
  | some (.phys pa attr) => some (.phys pa attr)
  | some (.peer w off) =>
    if isSelf s w then
      match ingress s s.dev.devno.toNat w.win off 8 true false false w.key with
      | .ok pa => some (.phys pa 0#8)
      | .error _ => none
    else some (.peer w off)
  | none => none

/-- R228, R322, R351: the vigil entry of one slot: the value is 0 or less. -/
def State.armSlot (s : State) (p : PktRef) (slot va : Nat) (pl : Place) : State :=
  match pl with
  | .phys pa _ => s.attempt ⟨homeDie pa, pa, true, false, .watch 3 (BitVec.allOnes 64) 0#64, .slot p slot⟩
  | .peer w off => s.sendPeer w off (BitVec.ofNat 64 va) 0#64 true (.watch 3 (BitVec.allOnes 64) 0#64) false (.slot p slot)

/-- PKT_BARRIER (R322): one vigil entry for each signal. -/
def execPktBarrier (p : PktRef) (s : State) : Result :=
  withPacket p s fun q k s =>
    let slots := barrierSlots k
    let at_ := slots.filterMap fun x => (slotPlace s (ctxEnt s q.ctx) x.2).map fun pl => (x, pl)
    if (slots.any fun a => decide (a.2 % 8 ≠ 0)) || decide (at_.length < slots.length) then s.endPacket p false
    else if slots.isEmpty then s.endPacket p true
    else at_.foldl (fun t x => t.armSlot p x.1.1 x.1.2 x.2)
      (s.modPacket p fun x => { x with slots := at_.map fun y => (y.1.1, match y.2 with | .phys pa _ => pa | .peer _ off => off) })

/-- PKT_SIGNAL (R319, R375): a scope or path that refuses the operation is a packet error (DEDUCED, log entry 66). -/
def execPktSignal (p : PktRef) (s : State) : Result :=
  withPacket p s fun q k s =>
    let va := (k.w 2).toNat
    let size8 := bit (k.w 3) 3
    let n := if size8 then 8 else 4
    let op := bits (k.w 3) 2 0
    if 5 ≤ op ∨ va % n ≠ 0 then s.endPacket p false
    else (s.sendCtx (ctxEnt s q.ctx) va n size8 (.sigop op (k.w 4) 5) 5 true (decide (op ≤ 2))
      (.pkt p)).getD (s.endPacket p false)

/-- PKT_GUEST (R319, R388): the packet completes when the site accepts it; a BUDGET of 0 is refused (R381). -/
def execPktGuest (p : PktRef) (s : State) : Result :=
  withPacket p s fun q k s =>
    let site := bits (k.w 2) 0 0
    let ws := (k.words.drop 8).take 8
    if !guestsWired s || guestBudget ws == 0 then s.endPacket p false
    else if !(s.guest site).present || !guestSlotFree s site 0 then s.unstart p q k
    else match freeTag (s.guest site) with
      | some tag => (s.sendGuest site tag (.pkt p) ws false q.ctx k.a).endPacket p true
      | none => s.unstart p q k

end Sys2Proof.Machine
end

