-- ==== Sys2Proof/Machine/Policy.lean ====
section
/-! DEFINITION. The policy core: the mailbox doorbells and its commands (R326 to R328, R367, R368, R446, R451). -/

namespace Sys2Proof.Machine

/-! ## The rings (R327) -/

/-- R327: the oldest command that is not consumed. -/
def mailEntry (s : State) : MbCmd :=
  let w := tw (memWords s.mem (farBase + s.dev.mbcmd.toNat + 64 * (s.mbox.consumed % 256)) 8)
  ⟨w 0, w 1, w 2, w 3, w 4, w 5, w 6, w 7⟩

/-- R327: the parts of a command's first word. -/
def mbOp (m : MbCmd) : Nat := bits m.w0 63 56
def mbArg (m : MbCmd) : Nat := bits m.w0 31 0

/-- R328: the step that executes a command code. -/
def mailInstr (op : Nat) : Instr :=
  match op with
  | 0x01 => .regq
  | 0x02 => .unregq
  | 0x03 => .resetq
  | 0x04 => .setw
  | 0x10 => .pagein
  | 0x11 => .recall
  | 0x12 => .endtask
  | 0x20 => .loadrtn
  | 0x21 => .groupset
  | 0x22 => .readalm
  | 0x30 => .power
  | 0x31 => .attest
  | _ => .unknownCommand

/-- R327: the next command is executed when there is one and its response has room. -/
def State.mailNext (s : State) : State :=
  if s.mailRoom && decide (s.mbox.consumed < s.mbox.written) then s.push (mailInstr (mbOp (mailEntry s))) else s

/-- R327: the response of the command m: the same code, sequence number and argument, a status and results. -/
def mailReply (m : MbCmd) (status : Nat) (w2 w3 w4 w5 : W64) : MbCmd :=
  ⟨BitVec.ofNat 64 (fieldAt (mbOp m) 56 + fieldAt status 48 + fieldAt (bits m.w0 47 32) 32 + (mbArg m)), 0#64, w2, w3, w4, w5, 0#64,
    0#64⟩

/-- R327: a command is consumed and answered. -/
def State.answerMail (s : State) (m : MbCmd) : State :=
  let s1 := { s with mbox := { s.mbox with consumed := s.mbox.consumed + 1 } }
  ((s1.writeResp m).drainEvents 1024).mailNext

/-- The command at hand, when its step is this one. -/
def withMail (i : Instr) (s : State) (f : MbCmd → State → State) : Result :=
  if s.mailRoom && decide (s.mbox.consumed < s.mbox.written) && decide (mailInstr (mbOp (mailEntry s)) = i) then
    .next (f (mailEntry s) s)
  else .next s

/-- Answer with a status alone: 0 done, 1 refused, 2 unknown. -/
def State.mailAnswer (s : State) (m : MbCmd) (ok : Bool) : State :=
  s.answerMail (mailReply m (if ok then 0 else 1) 0#64 0#64 0#64 0#64)

/-- MBCDB_WRITE (R327, R449). -/
def execMbcdbWrite (v : W64) (s : State) : Result :=
  if s.bellsOn && decide (s.mbox.written ≤ v.toNat ∧ v.toNat ≤ s.mbox.consumed + 256) then
    .next ({ s with mbox := { s.mbox with written := v.toNat } }).mailNext
  else .next s

/-- MBRDB_WRITE (R327, R449): a count below the last, or above the responses written, is discarded. -/
def execMbrdbWrite (v : W64) (s : State) : Result :=
  if s.bellsOn && decide (s.mbox.respRead ≤ v.toNat ∧ v.toNat ≤ s.mbox.resp) then
    .next (({ s with mbox := { s.mbox with respRead := v.toNat } }).drainEvents 1024).mailNext
  else .next s

/-! ## Queues (R312, R328) -/

/-- R312: pin a range of a context: its pages, mapped with R and W. -/
def pinRange (s : State) (ctx va n : Nat) : Option Extent :=
  match SMap.get? s.ctxs ctx with
  | none => none
  | some c =>
    if !c.valid || decide (2 ^ 56 < va + n) then none
    else match walkFrom s.mem c.root ⟨0, true, true, false, va, n, [], none⟩ (va / 4096 * 4096) (n / 4096 + 2) with
      | .ok e => if e.runs.all fun r => attrW r.attr then some e else none
      | _ => none

/-- R312, R328: the descriptor of a REGQ, when it is acceptable; STATE is the FE's to set, whatever it reads there. -/
def readQueue (s : State) (m : MbCmd) : Option Queue :=
  let base := bits m.w1 56 0
  let log2n := bits m.w2 61 57
  let ctx := bits m.w2 56 45
  let weight := bits m.w2 44 37
  let guest := bits m.w2 36 35
  let rdptr := bits m.w3 56 0
  if bits m.w1 63 57 ≠ 0 ∨ bits m.w2 34 0 ≠ 0 ∨ bits m.w3 63 57 ≠ 0 ∨ rdptr % 8 ≠ 0 ∨ guest = 3 ∨
      (guest ≠ 0 ∧ !guestsWired s) ∨ log2n < 10 ∨ 24 < log2n ∨ weight = 0 ∨ base % 2 ^ log2n ≠ 0 then none
  else match pinRange s ctx base (2 ^ log2n), pinRange s ctx rdptr 8 with
    | some a, some b => some ⟨base, .active, log2n, ctx, weight, guest, 0#64, 0#64, rdptr, 0, [a, b], false, []⟩
    | _, _ => none

/-- REGQ (R328). -/
def execRegq (s : State) : Result :=
  withMail .regq s fun m s =>
    if 131072 ≤ (mbArg m) ∨ (SMap.get? s.queues (mbArg m)).isSome then s.mailAnswer m false
    else match readQueue s m with
      | some q => (s.putQueue (mbArg m) q).mailAnswer m true
      | none => s.mailAnswer m false

/-- R328: a packet of the queue has started and not completed. -/
def Queue.running (q : Queue) : Bool := q.packets.any (·.started)

/-- R387: a queue starts over: the loss of guest work that it posted before is no error of it any more. -/
def State.forgetGuest (s : State) (n : Nat) : State :=
  let f (t : GTag) : GTag := match t.owner with | .pkt p => if p.q = n then { t with abort := false } else t | _ => t
  let gs : SMap GSite := s.guests.map fun g => (g.1, { g.2 with tags := g.2.tags.map fun t => (t.1, f t.2) })
  { s with guests := gs }

/-- UNREGQ (R328). -/
def execUnregq (s : State) : Result :=
  withMail .unregq s fun m s =>
    match SMap.get? s.queues (mbArg m) with
    | some q => if q.running then s.mailAnswer m false else
      ((({ s with queues := SMap.del s.queues (mbArg m) } : State).forgetGuest (mbArg m)).mailAnswer m true)
    | none => s.mailAnswer m false

/-- RESETQ (R328). -/
def execResetq (s : State) : Result :=
  withMail .resetq s fun m s =>
    match SMap.get? s.queues (mbArg m) with
    | some q =>
      if q.running then s.mailAnswer m false
      else ((s.putQueue (mbArg m) { q with
        st := .active, rd := m.w1, wr := m.w1, credit := 0, stale := false, packets := [] }).forgetGuest (mbArg m)).mailAnswer m true
    | none => s.mailAnswer m false

/-- SETW (R328). -/
def execSetw (s : State) : Result :=
  withMail .setw s fun m s =>
    match SMap.get? s.queues (mbArg m) with
    | some q => if bits m.w1 7 0 = 0 then s.mailAnswer m false else (s.putQueue (mbArg m) { q with weight := bits m.w1 7 0 }).mailAnswer m true
    | none => s.mailAnswer m false

/-! ## Leases (R367, R368) -/

/-- R367: walks of a context that wait on a page of a range resume. -/
def resumeWalks (ctx va n : Nat) (t : TaskRec) : TaskRec :=
  match t.walk.part with
  | some (_, a) =>
    if t.st = .leasing ∧ t.ctx = ctx ∧ va / 4096 * 4096 ≤ a ∧ a < va / 4096 * 4096 + n then
      { t with walk := { t.walk with waits := false } }
    else t
  | none => t

/-- PAGEIN (R328, R367). -/
def execPagein (s : State) : Result :=
  withMail .pagein s fun m s =>
    let ts : SMap TaskRec := s.tasks.map fun e => (e.1, resumeWalks (mbArg m) m.w1.toNat (4096 * m.w2.toNat) e.2)
    (({ s with tasks := ts }).push .leaseWalk).mailAnswer m true

/-- R368: the lease, or the partial walk, of a task that holds no window. -/
def recalled (ctx va n : Nat) (t : TaskRec) : Bool :=
  t.ctx == ctx && (t.st == .leasing) && leaseMeets (t.walk.done ++ (t.walk.part.map (·.1)).toList) va n

/-- R368: a task in Leasing drops its partial walk, and waits for the end of the recall. -/
def dropWalk (ctx va n : Nat) (t : TaskRec) : TaskRec :=
  if recalled ctx va n t then { t with walk := ⟨[], none, true⟩ } else t

/-- R368: what a recall still waits for: a task of the context with a window, or a grant, whose lease overlaps the
range; an invalidation of a guest tag that is not acknowledged (R384), a page of it pinned for a host packet (R383). -/
def recallBusy (s : State) (ctx va n : Nat) : Bool :=
  (s.allRuns.any fun r => r.ctx == ctx && leaseMeets r.lease va n) ||
  (s.tasks.any fun t => t.2.ctx == ctx && t.2.st == .booking && leaseMeets t.2.lease va n) ||
  s.guests.any fun g => g.2.tags.any fun t =>
    (t.2.inval.isSome || (t.2.hosted && t.2.ctx == ctx)) && leaseMeets t.2.oldLease va n

/-- R383, R384: a recall touches pages pinned for a host packet: its tag is invalidated. -/
def State.recallPins (s : State) (ctx va n : Nat) : State :=
  let hit (t : GTag) : Bool := t.hosted && t.ctx == ctx && t.inval.isNone && leaseMeets t.oldLease va n
  let msgs := s.guests.flatMap fun g => (g.2.tags.filter fun t => hit t.2).map fun t => OutMsg.guestInval g.1 t.1
  let gs : SMap GSite := s.guests.map fun g => (g.1, { g.2 with tags := g.2.tags.map fun t =>
    (t.1, if hit t.2 then { t.2 with inval := some s.cyc } else t.2) })
  { s with guests := gs, out := s.out ++ msgs }

/-- R384: a recall that begins invalidates the guest tags that work under the leases it touches. -/
def State.recallTags (s : State) (ctx va n : Nat) : State :=
  if s.mbox.taking.isSome then s
  else (s.allRuns.filter fun r => r.ctx == ctx && leaseMeets r.lease va n).foldl (fun t r => t.leaseEnds r.task r.lease)
    (s.recallPins ctx va n)

/-- R368: the running tasks of the context are preempted at their next edges. -/
def State.recallRuns (s : State) (ctx va n : Nat) : State :=
  (s.allRuns.filter fun r => r.ctx == ctx && leaseMeets r.lease va n && !r.preempt && r.ending.isNone).foldl
    (fun t r => t.askPreempt r.task) s

/-- R368: tasks whose walk waited for the recall walk again. -/
def rewalk (ctx : Nat) (t : TaskRec) : TaskRec :=
  if t.ctx = ctx ∧ t.st = .leasing ∧ t.walk.part.isNone then { t with walk := ⟨[], none, false⟩ } else t

/-- RECALL (R328, R368): it answers once no pin on the range remains; until then it is tried again. -/
def execRecall (s : State) : Result :=
  withMail .recall s fun m s =>
    let va := m.w1.toNat / 4096 * 4096
    let n := 4096 * m.w2.toNat
    let ts : SMap TaskRec := s.tasks.map fun e => (e.1, dropWalk (mbArg m) va n e.2)
    let s1 := ((({ s with tasks := ts } : State).recallTags (mbArg m) va n).recallRuns (mbArg m) va n)
    if recallBusy s1 (mbArg m) va n then
      { s1 with mbox := { s1.mbox with taking := some (mbArg m, va, n) } }.push .recall
    else
      let ts2 : SMap TaskRec := s1.tasks.map fun e => (e.1, rewalk (mbArg m) e.2)
      (({ s1 with tasks := ts2, mbox := { s1.mbox with taking := none } }).push .leaseWalk).mailAnswer m true

/-! ## Tasks, routines, groups, the calendar -/

/-- ENDTASK (R328, R395): a task with a window ends by a fault at its last committed edge; one without ends at once. A
stale handle, or one that differs from ARG, is refused. -/
def execEndtask (s : State) : Result :=
  withMail .endtask s fun m s =>
    let h := m.w1
    let cause := causeWord 0x27 0 0
    if (s.task? h).isNone || (mbArg m) != bits h 31 0 then s.mailAnswer m false
    else match s.run? h with
      | some r => (s.faultEnd h cause (mkRec s.cyc r cause { ccInfo 0#64 0#64 with agent := 7 })).mailAnswer m true
      | none => (s.endUnplaced h cause 0#64).mailAnswer m true

/-- R232: a routine as a LOADRTN reads it: up to 16 words, to the first that is 0 (DEDUCED, log entry 12). -/
def readRoutine (bs : List Byte) : List W32 :=
  ((List.range 16).map fun i => BitVec.ofNat 32 (leNat ((bs.drop (4 * i)).take 4))).takeWhile (· != 0#32)

/-- LOADRTN (R328, R232). -/
def execLoadrtn (s : State) : Result :=
  withMail .loadrtn s fun m s =>
    match (if (mbArg m) < 4096 then ctxBytes s (mbArg m) m.w2.toNat .r 64 else none) with
    | none => s.mailAnswer m false
    | some bs =>
      let code := readRoutine bs
      if (List.range code.length).all fun i => rvOk (code.getD i 0#32) i code.length then
        ({ s with routines := SMap.put [] s.routines (64 * (mbArg m) + bits m.w1 5 0) code }).mailAnswer m true
      else s.mailAnswer m false

/-- GROUPSET (R328, R147); reserved bits read 0 (R7). -/
def execGroupset (s : State) : Result :=
  withMail .groupset s fun m s =>
    if (mbArg m) < 256 then ({ s with groups := SMap.put 0#64 s.groups (mbArg m) (m.w1 &&& 0xFFC0FFFFFFFFFC00#64) }).mailAnswer m true else s.mailAnswer m false

/-- R275: the four words of an entry as an Almanac holds it; cells, tiles, ports and context stand only on the die of
the FC. -/
def almWords (a : Nat) (e : AlmEnt) : List W64 :=
  let own := a == dieOf e.fc
  let f (x : Nat) : Nat := if own then x else 0
  [BitVec.ofNat 64 (fieldAt e.st 62 + fieldAt e.dies 58 + fieldAt e.gslot 54 + fieldAt e.gsite 53 +
      fieldAt (f (boolNat e.rgn)) 52 + e.handle.toNat % 2 ^ 50),
    BitVec.ofNat 64 e.start, BitVec.ofNat 64 e.last,
    BitVec.ofNat 64 (fieldAt e.fc 58 + fieldAt (f e.row0) 55 + fieldAt (f e.cgo) 53 + fieldAt (f e.hgt) 50 +
      fieldAt (f e.wid) 48 + fieldAt (f e.ctxn) 46 + fieldAt (f e.tiles) 42 + fieldAt (f e.ports) 26 + fieldAt e.l2sh 21 +
      fieldAt e.seamsh 16 + fieldAt e.lsh 11 + fieldAt e.lkind 9 + fieldAt e.lport 3)]

/-- READALM (R328, R275): an index that holds no entry reads as a free one. -/
def execReadalm (s : State) : Result :=
  withMail .readalm s fun m s =>
    if 4 < (mbArg m) then s.mailAnswer m false
    else
      let ws := match (s.alm.filter fun e => e.almanacs.contains (mbArg m))[m.w1.toNat]? with
        | some e => almWords (mbArg m) e
        | none => []
      s.answerMail (mailReply m 0 (tw ws 0) (tw ws 1) (tw ws 2) (tw ws 3))

/-- POWER (R328, R446): a change of the tile cap applies to placements made after it; no grant is moved. -/
def execPower (s : State) : Result :=
  withMail .power s fun m s =>
    if 1800 ≤ m.w1.toNat ∧ m.w1.toNat ≤ 3400 then
      ({ s with dev := { s.dev with watts := m.w1.toNat } }).mailAnswer m true
    else s.mailAnswer m false

/-! ## Attestation (R451) -/

/-- R449: word W0 of the device information block. -/
def infoWord (d : DevInfo) : W64 := BitVec.ofNat 64 (fieldAt d.st 60 + fieldAt d.gsp 48 + d.enfc.toNat)

/-- R449: the device information block as the host reads it: words W0 to W7, and, from byte 64 on, the fused-off map. -/
def infoBlock (d : DevInfo) (i : Nat) : W64 :=
  match i with
  | 0 => infoWord d
  | 1 => BitVec.ofNat 64 (fieldAt d.devno.toNat 50 + fieldAt (boolNat d.linken) 49 + fieldAt (boolNat d.cxl) 48)
  | 2 => d.mbcmd
  | 3 => d.mbrsp
  | 4 => BitVec.ofNat 64 d.imptab
  | 5 => Config.fwVersion d.fwDigest
  | 6 => flagWord d.retry
  | 7 => d.mbidx
  | i => BitVec.ofNat 64 ((List.range 64).map fun b => if d.fused.contains (64 * (i - 8) + b) then 2 ^ b else 0).sum

/-- R449: the device information block in its BAR: byte a of the BAR that holds the doorbell window, where the block
covers it. -/
def barByte (d : DevInfo) (a : Nat) : Option Byte :=
  if 0x200000 ≤ a ∧ a < 0x200000 + 1216 then some (BitVec.ofNat 8 ((infoBlock d ((a - 0x200000) / 8)).toNat / 256 ^ (a % 8)))
  else none

/-- R449: what the host's write of an 8-byte word at a byte of the BAR asks for: the driver's fields of that word of the
block, DEVNO before LINKEN; other fields are the device's, and a write leaves them. -/
def barInstrs (d : DevInfo) (a : Nat) (v : W64) : List Instr :=
  match (if 0x200000 ≤ a ∧ a % 8 = 0 then some ((a - 0x200000) / 8) else none) with
  | some 1 => [.devinfoWrite (.devno (v.extractLsb' 50 14)), .linkenWrite (bit v 49)]
  | some 2 => [.devinfoWrite (.mbcmd v)]
  | some 3 => [.devinfoWrite (.mbrsp v)]
  | some 6 => [.retryWrite (bit v 0) d.flash]
  | some 7 => [.devinfoWrite (.mbidx v)]
  | _ => []

/-- R451: bytes 0 to 255 of a report. -/
def reportBody (s : State) (nonce : List Byte) : List Byte :=
  nonce ++ digestBytes s.dev.fwDigest ++
  (if (s.guest 0).present then digestBytes s.dev.gsDigest[0] else List.replicate 64 0#8) ++
  (if (s.guest 1).present then digestBytes s.dev.gsDigest[1] else List.replicate 64 0#8) ++
  leBytes 8 (infoWord s.dev).toNat ++ List.replicate 24 0#8

/-- R451: the signature of a report: made with the identity key over the SHA-512 digest of its bytes 0 to 255. -/
def reportSign (d : DevInfo) (body : List Byte) : BitVec 512 := edSign (Config.identityKey d.secret) (digestBytes (sha512 body))

/-- ATTEST (R328, R451): the nonce and the report lie in host memory. -/
def execAttest (s : State) : Result :=
  withMail .attest s fun m s =>
    let a := farBase + m.w1.toNat
    if !inFar (a + 383) then s.mailAnswer m false
    else
      let body := reportBody s (memBytes s.mem a 32)
      (s.land (a + 64) (body ++ digestBytes (reportSign s.dev body))).mailAnswer m true

/-- UNKNOWN_COMMAND (R328). -/
def execUnknownCommand (s : State) : Result :=
  withMail .unknownCommand s fun m s => s.answerMail (mailReply m 2 0#64 0#64 0#64 0#64)

end Sys2Proof.Machine
end

