-- ==== Sys2Proof/Machine/Platform.lean ====
section
/-! DEFINITION. The surroundings of the package: writes of hosts (R182), messages of other devices (R374, R418),
bring-up and the device information block (R448 to R450), temperature (R447), the error log (R417). -/

namespace Sys2Proof.Machine

/-! ## Hosts and other devices -/

/-- R155: n bytes from an address lie in one range of physical memory. -/
def inMemory (pa n : Nat) : Bool := (inHbm pa && inHbm (pa + n - 1)) || (inFar pa && inFar (pa + n - 1))

/-- HOST_WRITE (R182, R158): the bytes enter the write order of their line; outside R155's ranges there is no memory. -/
def execHostWrite (pa : Nat) (bytes : List Byte) (s : State) : Result :=
  if bytes.isEmpty then .next s
  else if inMemory pa bytes.length then .next (s.land pa bytes)
  else .next s

/-- R374: the bytes a message touches at its offset, and the rights it needs. -/
def peerNeed : PeerOp → Nat × Bool × Bool
  | .read n => (n, true, false)
  | .write bs => (bs.length, false, true)
  | .merge bs _ => (bs.length, false, true)
  | .atom _ z _ _ => (wordLen z, true, true)
  | .atomr _ _ _ => (8, true, true)
  | .sig _ z _ => (wordLen z, true, true)
  | .binit _ _ _ _ => (40, true, true)
  | .binv => (40, true, true)
  | .arrive => (40, true, true)
  | .testph _ => (40, true, true)
  | .waitph _ => (40, true, true)
  | .watch _ z _ _ => (wordLen z, true, false)
  | .futrd z => (wordLen z, true, false)
  | .futwr z _ => (wordLen z, false, true)
  | .arrivec _ _ _ => (40, true, true)
  | .waitc _ => (40, true, true)
  | .cred _ _ _ _ _ _ => (4, true, true)

/-- R374, R375: what a message asks of the engine of the word's home: the word's size, and the operation. The range of
a counting object begins at the physical address `rpa`. -/
def peerKind (sc rpa : Nat) : PeerOp → Option (Bool × HomeKind)
  | .read _ => none
  | .write _ => none
  | .merge _ _ => none
  | .atom op z v cmp => some (z, .atom op v cmp sc)
  | .atomr n ctx v => some (true, .atomr n ctx v)
  | .sig op z v => some (z, .sigop op v sc)
  | .binit c ex _ len => some (true, .binit c ex sc (if c then rpa else 0) (if c then len else 0))
  | .binv => some (true, .binv)
  | .arrive => some (true, .arrive)
  | .testph tok => some (true, .testph tok)
  | .waitph tok => some (true, .waitph tok)
  | .watch cmp z mask v => some (z, .watch cmp mask v)
  | .futrd z => some (z, .futrd)
  | .futwr z v => some (z, .futwr v)
  | .arrivec ph u f => some (true, .arrivec ph u f)
  | .waitc tok => some (true, .waitc tok)
  | .cred op ty mode sat fz v => some (false, .cred op ty mode sat fz v)

/-- R374: the range of a BINIT lies inside the window that holds the object; other messages have none. -/
def peerRange (s : State) (m : PeerMsg) : Except Nat Nat :=
  match m.op with
  | .binit true _ off len => ingress s m.src m.win off len false true false m.key
  | _ => .ok 0

/-- R374: the answer to a message that is refused. -/
def State.peerRefuse (s : State) (m : PeerMsg) (reason : Nat) : State :=
  { s with out := s.out ++ [.peerAnswer m.src m.tag reason []] }

/-- R227, R374: a message that passed its check is performed; what is not a read or a write, at the engine of the word's
home. -/
def State.peerDo (s : State) (m : PeerMsg) (pa rpa : Nat) : State :=
  match peerKind (if m.sys then 5 else 4) rpa m.op with
  | some k => s.toHome ⟨homeDie pa, pa, k.1, (readImport s m.win).sa, k.2, .peer m.src m.tag⟩
  | none =>
    match m.op with
    | .read n =>
      -- DESIGN CHOICE, log entry 114: a read that finds an uncorrectable error is answered without data
      match s.badAt pa n with
      | some b => { s.errTwice b with out := (s.errTwice b).out ++ [.peerAnswer m.src m.tag 0 []] }
      | none => { s with out := s.out ++ [.peerAnswer m.src m.tag 0 (memBytes s.mem pa n)] }
    | .write bs => s.land pa bs
    | .merge bs ms => s.landMasked pa bs ms
    | _ => s

/-- PEER_INGRESS (R374): messages arrive once bring-up has ended (R448 step 7) and the links are enabled. -/
def execPeerIngress (m : PeerMsg) (s : State) : Result :=
  let need := peerNeed m.op
  if !s.dev.linken || s.dev.st != 2 then .next s
  else match ingress s m.src m.win m.off need.1 need.2.1 need.2.2 (m.sys && (peerKind 0 0 m.op).isSome) m.key with
    | .error z => .next (s.peerRefuse m z)
    | .ok pa =>
      match peerRange s m with
      | .error z => .next (s.peerRefuse m z)
      | .ok rpa => .next (s.peerDo m pa rpa)

/-! ## Answers of other devices (R374, R375) -/

/-- R374: an import's refusal ends the sender's task, with its window or without one. -/
def State.refused (s : State) (h va : W64) (n right reason : Nat) (pc : W64) (agent : Nat) : State :=
  if (s.run? h).isSome then s.importFault h va n right reason pc agent
  else if (s.task? h).isSome then
    s.endUnplacedRec h (causeWord 0x22 reason 0) { ccInfo pc va with agent := agent, size := n, right := right }
  else s

/-- IMPORT_REFUSAL (R374): the refusal of a message returns to its sender, whose task ends. -/
def execImportRefusal (task va : W64) (reason : RefusedAccess) (s : State) : Result :=
  .next (s.refused task va reason.size reason.right reason.reason 0#64 reason.agent)

/-- R374: the bytes and the rights that an operation sent to another device asked for. -/
def PeerWait.need (w : PeerWait) : Nat × Nat :=
  match w.kind with
  | .atom _ _ _ _ => (wordLen w.size8, 6)
  | .atomr _ _ _ => (8, 6)
  | .sigop _ _ _ => (wordLen w.size8, 6)
  | .watch _ _ _ => (wordLen w.size8, 4)
  | .futrd => (wordLen w.size8, 4)
  | .futwr _ => (wordLen w.size8, 2)
  | .cred _ _ _ _ _ _ => (4, 6)
  | _ => (40, 6)

/-- R374: the target refused an operation: the task, or the packet, that sent it ends by an error. -/
def State.peerFailed (s : State) (w : PeerWait) (reason : Nat) : State :=
  let end_ (h : W64) (agent : Nat) : State := s.refused h w.va w.need.1 w.need.2 reason (if agent = 5 then 0#64 else w.pc) agent
  let cmd (k : CmdRef) : State :=
    match (s.run? k.task).bind fun r => r.cmd? k.id with
    | some c => s.cmdFault k c (.import w.va.toNat w.need.1 w.need.2 reason)
    | none => end_ k.task 5
  match w.owner with
  | .cc h _ => end_ h 5
  | .cmd k => cmd k
  | .elem k => cmd k
  | .wwait k => cmd k
  | .sig k => end_ k.task 5
  | .arm h => end_ h 5
  | .parked h _ _ => end_ h 1
  | .pkt p => s.endPacket p false
  | .slot p _ => s.endPacket p false
  | .peer _ _ => s
  | .none => s

/-- R146, R205: one update of a command has been performed on another device; the last completes it. -/
def State.elemDone (s : State) (k : CmdRef) : State :=
  if s.peers.any fun w => decide (w.owner = .elem k) then s
  else match (s.run? k.task).bind fun r => r.cmd? k.id with
    | some c => s.cmdDone k (if c.bad then 2#2 else 0#2)
    | none => s

/-- R207: the answer to a W wait on another device's object: left, or not; a wait that ended with its window begins
again after the next dispatch (R410). -/
def State.wwaitDone (s : State) (k : CmdRef) (v : W64) : State :=
  if (s.run? k.task).isNone then s
  else if v = 1#64 then (s.modCmd k fun y => { y with wDone := true }).push (.commandStart k)
  else s.cmdDone k 3#2

/-- R375: another device has performed an operation: its result goes to whoever asked. -/
def State.peerDone (s : State) (w : PeerWait) (v : W64) : State :=
  match w.owner with
  | .cc h f => if w.armed then s.vigilWake h else s.deliver h f (if w.size8 then v else extWord false v.toNat)
  | .cmd k => s.cmdDone k (match w.kind with | .arrivec _ _ _ => v.setWidth 2 | _ => 0#2)
  | .elem k => s.elemDone k
  | .sig _ => s
  | .wwait k => s.wwaitDone k v
  | .arm h => s.countDown h 1
  | .parked h site id => s.unpark h site id v
  | .pkt p => (s.modPacket p fun q => { q with ended := some true }).push (.packetComplete p)
  | .slot p k => s.fireSlot p.q (BitVec.ofNat 39 (p.idx / 64)) k (signedOf 64 v.toNat)
  | .peer _ _ => s
  | .none => s

/-- R243, R375: a WATCH is answered twice: once it is armed, and once its condition holds. -/
def PeerWait.arms (w : PeerWait) : Bool := !w.armed && match w.kind with | .watch _ _ _ => true | _ => false

/-- R374, R375: the answer to operation number `id`: the import reason, 0 when it was performed, and its value. -/
def State.peerReply (s : State) (id reason : Nat) (v : W64) : State :=
  match s.peers.find? fun w => decide (w.id = id) with
  | none => s
  | some w =>
    let rest := s.peers.filter fun x => !decide (x.id = id)
    if reason ≠ 0 then ({ s with peers := rest }).peerFailed w reason
    else if w.arms then
      let s1 := { s with peers := s.peers.map fun x => if x.id = id then { x with armed := true } else x }
      match w.owner with
      | .cc h f => s1.watchArmed h f
      | _ => s1
    else ({ s with peers := rest }).peerDone w v

/-! ## The host's atomics (R378) -/

/-- R378: the host takes a copy of a word's line. -/
def State.hostTake (s : State) (pa : Nat) (z : Bool) : State :=
  if inMemory pa (wordLen z) then
    { s with hostHeld := s.hostHeld ++ [⟨pa, z, leNat (memBytes s.mem pa (wordLen z))⟩] }
  else s

/-- R378: the host performs an atomic on the copy that it holds, or, without one, on the word as it stands (log entry
59), and its line is written back. -/
def State.hostAtomic (s : State) (pa : Nat) (z : Bool) (op : Nat) (v cmp : W64) : State :=
  if inMemory pa (wordLen z) then
    let old := match s.hostHeld.find? fun c => decide (c.pa = pa) && c.size8 == z with
      | some c => c.old
      | none => leNat (memBytes s.mem pa (wordLen z))
    s.land pa (leBytes (wordLen z) (atomNew op (8 * wordLen z) old v.toNat cmp.toNat))
  else s

/-! ## A link that trains again (R418) -/

/-- R365, R418: the destination address of a CONTRIB and the address of its ISSUE, as its fault record gives them. -/
def contribPlace (s : State) (c : Contrib) : W64 × W64 :=
  match s.run? c.k.task with
  | none => (0#64, 0#64)
  | some r =>
    match r.cmd? c.k.id with
    | none => (0#64, 0#64)
    | some m =>
      match extentOf r.lease r.extn (tidExt m.tidC) with
      | some e => (BitVec.ofNat 64 (e.base + tidOffset m.tidC + 4 * m.args.p0.toNat), m.pc)
      | none => (0#64, m.pc)

/-- LINK_RETRAIN (R418): the messages of a port that are not yet acknowledged, those of contributions, are refused with
reason 6. -/
def execLinkRetrain (port : Nat) (s : State) : Result :=
  let hit (c : Contrib) : Bool :=
    let g := SMap.get 0#64 s.groups c.key.group.toNat
    !bit g 62 && bits g 61 54 == port
  let lost := s.contribs.filter hit
  let s1 := { s with contribs := s.contribs.filter fun c => !hit c }
  .next (lost.foldl (fun t c =>
    let p := contribPlace s c
    t.importFault c.k.task p.1 4 2 6 p.2 4) s1)

/-! ## Bring-up (R448 to R450) -/

/-- R448 steps 4 to 7, after the firmware has been accepted: every byte of HBM then reads 0 with valid check codes. -/
def State.bringUp (s : State) (b : BringUp) : State :=
  let far := s.mem.filter fun e => inFar e.1
  let s1 := { s with
    mem := far
    err := { s.err with bad := s.err.bad.filter inFar }
    ep := { s.ep with tcm := b.firmware.body.take 262144 }
    dev := { s.dev with cxl := b.cxl, fwDigest := sha512 b.firmware.body } }
  let s2 := if guestsWired s1 then (s1.guestAuth 0 b.guest0).guestAuth 1 b.guest1 else s1
  { s2 with dev := { s2.dev with st := 2 } }

/-- R448 step 3: authenticate the firmware. -/
def State.bootFrom (s : State) (b : BringUp) : State :=
  if authenticate s.dev.fwHash b.firmware = .accepted then s.bringUp b else { s with dev := { s.dev with st := 3 } }

/-- R449: the EP begins to authenticate its firmware from boot flash, and STATE is 1. -/
def State.boot (s : State) (b : BringUp) : State := { s with dev := { s.dev with st := 1, flash := b } }

/-- R448: the step that follows STATE 1: authentication, and the rest of bring-up. -/
def State.bootStep (s : State) : State := s.bootFrom s.dev.flash

/-- R448 steps 1 and 2: everything in reset; what remains are the fuses and host memory. -/
def State.inReset (s : State) : State :=
  { State.reset with
    mem := s.mem.filter fun e => inFar e.1
    dev := { DevInfo.reset with
      part := s.dev.part, off := s.dev.off, fused := s.dev.fused, imptab := s.dev.imptab
      fwHash := s.dev.fwHash, gsHash := s.dev.gsHash, secret := s.dev.secret }
    inputs := s.inputs
    pace := s.pace
    free := s.free }

/-- POWER_GOOD (R448): the steps up to authentication; the next step of the package ends it. -/
def execPowerGood (b : BringUp) (s : State) : Result := .next (s.inReset.boot b)

/-- RETRY_WRITE (R449): at STATE 3, 1 repeats step 3. -/
def execRetryWrite (v : Bool) (b : BringUp) (s : State) : Result :=
  let s1 := { s with dev := { s.dev with retry := v } }
  if v ∧ s.dev.st = 3 then .next (s1.boot b) else .next s1

/-- LINKEN_WRITE (R449, R448): writing 0 has no effect; the EP then serves the mailbox: it writes the events that wait and
executes commands. -/
def execLinkenWrite (v : Bool) (s : State) : Result :=
  if v && !s.dev.linken then .next (({ s with dev := { s.dev with linken := true } }).drainEvents 1024).mailNext else .next s

/-- DEVINFO_WRITE (R449): DEVNO is fixed once LINKEN is set. -/
def execDevinfoWrite (f : DevField) (s : State) : Result :=
  match f with
  | .devno v => .next (if s.dev.linken then s else { s with dev := { s.dev with devno := v } })
  | .mbcmd v => .next { s with dev := { s.dev with mbcmd := v } }
  | .mbrsp v => .next { s with dev := { s.dev with mbrsp := v } }
  | .mbidx v => .next { s with dev := { s.dev with mbidx := v } }

/-! ## Temperature (R447) -/

/-- R447: the adjustments of the tile cap for every 1,024 slots that have passed: down by 16 each while a die is hot, to
no less than 0, and up by 16 each after, to the value that R446 gives. -/
def adjustCap (d : DevInfo) (slot : Nat) : DevInfo :=
  let n := (slot - d.hotSlot) / 1024
  let top := powerCap d
  { d with
    hotSlot := d.hotSlot + 1024 * n
    thermCut := if n = 0 then d.thermCut else if d.hot then min top (d.thermCut + 16 * n) else min top d.thermCut - 16 * n }

/-- THERMAL_THROTTLE (R447): the lowering begins; adjustments already under way keep their rhythm. -/
def execThermalThrottle (s : State) : Result :=
  let d := if s.dev.hot || s.dev.thermCut != 0 then adjustCap s.dev s.slot else { s.dev with hotSlot := s.slot }
  .next { s with dev := { d with hot := true } }

/-- THERMAL_STEP (R447): `cool` says that every die is below 90 °C, from now on. No grant is moved (R446). -/
def execThermalStep (cool : Bool) (s : State) : Result :=
  let d := adjustCap s.dev s.slot
  .next { s with dev := { d with hot := d.hot && !cool } }

/-- THERMAL_TRIP (R447): every clock stops; open rounds never commit. -/
def execThermalTrip (s : State) : Result := .next { s with dev := { s.dev with st := 4 } }

/-! ## The error log (R417) -/

/-- CERR (R417): the new entries are posted once 64 have gathered or 2^30 cycles have passed. -/
def execCerr (s : State) : Result :=
  if 64 ≤ s.err.corr ∨ s.err.last + 2 ^ 30 ≤ s.cyc then
    .next (({ s with err := { s.err with corr := 0, last := s.cyc } }).postEvent
      (mbEvent 0x83 0 (BitVec.ofNat 64 s.err.corr) 0#64 0#64 0#64))
  else .next s

end Sys2Proof.Machine
end

