-- ==== Sys2Proof/Machine/Scalar.lean ====
section
/-! DEFINITION. The arithmetic and address instructions of the control core (R81 to R95), one meaning each. -/

namespace Sys2Proof.Machine

/-! ## Values -/

/-- R92: division; truncation toward zero, with the two corners that have stated results. -/
def divS (x y : W64) : W64 := if y = 0#64 then BitVec.allOnes 64 else x.sdiv y
def divU (x y : W64) : W64 := if y = 0#64 then BitVec.allOnes 64 else x.udiv y
def remS (x y : W64) : W64 := if y = 0#64 then x else x.srem y
def remU (x y : W64) : W64 := if y = 0#64 then x else x.umod y

/-- R92: bits [127:64] of the product. -/
def mulHighS (x y : W64) : W64 := ((x.signExtend 128) * (y.signExtend 128)).extractLsb' 64 64
def mulHighU (x y : W64) : W64 := ((x.setWidth 128) * (y.setWidth 128)).extractLsb' 64 64

/-- R93: bit counts, by looking at the bits from the top or the bottom. -/
def leadZeros {w : Nat} (x : BitVec w) : Nat → Nat
  | 0 => 0
  | n + 1 => if x.getLsbD n then 0 else leadZeros x n + 1
def trailZeros {w : Nat} (x : BitVec w) (i : Nat) : Nat → Nat
  | 0 => 0
  | n + 1 => if x.getLsbD i then 0 else trailZeros x (i + 1) n + 1
def onesCount {w : Nat} (x : BitVec w) : Nat → Nat
  | 0 => 0
  | n + 1 => onesCount x n + (if x.getLsbD n then 1 else 0)

/-- R93: extensions of the byte, half-word or word of x. -/
def sextSize (z : BitVec 2) (x : W64) : W64 :=
  match z.toNat with
  | 0 => (x.setWidth 8).signExtend 64
  | 1 => (x.setWidth 16).signExtend 64
  | _ => (x.setWidth 32).signExtend 64
def zextSize (z : BitVec 2) (x : W64) : W64 :=
  match z.toNat with
  | 0 => (x.setWidth 8).setWidth 64
  | 1 => (x.setWidth 16).setWidth 64
  | _ => (x.setWidth 32).setWidth 64

/-- R94: a field of width bits from pos up. -/
def fieldMask (width : Nat) : W64 := BitVec.ofNat 64 (2 ^ width - 1)
def bfxVal (w p : BitVec 6) (x : W64) : W64 := (x >>> p.toNat) &&& fieldMask (w.toNat + 1)
def bfiVal (w p : BitVec 6) (old x : W64) : W64 :=
  let m := fieldMask (w.toNat + 1) <<< p.toNat
  (old &&& ~~~m) ||| ((x <<< p.toNat) &&& m)

/-- R95: a 21-bit immediate in units of 2^15. -/
def upper (i : BitVec 21) : W64 := sext64 i <<< 15

/-! ## Register and register (R90) -/

def execAdd (d a b : Reg) (ta tb : Bool) (s : State) : Result := regReg (fun x y => x + y) d a b ta tb s
def execSub (d a b : Reg) (ta tb : Bool) (s : State) : Result := regReg (fun x y => x - y) d a b ta tb s
def execAnd (d a b : Reg) (ta tb : Bool) (s : State) : Result := regReg (fun x y => x &&& y) d a b ta tb s
def execOr (d a b : Reg) (ta tb : Bool) (s : State) : Result := regReg (fun x y => x ||| y) d a b ta tb s
def execXor (d a b : Reg) (ta tb : Bool) (s : State) : Result := regReg (fun x y => x ^^^ y) d a b ta tb s
def execSll (d a b : Reg) (ta tb : Bool) (s : State) : Result :=
  regReg (fun x y => x <<< (y.toNat % 64)) d a b ta tb s
def execSrl (d a b : Reg) (ta tb : Bool) (s : State) : Result :=
  regReg (fun x y => x >>> (y.toNat % 64)) d a b ta tb s
def execSra (d a b : Reg) (ta tb : Bool) (s : State) : Result :=
  regReg (fun x y => x.sshiftRight (y.toNat % 64)) d a b ta tb s
def execSlt (d a b : Reg) (ta tb : Bool) (s : State) : Result := regReg (fun x y => flagWord (ltS x y)) d a b ta tb s
def execSltu (d a b : Reg) (ta tb : Bool) (s : State) : Result := regReg (fun x y => flagWord (ltU x y)) d a b ta tb s
def execMin (d a b : Reg) (ta tb : Bool) (s : State) : Result :=
  regReg (fun x y => if ltS x y then x else y) d a b ta tb s
def execMax (d a b : Reg) (ta tb : Bool) (s : State) : Result :=
  regReg (fun x y => if ltS x y then y else x) d a b ta tb s
def execMinu (d a b : Reg) (ta tb : Bool) (s : State) : Result :=
  regReg (fun x y => if ltU x y then x else y) d a b ta tb s
def execMaxu (d a b : Reg) (ta tb : Bool) (s : State) : Result :=
  regReg (fun x y => if ltU x y then y else x) d a b ta tb s

/-! ## Multiply and divide (R92) -/

def execMul (d a b : Reg) (ta tb : Bool) (s : State) : Result := regReg (fun x y => x * y) d a b ta tb s
def execMulh (d a b : Reg) (ta tb : Bool) (s : State) : Result := regReg mulHighS d a b ta tb s
def execMulhu (d a b : Reg) (ta tb : Bool) (s : State) : Result := regReg mulHighU d a b ta tb s
def execDiv (d a b : Reg) (ta tb : Bool) (s : State) : Result := regReg divS d a b ta tb s
def execDivu (d a b : Reg) (ta tb : Bool) (s : State) : Result := regReg divU d a b ta tb s
def execRem (d a b : Reg) (ta tb : Bool) (s : State) : Result := regReg remS d a b ta tb s
def execRemu (d a b : Reg) (ta tb : Bool) (s : State) : Result := regReg remU d a b ta tb s

/-! ## Bit counts and extensions (R93) -/

def execClz (d a : Reg) (ta : Bool) (s : State) : Result := regOne (fun x => BitVec.ofNat 64 (leadZeros x 64)) d a ta s
def execCtz (d a : Reg) (ta : Bool) (s : State) : Result :=
  regOne (fun x => BitVec.ofNat 64 (trailZeros x 0 64)) d a ta s
def execPopc (d a : Reg) (ta : Bool) (s : State) : Result := regOne (fun x => BitVec.ofNat 64 (onesCount x 64)) d a ta s
def execSext (d a : Reg) (ta : Bool) (z : BitVec 2) (s : State) : Result := regOne (sextSize z) d a ta s
def execZext (d a : Reg) (ta : Bool) (z : BitVec 2) (s : State) : Result := regOne (zextSize z) d a ta s

/-! ## Register states (R87, R88) -/

/-- R87: MKE makes rd empty and orphaned without waiting; a delivery still to come is discarded. -/
def execMke (d : Reg) (s : State) : Result :=
  .next (s.modCc fun r => { r.orphanReg d with
    flights := if d = 0#5 then r.flights else r.flights.map fun f => if f.rd = d then { f with live := false } else f }).retire

/-- R88: FULL reads a full bit without waiting on it. The spec does not say whether s[a] is looked at before or after
a delivery into rd that FULL waits for (R86): here after, so FULL of its own awaited rd gives 1 (DEDUCED, log entry
48). -/
def execFull (d a : Reg) (s : State) : Result := withDest d s fun s => finish d (flagWord (s.cc.full a)) s

/-! ## Immediates (R91) -/

def execAddi (d a : Reg) (ta : Bool) (i : BitVec 15) (s : State) : Result := regOne (fun x => x + sext64 i) d a ta s
def execAndi (d a : Reg) (ta : Bool) (i : BitVec 15) (s : State) : Result := regOne (fun x => x &&& sext64 i) d a ta s
def execOri (d a : Reg) (ta : Bool) (i : BitVec 15) (s : State) : Result := regOne (fun x => x ||| sext64 i) d a ta s
def execXori (d a : Reg) (ta : Bool) (i : BitVec 15) (s : State) : Result := regOne (fun x => x ^^^ sext64 i) d a ta s
def execSlti (d a : Reg) (ta : Bool) (i : BitVec 15) (s : State) : Result :=
  regOne (fun x => flagWord (ltS x (sext64 i))) d a ta s
def execSltiu (d a : Reg) (ta : Bool) (i : BitVec 15) (s : State) : Result :=
  regOne (fun x => flagWord (ltU x (sext64 i))) d a ta s
def execSlli (d a : Reg) (ta : Bool) (h : BitVec 6) (s : State) : Result := regOne (fun x => x <<< h.toNat) d a ta s
def execSrli (d a : Reg) (ta : Bool) (h : BitVec 6) (s : State) : Result := regOne (fun x => x >>> h.toNat) d a ta s
def execSrai (d a : Reg) (ta : Bool) (h : BitVec 6) (s : State) : Result :=
  regOne (fun x => x.sshiftRight h.toNat) d a ta s

/-! ## Fields and constants (R94, R95) -/

def execBfx (d a : Reg) (ta : Bool) (w p : BitVec 6) (s : State) : Result := regOne (bfxVal w p) d a ta s

/-- R94: BFI also reads rd, always waiting; in the number that an empty-register trap reports (R84) it comes last
(DEDUCED, log entry 45). -/
def execBfi (d a : Reg) (ta : Bool) (w p : BitVec 6) (s : State) : Result :=
  withSrcs [(a, ta), (d, false)] s fun s => finish d (bfiVal w p (s.reg d) (s.reg a)) s

def execLih (d : Reg) (i : BitVec 21) (s : State) : Result := regConst (fun _ => upper i) d s
def execAddpc (d : Reg) (i : BitVec 21) (s : State) : Result := regConst (fun s => s.cc.pc + upper i) d s

end Sys2Proof.Machine
end

