-- ==== Sys2Proof/Machine/Schedule.lean ====
section
/-! DEFINITION. What the next step does: time passes, slot boundaries raise their events, an input of the outside
world comes first, then the device's pending events and the control cores take turns. The order is the model's choice
among those the manual allows (DESIGN CHOICE, log entry 7). Fetching is here too. -/

namespace Sys2Proof.Machine

/-- R278, R253, R281, R286, R315, R228, R447: the events that a new slot raises. -/
def slotEvents (s : State) (was n : Nat) : List Instr :=
  (if s.tasks.any fun t => t.2.st == .ready || t.2.st == .leasing || t.2.st == .booking then [Instr.aging] else []) ++
  (s.alm.filter fun e => decide (e.st = 3 ∧ e.start ≤ n)).map (fun _ => Instr.reservationLapse) ++
  (s.alm.filter fun e => decide (e.st = 1 ∧ e.start ≤ n)).map (fun _ => Instr.dispatch) ++
  (if s.reqs.isEmpty && !s.alm.any (fun e => e.st == 1) then [] else [Instr.placementPass]) ++
  (if s.heldOps.isEmpty then [] else [Instr.homeRetry]) ++
  (if was / 16 ≠ n / 16 then
    (s.queues.filter fun q => (q.2.st == .active || q.2.st == .aborted) && decide (q.2.rd.toNat < q.2.wr.toNat)).map fun q => Instr.lapRetry q.1
   else []) ++
  (s.queues.filter fun q => q.2.packets.any fun p => !p.started).map (fun q => Instr.packetFetch q.1) ++
  (if (s.dev.hot || s.dev.thermCut != 0) && decide (s.dev.hotSlot + 1024 ≤ n) then [Instr.thermalStep (!s.dev.hot)] else []) ++
  (if s.err.last + 2 ^ 30 ≤ 64 * n then [Instr.cerr] else [])

/-- R218, R284, R382: promises that have passed and are not yet raised. -/
def missedEvents (s : State) : List Instr :=
  s.allRuns.flatMap fun r =>
    (r.cmds.filter fun c => r.ending.isNone && !c.missed && c.phase != .done && (match c.prom with | some p => decide (p < s.cyc) | none => false)).map
      fun c => if c.queue = .guest then Instr.guestPromiseMissed else Instr.promiseMissed

/-- R384, R387: deadlines of guest tags that have passed. -/
def guestDeadlines (s : State) : List Instr :=
  s.guests.flatMap fun g => g.2.tags.flatMap fun t =>
    (match t.2.inval with | some c => if c + 6000 < s.cyc then [Instr.invalidationDeadline] else [] | none => []) ++
    (match t.2.preempt with | some c => if c + 150000 < s.cyc then [Instr.preemptDeadline] else [] | none => [])

/-- R218, R281: what the passing of time itself brings, before anything else happens: at a new slot the windows whose last
slot has ended, and promises that have passed. -/
def timeEvents (s : State) (was n : Nat) : List Instr :=
  (if n = was then [] else (s.alm.filter fun e => decide (e.st = 2 ∧ e.last < n)).map fun _ => Instr.windowEnd) ++ missedEvents s

/-- R25: n cycles pass; a slot boundary raises its events. Those of the time itself go before work that is pending and
before the next instruction. -/
def State.tickBy (s : State) (n : Nat) : State :=
  let t := { s with cyc := s.cyc + n }
  let now := timeEvents t s.slot t.slot
  let t1 := if t.slot = s.slot then t else t.pushAll (slotEvents t s.slot t.slot)
  let t2 := t1.pushAll (guestDeadlines t1)
  if now.isEmpty then t2 else { t2 with work := now ++ t2.work, turn := false }

/-- The time a step takes: the head of `pace`, or one cycle (DESIGN CHOICE, log entry 7). -/
def State.begin (s : State) : State :=
  match s.pace with
  | [] => s.tickBy 1
  | n :: ns => { s with pace := ns }.tickBy n

/-- R408: a context that may issue: active on its core, with a window that has not ended, and not giving way. -/
def Run.canRun (r : Run) : Bool := r.task != 0#64 && r.active && r.ending.isNone && !r.yields

/-- The next context that may issue takes its turn. -/
def State.rotate (s : State) : State :=
  match s.runs.span fun r => !r.canRun with
  | (_, []) => s
  | (pre, r :: post) => { s with cc := r, runs := pre ++ post ++ (if s.cc.task = 0#64 then [] else [s.cc]) }

/-- R254, R363: the four bytes at the pc, or the reason they cannot be fetched. -/
def fetchBytes (s : State) : Except Nat (List Byte) :=
  match covered s.cc.lease s.cc.pc.toNat 4 .x with
  | .error r => .error r
  | .ok e =>
    match e.place s.cc.pc.toNat with
    | .phys pa _ => .ok (memBytes s.mem pa 4)
    | .peer _ _ => .error 2

/-- R418: a fetch that meets an uncorrectable error on both attempts. -/
def fetchBad (s : State) : Option Nat :=
  match covered s.cc.lease s.cc.pc.toNat 4 .x with
  | .ok e =>
    match e.place s.cc.pc.toNat with
    | .phys pa _ => s.badAt pa 4
    | .peer _ _ => none
  | .error _ => none

/-- R32, R34: the instruction four bytes hold; a word that is none is the illegal-instruction trap. -/
def instrOf (bs : List Byte) : Instr :=
  match decode bs with
  | .ok (i, _) => i
  | .error _ => .illegalInstruction (BitVec.ofNat 32 (leNat bs))

/-- What a step will do: nothing more, run an instruction, or, where a deferred trap is due at this boundary (R392),
run the instruction only if it raises a precise trap. -/
inductive Plan where
  | idle (s : State)
  | run (i : Instr) (s : State)
  | boundary (d i : Instr) (s : State)

/-- R392: a deferred trap is due at this boundary and no handler runs. -/
def Run.trapDue (r : Run) : Bool := !r.due.isEmpty && !r.sys.hmode && !r.watching

/-- The turn of the context `cc`: fetch, unless it may not issue. A fetch that fails ends the task and is no precise
trap, so a deferred trap that is due goes before it (R392). -/
def ccPlan (s : State) : Plan :=
  if !s.cc.canRun then .idle s
  else if s.paused s.cc then .idle s.giveWay
  else match fetchBytes s, fetchBad s with
    | .ok bs, none =>
      if s.cc.trapDue then .boundary .deferredTrapEntry (instrOf bs) s else .run (instrOf bs) s
    | .ok _, some pa =>
      if s.cc.trapDue then .run .deferredTrapEntry s else .idle (s.memFault s.cc.task pa s.cc.pc 0 4 1)
    | .error r, _ =>
      if s.cc.trapDue then .run .deferredTrapEntry s else .idle (s.ccLeaseFault s.cc.pc 4 1 r)

/-- R421: a soft error leaves a sector that reads as uncorrectable. -/
def State.strike (s : State) (pa : Nat) : State :=
  { s with err := { s.err with bad := s.err.bad ++ [pa / 32 * 32] } }

/-- R418, R419: a task ends by an error in its data that no retry mends. -/
def State.dataEnds (s : State) (h : W64) (pa agent : Nat) : State :=
  let cause := causeWord 0x25 0 0
  let tval := BitVec.ofNat 64 pa
  match s.run? h with
  | some r => s.faultEnd h cause (mkRec s.cyc r cause { ccInfo 0#64 tval with agent := agent })
  | none => if (s.task? h).isSome then s.endUnplaced h cause tval else s

/-- R418 to R422: an uncorrectable error takes its course: an access is repeated once, a round rolled back, once; a task's
kept state ends the task without a retry. -/
def State.uncorrected (s : State) (pa : Nat) (use : DataUse) : State :=
  match use with
  | .access h agent again => if again then (s.errTwice pa).dataEnds h pa agent else s.memErr pa false
  | .round h => match s.run? h with
    | some r => if (r.region.running || r.faultPending) && r.ending.isNone then s.roundError h pa { ccInfo 0#64 0#64 with agent := 1 } else s
    | none => s
  | .kept h => (s.memErr pa false).dataEnds h pa 7

/-- R416 to R421: an error in data under way, which comes from outside (DESIGN CHOICE, log entry 96). What its stage
corrects is logged; what it detects and cannot correct takes its course; of more than it detects the manual says
nothing. -/
def State.dataError (s : State) (e : DataErr) : State :=
  match e with
  | ⟨stage, n, u, pa, use⟩ =>
    match stage.check with
    | none => s
    | some c =>
      if n = 0 ∨ c.detects < n then s
      else if n ≤ c.corrects then s.correctable u pa
      else s.uncorrected pa use

/-- R356: the EP writes the two words of a context entry; a lease already made does not change. -/
def State.writeContext (s : State) (c : BitVec 12) (w0 w1 : W64) : State :=
  { s with ctxs := SMap.ins s.ctxs c.toNat ⟨bit w0 63, fieldAt (bits w0 48 21) 21, w1⟩ }

/-- The choice of the next step: while the EP authenticates its firmware, nothing else (R448); then what comes from outside first, then events and instructions in turn (DESIGN CHOICE, log
entries 7 and 18). -/
def plan (s0 : State) : Plan :=
  if s0.dev.st = 1 then .idle s0.bootStep else
  match s0.inputs with
  | .event i :: rest => .run i { s0 with inputs := rest }
  | .cycles n :: rest => .idle ({ s0 with inputs := rest }.tickBy n)
  | .softError pa :: rest => .idle ({ s0 with inputs := rest }.strike pa)
  | .context c w0 w1 :: rest => .idle ({ s0 with inputs := rest }.writeContext c w0 w1)
  | .peerReply id reason v :: rest => .idle ({ s0 with inputs := rest }.peerReply id reason v)
  | .hostTake pa z :: rest => .idle ({ s0 with inputs := rest }.hostTake pa z)
  | .hostAtomic pa z op v cmp :: rest => .idle ({ s0 with inputs := rest }.hostAtomic pa z op v cmp)
  | .dataError e :: rest => .idle ({ s0 with inputs := rest }.dataError e)
  | .saveDrained fc :: rest => .idle ({ s0 with inputs := rest }.saveDrained fc)
  | .barWrite a v :: rest => .idle { s0 with inputs := (barInstrs s0.dev a v).map .event ++ rest }
  | [] =>
    let s := s0.begin
    if s.turn then ccPlan { s with turn := false }
    else match s.work with
      | [] => ccPlan s.rotate
      | i :: rest => .run i { s.rotate with work := rest, turn := true }

/-- R392: the state as it would be with a handler installed: a precise trap, and nothing else, then enters it. -/
def State.probe (s : State) : State :=
  s.modCc fun r => { r with sys := { r.sys with tvec := if r.sys.tvec = 0#64 then 4#64 else r.sys.tvec } }

/-- R392: the instruction raises a precise trap: run where a handler is installed, it enters it. -/
def entersHandler (h : W64) (after : Host.Outcome State Fault Refusal) : Bool :=
  match after with
  | .next t => (t.run? h).any fun r => r.sys.hmode
  | _ => false

/-- The virtual and physical address at which a placed instruction stands. -/
def placedAt : Nat := 0x10000

/-- A dispatched task whose code page is leased, about to fetch at `placedAt`: what a loader, a LAUNCH and a dispatch
leave behind (DESIGN CHOICE, log entry 8). -/
def placedRun (r : Run) : Run :=
  { r with
    task := 0x10000#64 * 0x10000#64
    active := true
    ending := none
    yields := false
    due := []
    pc := BitVec.ofNat 64 placedAt
    lease := [⟨16, false, false, true, placedAt, 65536, [⟨placedAt, 65536, 5#8, 1, placedAt⟩], none⟩] }

end Sys2Proof.Machine
end

