-- ==== Sys2Proof/Machine/Dispatch.lean ====
section
/-! DEFINITION. One arm per instruction: a direct call of its meaning. -/

namespace Sys2Proof.Machine

def exec (i : Instr) (s : State) : Host.Outcome State Fault Refusal :=
  match i with
  | .add d a b ta tb => Sys2Proof.Machine.execAdd d a b ta tb s
  | .sub d a b ta tb => Sys2Proof.Machine.execSub d a b ta tb s
  | .and d a b ta tb => Sys2Proof.Machine.execAnd d a b ta tb s
  | .or d a b ta tb => Sys2Proof.Machine.execOr d a b ta tb s
  | .xor d a b ta tb => Sys2Proof.Machine.execXor d a b ta tb s
  | .sll d a b ta tb => Sys2Proof.Machine.execSll d a b ta tb s
  | .srl d a b ta tb => Sys2Proof.Machine.execSrl d a b ta tb s
  | .sra d a b ta tb => Sys2Proof.Machine.execSra d a b ta tb s
  | .slt d a b ta tb => Sys2Proof.Machine.execSlt d a b ta tb s
  | .sltu d a b ta tb => Sys2Proof.Machine.execSltu d a b ta tb s
  | .min d a b ta tb => Sys2Proof.Machine.execMin d a b ta tb s
  | .max d a b ta tb => Sys2Proof.Machine.execMax d a b ta tb s
  | .minu d a b ta tb => Sys2Proof.Machine.execMinu d a b ta tb s
  | .maxu d a b ta tb => Sys2Proof.Machine.execMaxu d a b ta tb s
  | .mul d a b ta tb => Sys2Proof.Machine.execMul d a b ta tb s
  | .mulh d a b ta tb => Sys2Proof.Machine.execMulh d a b ta tb s
  | .mulhu d a b ta tb => Sys2Proof.Machine.execMulhu d a b ta tb s
  | .div d a b ta tb => Sys2Proof.Machine.execDiv d a b ta tb s
  | .divu d a b ta tb => Sys2Proof.Machine.execDivu d a b ta tb s
  | .rem d a b ta tb => Sys2Proof.Machine.execRem d a b ta tb s
  | .remu d a b ta tb => Sys2Proof.Machine.execRemu d a b ta tb s
  | .clz d a ta => Sys2Proof.Machine.execClz d a ta s
  | .ctz d a ta => Sys2Proof.Machine.execCtz d a ta s
  | .popc d a ta => Sys2Proof.Machine.execPopc d a ta s
  | .sext d a ta z => Sys2Proof.Machine.execSext d a ta z s
  | .zext d a ta z => Sys2Proof.Machine.execZext d a ta z s
  | .mke d => Sys2Proof.Machine.execMke d s
  | .full d a => Sys2Proof.Machine.execFull d a s
  | .addpc d imm => Sys2Proof.Machine.execAddpc d imm s
  | .addi d a ta imm => Sys2Proof.Machine.execAddi d a ta imm s
  | .andi d a ta imm => Sys2Proof.Machine.execAndi d a ta imm s
  | .ori d a ta imm => Sys2Proof.Machine.execOri d a ta imm s
  | .xori d a ta imm => Sys2Proof.Machine.execXori d a ta imm s
  | .slti d a ta imm => Sys2Proof.Machine.execSlti d a ta imm s
  | .sltiu d a ta imm => Sys2Proof.Machine.execSltiu d a ta imm s
  | .slli d a ta h => Sys2Proof.Machine.execSlli d a ta h s
  | .srli d a ta h => Sys2Proof.Machine.execSrli d a ta h s
  | .srai d a ta h => Sys2Proof.Machine.execSrai d a ta h s
  | .bfx d a ta w p => Sys2Proof.Machine.execBfx d a ta w p s
  | .bfi d a ta w p => Sys2Proof.Machine.execBfi d a ta w p s
  | .lih d imm => Sys2Proof.Machine.execLih d imm s
  | .ld d a ta z o => Sys2Proof.Machine.execLd d a ta z o s
  | .lda d a ta z o => Sys2Proof.Machine.execLda d a ta z o s
  | .st b a ta tb z o => Sys2Proof.Machine.execSt b a ta tb z o s
  | .str b a ta tb z o => Sys2Proof.Machine.execStr b a ta tb z o s
  | .fence e f g h c => Sys2Proof.Machine.execFence e f g h c s
  | .flush a ta o => Sys2Proof.Machine.execFlush a ta o s
  | .beq b a ta tb imm => Sys2Proof.Machine.execBeq b a ta tb imm s
  | .bne b a ta tb imm => Sys2Proof.Machine.execBne b a ta tb imm s
  | .blt b a ta tb imm => Sys2Proof.Machine.execBlt b a ta tb imm s
  | .bge b a ta tb imm => Sys2Proof.Machine.execBge b a ta tb imm s
  | .bltu b a ta tb imm => Sys2Proof.Machine.execBltu b a ta tb imm s
  | .bgeu b a ta tb imm => Sys2Proof.Machine.execBgeu b a ta tb imm s
  | .jal d imm => Sys2Proof.Machine.execJal d imm s
  | .jalr d a ta o => Sys2Proof.Machine.execJalr d a ta o s
  | .loop a ta l => Sys2Proof.Machine.execLoop a ta l s
  | .pause n => Sys2Proof.Machine.execPause n s
  | .atom d a b ta tb o z c => Sys2Proof.Machine.execAtom d a b ta tb o z c s
  | .atomr d a b ta tb n c => Sys2Proof.Machine.execAtomr d a b ta tb n c s
  | .red a b ta tb o z c => Sys2Proof.Machine.execRed a b ta tb o z c s
  | .binit a b ta tb c => Sys2Proof.Machine.execBinit a b ta tb c s
  | .binv a ta c => Sys2Proof.Machine.execBinv a ta c s
  | .arrive d a ta c => Sys2Proof.Machine.execArrive d a ta c s
  | .testph d a b ta tb c => Sys2Proof.Machine.execTestph d a b ta tb c s
  | .waitph d a b ta tb c => Sys2Proof.Machine.execWaitph d a b ta tb c s
  | .sigop d a b ta tb o z c => Sys2Proof.Machine.execSigop d a b ta tb o z c s
  | .watch d a b ta tb m z c => Sys2Proof.Machine.execWatch d a b ta tb m z c s
  | .futrd d a ta z c => Sys2Proof.Machine.execFutrd d a ta z c s
  | .futwr a b ta tb z c => Sys2Proof.Machine.execFutwr a b ta tb z c s
  | .spawn d a b ta tb p r => Sys2Proof.Machine.execSpawn d a b ta tb p r s
  | .depadd a b ta tb => Sys2Proof.Machine.execDepadd a b ta tb s
  | .depdec a b ta tb => Sys2Proof.Machine.execDepdec a b ta tb s
  | .done a ta => Sys2Proof.Machine.execDone a ta s
  | .suspend b tb => Sys2Proof.Machine.execSuspend b tb s
  | .arm a b ta tb k => Sys2Proof.Machine.execArm a b ta tb k s
  | .book d a b ta tb => Sys2Proof.Machine.execBook d a b ta tb s
  | .extend d a ta => Sys2Proof.Machine.execExtend d a ta s
  | .release a ta => Sys2Proof.Machine.execRelease a ta s
  | .issue d a b n => Sys2Proof.Machine.execIssue d a b n s
  | .srr d r => Sys2Proof.Machine.execSrr d r s
  | .srw a r => Sys2Proof.Machine.execSrw a r s
  | .trap n => Sys2Proof.Machine.execTrap n s
  | .lateDelivery k => Sys2Proof.Machine.execLateDelivery k s
  | .cfg k x => Sys2Proof.Machine.execCfg k x s
  | .pbind k x => Sys2Proof.Machine.execPbind k x s
  | .agaff k x => Sys2Proof.Machine.execAgaff k x s
  | .agind k x => Sys2Proof.Machine.execAgind k x s
  | .pstart k x => Sys2Proof.Machine.execPstart k x s
  | .pstop k x => Sys2Proof.Machine.execPstop k x s
  | .pmark k x => Sys2Proof.Machine.execPmark k x s
  | .tidset k x => Sys2Proof.Machine.execTidset k x s
  | .tidclr k x => Sys2Proof.Machine.execTidclr k x s
  | .cbar k x => Sys2Proof.Machine.execCbar k x s
  | .copy k x => Sys2Proof.Machine.execCopy k x s
  | .copym k x => Sys2Proof.Machine.execCopym k x s
  | .gather k x => Sys2Proof.Machine.execGather k x s
  | .scatter k x => Sys2Proof.Machine.execScatter k x s
  | .l2push k x => Sys2Proof.Machine.execL2push k x s
  | .tfetch k x => Sys2Proof.Machine.execTfetch k x s
  | .unpin k x => Sys2Proof.Machine.execUnpin k x s
  | .mmaE4m3 k x => Sys2Proof.Machine.execMmaE4m3 k x s
  | .mmaE5m2 k x => Sys2Proof.Machine.execMmaE5m2 k x s
  | .mmaBf16 k x => Sys2Proof.Machine.execMmaBf16 k x s
  | .mmaF16 k x => Sys2Proof.Machine.execMmaF16 k x s
  | .mmaE2m1 k x => Sys2Proof.Machine.execMmaE2m1 k x s
  | .mmaL6 k x => Sys2Proof.Machine.execMmaL6 k x s
  | .mmazE4m3 k x => Sys2Proof.Machine.execMmazE4m3 k x s
  | .mmazE5m2 k x => Sys2Proof.Machine.execMmazE5m2 k x s
  | .mmazBf16 k x => Sys2Proof.Machine.execMmazBf16 k x s
  | .mmazF16 k x => Sys2Proof.Machine.execMmazF16 k x s
  | .mmazE2m1 k x => Sys2Proof.Machine.execMmazE2m1 k x s
  | .mmazL6 k x => Sys2Proof.Machine.execMmazL6 k x s
  | .mload k x => Sys2Proof.Machine.execMload k x s
  | .mstore k x => Sys2Proof.Machine.execMstore k x s
  | .mscale k x => Sys2Proof.Machine.execMscale k x s
  | .contrib k x => Sys2Proof.Machine.execContrib k x s
  | .cred k x => Sys2Proof.Machine.execCred k x s
  | .signal k x => Sys2Proof.Machine.execSignal k x s
  | .arrivec k x => Sys2Proof.Machine.execArrivec k x s
  | .waitc k x => Sys2Proof.Machine.execWaitc k x s
  | .gqpost k x => Sys2Proof.Machine.execGqpost k x s
  | .commandStart k => Sys2Proof.Machine.execCommandStart k s
  | .commandComplete k => Sys2Proof.Machine.execCommandComplete k s
  | .followOnIssue k => Sys2Proof.Machine.execFollowOnIssue k s
  | .fadd at_ x => Sys2Proof.Machine.execFadd at_ x s
  | .fsub at_ x => Sys2Proof.Machine.execFsub at_ x s
  | .fmul at_ x => Sys2Proof.Machine.execFmul at_ x s
  | .fma at_ x => Sys2Proof.Machine.execFma at_ x s
  | .fmin at_ x => Sys2Proof.Machine.execFmin at_ x s
  | .fmax at_ x => Sys2Proof.Machine.execFmax at_ x s
  | .fabs at_ x => Sys2Proof.Machine.execFabs at_ x s
  | .fneg at_ x => Sys2Proof.Machine.execFneg at_ x s
  | .frcp at_ x => Sys2Proof.Machine.execFrcp at_ x s
  | .frsq at_ x => Sys2Proof.Machine.execFrsq at_ x s
  | .fexp2 at_ x => Sys2Proof.Machine.execFexp2 at_ x s
  | .flog2 at_ x => Sys2Proof.Machine.execFlog2 at_ x s
  | .fcmp at_ x => Sys2Proof.Machine.execFcmp at_ x s
  | .fclass at_ x => Sys2Proof.Machine.execFclass at_ x s
  | .fcvt at_ x => Sys2Proof.Machine.execFcvt at_ x s
  | .hadd2 at_ x => Sys2Proof.Machine.execHadd2 at_ x s
  | .hmul2 at_ x => Sys2Proof.Machine.execHmul2 at_ x s
  | .hfma2 at_ x => Sys2Proof.Machine.execHfma2 at_ x s
  | .hdot2 at_ x => Sys2Proof.Machine.execHdot2 at_ x s
  | .q8dot4 at_ x => Sys2Proof.Machine.execQ8dot4 at_ x s
  | .lmul at_ x => Sys2Proof.Machine.execLmul at_ x s
  | .lacc at_ x => Sys2Proof.Machine.execLacc at_ x s
  | .lcvt at_ x => Sys2Proof.Machine.execLcvt at_ x s
  | .iadd at_ x => Sys2Proof.Machine.execIadd at_ x s
  | .isub at_ x => Sys2Proof.Machine.execIsub at_ x s
  | .imul at_ x => Sys2Proof.Machine.execImul at_ x s
  | .imulh at_ x => Sys2Proof.Machine.execImulh at_ x s
  | .imad at_ x => Sys2Proof.Machine.execImad at_ x s
  | .imin at_ x => Sys2Proof.Machine.execImin at_ x s
  | .imax at_ x => Sys2Proof.Machine.execImax at_ x s
  | .iabs at_ x => Sys2Proof.Machine.execIabs at_ x s
  | .alAnd at_ x => Sys2Proof.Machine.execAlAnd at_ x s
  | .alOr at_ x => Sys2Proof.Machine.execAlOr at_ x s
  | .alXor at_ x => Sys2Proof.Machine.execAlXor at_ x s
  | .not at_ x => Sys2Proof.Machine.execNot at_ x s
  | .shl at_ x => Sys2Proof.Machine.execShl at_ x s
  | .shr at_ x => Sys2Proof.Machine.execShr at_ x s
  | .sar at_ x => Sys2Proof.Machine.execSar at_ x s
  | .icmp at_ x => Sys2Proof.Machine.execIcmp at_ x s
  | .sel at_ x => Sys2Proof.Machine.execSel at_ x s
  | .alPopc at_ x => Sys2Proof.Machine.execAlPopc at_ x s
  | .alClz at_ x => Sys2Proof.Machine.execAlClz at_ x s
  | .hash at_ x => Sys2Proof.Machine.execHash at_ x s
  | .rsum at_ x => Sys2Proof.Machine.execRsum at_ x s
  | .rmax at_ x => Sys2Proof.Machine.execRmax at_ x s
  | .scanl at_ x => Sys2Proof.Machine.execScanl at_ x s
  | .shuf at_ x => Sys2Proof.Machine.execShuf at_ x s
  | .bcast at_ x => Sys2Proof.Machine.execBcast at_ x s
  | .iota at_ x => Sys2Proof.Machine.execIota at_ x s
  | .const at_ x => Sys2Proof.Machine.execConst at_ x s
  | .spld at_ x => Sys2Proof.Machine.execSpld at_ x s
  | .spst at_ x => Sys2Proof.Machine.execSpst at_ x s
  | .spldi at_ x => Sys2Proof.Machine.execSpldi at_ x s
  | .spatom at_ x => Sys2Proof.Machine.execSpatom at_ x s
  | .l1ld at_ x => Sys2Proof.Machine.execL1ld at_ x s
  | .l1st at_ x => Sys2Proof.Machine.execL1st at_ x s
  | .tld at_ x => Sys2Proof.Machine.execTld at_ x s
  | .tst at_ x => Sys2Proof.Machine.execTst at_ x s
  | .park at_ x => Sys2Proof.Machine.execPark at_ x s
  | .scan at_ x => Sys2Proof.Machine.execScan at_ x s
  | .coord at_ x => Sys2Proof.Machine.execCoord at_ x s
  | .isect at_ x => Sys2Proof.Machine.execIsect at_ x s
  | .union at_ x => Sys2Proof.Machine.execUnion at_ x s
  | .repeat at_ x => Sys2Proof.Machine.execRepeat at_ x s
  | .reduce at_ x => Sys2Proof.Machine.execReduce at_ x s
  | .topk at_ x => Sys2Proof.Machine.execTopk at_ x s
  | .spval at_ x => Sys2Proof.Machine.execSpval at_ x s
  | .fork at_ x => Sys2Proof.Machine.execFork at_ x s
  | .filter at_ x => Sys2Proof.Machine.execFilter at_ x s
  | .steer at_ x => Sys2Proof.Machine.execSteer at_ x s
  | .merge at_ x => Sys2Proof.Machine.execMerge at_ x s
  | .recirc at_ x => Sys2Proof.Machine.execRecirc at_ x s
  | .compact at_ x => Sys2Proof.Machine.execCompact at_ x s
  | .order at_ x => Sys2Proof.Machine.execOrder at_ x s
  | .mark at_ x => Sys2Proof.Machine.execMark at_ x s
  | .dusk at_ x => Sys2Proof.Machine.execDusk at_ x s
  | .gate at_ x => Sys2Proof.Machine.execGate at_ x s
  | .retire at_ x => Sys2Proof.Machine.execRetire at_ x s
  | .tagset at_ x => Sys2Proof.Machine.execTagset at_ x s
  | .roundCountExpiry at_ => Sys2Proof.Machine.execRoundCountExpiry at_ s
  | .roundMarker at_ => Sys2Proof.Machine.execRoundMarker at_ s
  | .duskToken at_ => Sys2Proof.Machine.execDuskToken at_ s
  | .roundCommit task => Sys2Proof.Machine.execRoundCommit task s
  | .portEmit p => Sys2Proof.Machine.execPortEmit p s
  | .portRunAhead p => Sys2Proof.Machine.execPortRunAhead p s
  | .portElementLanded p j e => Sys2Proof.Machine.execPortElementLanded p j e s
  | .portRecordWrite p => Sys2Proof.Machine.execPortRecordWrite p s
  | .portIndexRecord p => Sys2Proof.Machine.execPortIndexRecord p s
  | .mbServiceCycle at_ => Sys2Proof.Machine.execMbServiceCycle at_ s
  | .l1LineArrival at_ line => Sys2Proof.Machine.execL1LineArrival at_ line s
  | .preemption task => Sys2Proof.Machine.execPreemption task s
  | .doorbellWrite q v => Sys2Proof.Machine.execDoorbellWrite q v s
  | .lapRetry q => Sys2Proof.Machine.execLapRetry q s
  | .packetFetch q => Sys2Proof.Machine.execPacketFetch q s
  | .pktNop p => Sys2Proof.Machine.execPktNop p s
  | .pktLaunch p => Sys2Proof.Machine.execPktLaunch p s
  | .pktCopy p => Sys2Proof.Machine.execPktCopy p s
  | .pktBarrier p => Sys2Proof.Machine.execPktBarrier p s
  | .pktSignal p => Sys2Proof.Machine.execPktSignal p s
  | .pktGuest p => Sys2Proof.Machine.execPktGuest p s
  | .packetComplete p => Sys2Proof.Machine.execPacketComplete p s
  | .mbcdbWrite v => Sys2Proof.Machine.execMbcdbWrite v s
  | .mbrdbWrite v => Sys2Proof.Machine.execMbrdbWrite v s
  | .hostWrite pa bytes => Sys2Proof.Machine.execHostWrite pa bytes s
  | .peerIngress m => Sys2Proof.Machine.execPeerIngress m s
  | .importRefusal task va reason => Sys2Proof.Machine.execImportRefusal task va reason s
  | .contribAck k status => Sys2Proof.Machine.execContribAck k status s
  | .ringPartial group epoch dest first vals => Sys2Proof.Machine.execRingPartial group epoch dest first vals s
  | .linkRetrain port => Sys2Proof.Machine.execLinkRetrain port s
  | .guestAccess g => Sys2Proof.Machine.execGuestAccess g s
  | .guestCompletion site tag => Sys2Proof.Machine.execGuestCompletion site tag s
  | .guestFaultMessage site tag => Sys2Proof.Machine.execGuestFaultMessage site tag s
  | .invalidationAck site tag => Sys2Proof.Machine.execInvalidationAck site tag s
  | .guestPreemptAnswer site tag ans => Sys2Proof.Machine.execGuestPreemptAnswer site tag ans s
  | .powerGood b => Sys2Proof.Machine.execPowerGood b s
  | .linkenWrite v => Sys2Proof.Machine.execLinkenWrite v s
  | .retryWrite v b => Sys2Proof.Machine.execRetryWrite v b s
  | .devinfoWrite f => Sys2Proof.Machine.execDevinfoWrite f s
  | .thermalStep cool => Sys2Proof.Machine.execThermalStep cool s
  | .illegalInstruction w => Sys2Proof.Machine.execIllegalInstruction w s
  | .guestReauthentication site r => Sys2Proof.Machine.execGuestReauthentication site r s
  | .yield => Sys2Proof.Machine.execYield s
  | .eret => Sys2Proof.Machine.execEret s
  | .deferredTrapEntry => Sys2Proof.Machine.execDeferredTrapEntry s
  | .contextSwitch => Sys2Proof.Machine.execContextSwitch s
  | .promiseMissed => Sys2Proof.Machine.execPromiseMissed s
  | .guestPromiseMissed => Sys2Proof.Machine.execGuestPromiseMissed s
  | .earlyEdge => Sys2Proof.Machine.execEarlyEdge s
  | .homeOperation => Sys2Proof.Machine.execHomeOperation s
  | .homeRetry => Sys2Proof.Machine.execHomeRetry s
  | .aging => Sys2Proof.Machine.execAging s
  | .leaseWalk => Sys2Proof.Machine.execLeaseWalk s
  | .placementPass => Sys2Proof.Machine.execPlacementPass s
  | .dispatch => Sys2Proof.Machine.execDispatch s
  | .windowEnd => Sys2Proof.Machine.execWindowEnd s
  | .reservationLapse => Sys2Proof.Machine.execReservationLapse s
  | .regq => Sys2Proof.Machine.execRegq s
  | .unregq => Sys2Proof.Machine.execUnregq s
  | .resetq => Sys2Proof.Machine.execResetq s
  | .setw => Sys2Proof.Machine.execSetw s
  | .pagein => Sys2Proof.Machine.execPagein s
  | .recall => Sys2Proof.Machine.execRecall s
  | .endtask => Sys2Proof.Machine.execEndtask s
  | .loadrtn => Sys2Proof.Machine.execLoadrtn s
  | .groupset => Sys2Proof.Machine.execGroupset s
  | .readalm => Sys2Proof.Machine.execReadalm s
  | .power => Sys2Proof.Machine.execPower s
  | .attest => Sys2Proof.Machine.execAttest s
  | .unknownCommand => Sys2Proof.Machine.execUnknownCommand s
  | .cerr => Sys2Proof.Machine.execCerr s
  | .invalidationDeadline => Sys2Proof.Machine.execInvalidationDeadline s
  | .preemptDeadline => Sys2Proof.Machine.execPreemptDeadline s
  | .thermalThrottle => Sys2Proof.Machine.execThermalThrottle s
  | .thermalTrip => Sys2Proof.Machine.execThermalTrip s

end Sys2Proof.Machine
end

