-- ==== Sys2Proof/Machine/Step.lean ====
section
/-! DEFINITION. One step of the package. -/

namespace Sys2Proof.Machine

/-- R447: after the thermal trip every clock stands still; only power-good of a new reset is noticed. -/
def stopped (s : State) : Host.Outcome State Fault Refusal :=
  match s.inputs with
  | .event (.powerGood b) :: rest => exec (.powerGood b) { s with inputs := rest }
  | _ :: rest => .next { s with inputs := rest }
  | [] => .fault .clocksStopped

/-- One step: the plan of Schedule.lean, carried out. At a boundary where a deferred trap is due, an instruction that
raises a precise trap goes first (R392). -/
def step (s : State) : Host.Outcome State Fault Refusal :=
  if s.dev.st = 4 then stopped s
  else
    match plan s with
    | .idle t => .next t
    | .run i t => exec i t
    | .boundary d i t =>
      if entersHandler t.cc.task (exec i t.probe) then exec i t else exec d t

/-- The state with a word placed where the next step fetches: a running task with a leased code page (DESIGN CHOICE, log entry 8). -/
def State.withFetchWord (s : State) (_nbits w : Nat) : State :=
  { s with
    cc := placedRun s.cc
    dev := { s.dev with st := 2 }
    mem := memPuts s.mem placedAt (leBytes 4 w)
    inputs := []
    work := []
    turn := true }

end Sys2Proof.Machine
end

