-- ==== Sys2Proof/Safety.lean ====
section
/-! DEFINITION. The terms in which claims are made: what an instruction leaves alone (frames), what it is for a
register to hold a result, when a control core can run an instruction, and which runs are safe. -/

namespace Sys2Proof.Machine

/-! ## Memory -/

/-- Every byte of memory reads as before. -/
def SameBytes (s t : State) : Prop := ∀ a, memByte t.mem a = memByte s.mem a

/-- Every byte outside a range of n bytes reads as before. -/
def SameBytesOutside (pa n : Nat) (s t : State) : Prop :=
  ∀ a, a < pa ∨ pa + n ≤ a → memByte t.mem a = memByte s.mem a

/-- The bytes from an address up read as a list says. -/
def BytesAt (t : State) (pa : Nat) (bs : List Byte) : Prop := ∀ i, ∀ h : i < bs.length, memByte t.mem (pa + i) = bs[i]

/-! ## Registers -/

/-- R83: the registers of a list are all full. -/
def Ready (s : State) (l : List Reg) : Prop := ∀ k ∈ l, s.cc.full k = true

/-- R86: the destination is not awaited. -/
def Free (s : State) (d : Reg) : Prop := s.cc.awaited d = false

/-- R81, R82: a register holds a value and is full; s0 reads 0 whatever was written. -/
def Holds (t : State) (d : Reg) (v : W64) : Prop := t.cc.full d = true ∧ t.reg d = if d = 0#5 then 0#64 else v

/-- Every register but one is as before: value, full bit and pending marker. -/
def SameRegsBut (d : Reg) (s t : State) : Prop := ∀ k, k ≠ d → t.cc.cell k = s.cc.cell k

/-- Every register is as before. -/
def SameRegs (s t : State) : Prop := ∀ k, t.cc.cell k = s.cc.cell k

/-! ## Frames -/

/-- Nothing of the package changes but the context whose turn it is. -/
def OnlyCc (s t : State) : Prop := t = { s with cc := t.cc } ∧ SameBytes s t

/-- Of the context in turn, nothing changes but registers, pc, loop stack and stall count: system registers, tensor
entries, commands, ports, region, tiles and lease are as before. -/
def OnlyRegsPc (s t : State) : Prop :=
  OnlyCc s t ∧ t.cc = { s.cc with regs := t.cc.regs, pc := t.cc.pc, loops := t.cc.loops, stall := t.cc.stall }

/-- R258: where the pc goes and what becomes of the loop stack when an instruction completes without a taken transfer.
Where no loop ends at the pc, it moves to the next word. Entries that end elsewhere keep their places; of those that end
here the ones above the first with a count above 1 had a count of 1 or less and are popped, and that one goes round. -/
def GoesOn (s t : State) : Prop :=
  (∀ pre e post, s.cc.loops = pre ++ e :: post → e.fin = s.cc.pc → 1 < e.left →
    (∀ x ∈ pre, x.fin = s.cc.pc → x.left ≤ 1) →
    t.cc.pc = e.start ∧
    t.cc.loops = (pre.filter fun x => decide (x.fin ≠ s.cc.pc)) ++ { e with left := e.left - 1 } :: post) ∧
  ((∀ x ∈ s.cc.loops, x.fin = s.cc.pc → x.left ≤ 1) →
    t.cc.pc = s.cc.pc + 4#64 ∧ t.cc.loops = s.cc.loops.filter fun x => decide (x.fin ≠ s.cc.pc))

/-- The effect and the frame of an instruction that writes one register and goes on. -/
def Writes (s t : State) (d : Reg) (v : W64) : Prop :=
  Holds t d v ∧ SameRegsBut d s t ∧ OnlyRegsPc s t ∧ GoesOn s t

/-- The frame of a late producer (R85): rd is empty and awaited, unless it is s0; one delivery is noted. -/
def Awaits (s t : State) (d : Reg) (val : Option W64) : Prop :=
  (d ≠ 0#5 → t.cc.awaited d = true) ∧ SameRegsBut d s t ∧
  t.cc.flights = s.cc.flights ++ [⟨s.cc.nextId, d, d != 0#5, val⟩] ∧
  t.cc = { s.cc with regs := t.cc.regs, pc := t.cc.pc, loops := t.cc.loops, stall := t.cc.stall,
                     flights := t.cc.flights, nextId := s.cc.nextId + 1 } ∧ GoesOn s t

/-- An instruction that cannot issue: it stands where it stood, and only the count of such cycles rises; after 16 of
them the context gives way (R408). -/
def Waits (s t : State) : Prop :=
  t.cc.pc = s.cc.pc ∧ t.cc.stall = s.cc.stall + 1 ∧ SameRegs s t ∧
  t.cc = { s.cc with stall := t.cc.stall, yields := t.cc.yields } ∧
  t = { s with cc := t.cc, work := t.work } ∧ SameBytes s t

/-- R391: entry into the handler of the context in turn, and nothing else. -/
def Enters (s t : State) (cause epc tval : W64) : Prop :=
  t.cc.pc = s.cc.sys.tvec ∧ t.cc.loops = [] ∧ t.cc.aside = s.cc.loops ∧
  t.cc.sys = { s.cc.sys with cause := cause, epc := epc, tval := tval, hmode := true, frec := t.cc.sys.frec } ∧
  t.cc = { s.cc with pc := t.cc.pc, loops := t.cc.loops, aside := t.cc.aside, sys := t.cc.sys, stall := t.cc.stall } ∧
  SameRegs s t ∧ OnlyCc s t

/-- R391: a handler is set and none runs, so a trap enters it. -/
def CanEnter (s : State) : Prop := s.cc.sys.tvec ≠ 0#64 ∧ s.cc.sys.hmode = false

/-! ## Safe runs -/

/-- Memory is in canonical form: what every step keeps. -/
def MemoryOk (s : State) : Prop := Memory.wf s.mem = true

/-- The machine goes on: the step answers a next state. -/
def GoesTo (s t : State) : Prop := step s = .next t

/-- States reachable from another by steps. -/
inductive Reaches (s : State) : State → Prop where
  | here : Reaches s s
  | step {t u : State} : Reaches s t → GoesTo t u → Reaches s u

/-- A run from s is safe when no state it reaches stops the machine or loses the form of memory. -/
def SafeFrom (s : State) : Prop := ∀ t, Reaches s t → MemoryOk t ∧ ∀ f, step t ≠ .fault f

end Sys2Proof.Machine
end

