-- ==== Sys2Proof/Certificates/Slice0/Obligations.lean ====
section
/-! DEFINITION. The statements for the provers: what the manual's rules say the machine does. Helper definitions
stand in the namespace `Claims`; each statement's docstring names the rules it formalises. -/

namespace Sys2Proof.Machine.Claims

/-! ## What the arithmetic instructions compute, over the integers (R89 to R95) -/

/-- R89: an exact result kept modulo 2^64. -/
def keepI (v : Int) : W64 := BitVec.ofInt 64 v
def keepN (v : Nat) : W64 := BitVec.ofNat 64 v

/-- R92: the quotient and remainder of `Divide`. -/
def quotS (x y : W64) : W64 := if y = 0#64 then BitVec.allOnes 64 else keepI (x.toInt.tdiv y.toInt)
def quotU (x y : W64) : W64 := if y = 0#64 then BitVec.allOnes 64 else keepN (x.toNat / y.toNat)
def remainS (x y : W64) : W64 := if y = 0#64 then x else keepI (x.toInt.tmod y.toInt)
def remainU (x y : W64) : W64 := if y = 0#64 then x else keepN (x.toNat % y.toNat)

/-- R90, R92: the instructions with two sources and what each writes. -/
def twoSource : List ((Reg → Reg → Reg → Bool → Bool → Instr) × (W64 → W64 → W64)) := [
  (Instr.add, fun x y => keepI (x.toInt + y.toInt)),
  (Instr.sub, fun x y => keepI (x.toInt - y.toInt)),
  (Instr.and, fun x y => x &&& y),
  (Instr.or, fun x y => x ||| y),
  (Instr.xor, fun x y => x ^^^ y),
  (Instr.sll, fun x y => keepN (x.toNat * 2 ^ (y.toNat % 64))),
  (Instr.srl, fun x y => keepN (x.toNat / 2 ^ (y.toNat % 64))),
  (Instr.sra, fun x y => keepI (x.toInt / 2 ^ (y.toNat % 64))),
  (Instr.slt, fun x y => if x.toInt < y.toInt then 1#64 else 0#64),
  (Instr.sltu, fun x y => if x.toNat < y.toNat then 1#64 else 0#64),
  (Instr.min, fun x y => keepI (min x.toInt y.toInt)),
  (Instr.max, fun x y => keepI (max x.toInt y.toInt)),
  (Instr.minu, fun x y => keepN (min x.toNat y.toNat)),
  (Instr.maxu, fun x y => keepN (max x.toNat y.toNat)),
  (Instr.mul, fun x y => keepI (x.toInt * y.toInt)),
  (Instr.mulh, fun x y => keepI (x.toInt * y.toInt / 2 ^ 64)),
  (Instr.mulhu, fun x y => keepN (x.toNat * y.toNat / 2 ^ 64)),
  (Instr.div, quotS),
  (Instr.divu, quotU),
  (Instr.rem, remainS),
  (Instr.remu, remainU)]

/-- R91: the immediate operations. -/
def oneImmediate : List ((Reg → Reg → Bool → BitVec 15 → Instr) × (W64 → BitVec 15 → W64)) := [
  (Instr.addi, fun x i => keepI (x.toInt + i.toInt)),
  (Instr.andi, fun x i => x &&& keepI i.toInt),
  (Instr.ori, fun x i => x ||| keepI i.toInt),
  (Instr.xori, fun x i => x ^^^ keepI i.toInt),
  (Instr.slti, fun x i => if x.toInt < i.toInt then 1#64 else 0#64),
  (Instr.sltiu, fun x i => if x.toNat < (keepI i.toInt).toNat then 1#64 else 0#64)]

/-- R91: the shifts by an immediate. -/
def oneShift : List ((Reg → Reg → Bool → BitVec 6 → Instr) × (W64 → BitVec 6 → W64)) := [
  (Instr.slli, fun x h => keepN (x.toNat * 2 ^ h.toNat)),
  (Instr.srli, fun x h => keepN (x.toNat / 2 ^ h.toNat)),
  (Instr.srai, fun x h => keepI (x.toInt / 2 ^ h.toNat))]

/-- R93: n is the number of leading zero bits, of trailing zero bits, of one bits. -/
def IsLeading (x : W64) (n : Nat) : Prop := n ≤ 64 ∧ (∀ i, i < n → x.getMsbD i = false) ∧ (n < 64 → x.getMsbD n = true)
def IsTrailing (x : W64) (n : Nat) : Prop := n ≤ 64 ∧ (∀ i, i < n → x.getLsbD i = false) ∧ (n < 64 → x.getLsbD n = true)
def IsOnes (x : W64) (n : Nat) : Prop := n = ((List.range 64).filter fun i => x.getLsbD i).length

/-- R93: the bits of an extension of size 2^z bytes. -/
def extBits (z : BitVec 2) : Nat := 8 * 2 ^ z.toNat

/-- R93, R94: the instructions with one source and no memory, and a test of what each writes. -/
inductive OneSource (d a : Reg) (ta : Bool) : Instr → (W64 → W64 → Prop) → Prop where
  | clz : OneSource d a ta (.clz d a ta) fun x v => ∃ n, IsLeading x n ∧ v = keepN n
  | ctz : OneSource d a ta (.ctz d a ta) fun x v => ∃ n, IsTrailing x n ∧ v = keepN n
  | popc : OneSource d a ta (.popc d a ta) fun x v => ∃ n, IsOnes x n ∧ v = keepN n
  | sext (z : BitVec 2) (h : z.toNat ≤ 2) :
      OneSource d a ta (.sext d a ta z) fun x v => v = keepI ((x.toNat : Int).bmod (2 ^ extBits z))
  | zext (z : BitVec 2) (h : z.toNat ≤ 2) :
      OneSource d a ta (.zext d a ta z) fun x v => v = keepN (x.toNat % 2 ^ extBits z)
  | bfx (w p : BitVec 6) (h : p.toNat + (w.toNat + 1) ≤ 64) :
      OneSource d a ta (.bfx d a ta w p) fun x v => v = keepN (x.toNat / 2 ^ p.toNat % 2 ^ (w.toNat + 1))

/-- R256: the branches and their conditions. -/
def branches : List ((Reg → Reg → Bool → Bool → BitVec 14 → Instr) × (W64 → W64 → Prop)) := [
  (Instr.beq, fun x y => x = y),
  (Instr.bne, fun x y => x ≠ y),
  (Instr.blt, fun x y => x.toInt < y.toInt),
  (Instr.bge, fun x y => y.toInt ≤ x.toInt),
  (Instr.bltu, fun x y => x.toNat < y.toNat),
  (Instr.bgeu, fun x y => y.toNat ≤ x.toNat)]

/-! ## Control flow -/

/-- R258: a taken transfer: the pc is at the target, and every entry whose body does not contain it is popped. -/
def LeavesTo (s t : State) (v : W64) : Prop :=
  t.cc.pc = v ∧ t.cc.loops = s.cc.loops.filter fun e => decide (e.start ≤ v ∧ v ≤ e.fin)

/-- R259, R408: the context gives way and goes on; the switch of its core is the next event it causes. -/
def Yields (s t : State) : Prop :=
  t.cc.yields = true ∧ t.work = s.work ++ [.contextSwitch] ∧ SameRegs s t ∧ GoesOn s t ∧ SameBytes s t ∧
  t = { s with cc := t.cc, work := t.work } ∧
  t.cc = { s.cc with yields := t.cc.yields, pauseTo := t.cc.pauseTo, pc := t.cc.pc, loops := t.cc.loops, stall := t.cc.stall }

/-! ## System registers (R399) -/

/-- R399: the allocated system registers and the value each reads as. -/
inductive SysReg (s : State) : BitVec 12 → W64 → Prop where
  | cyc : SysReg s 0x000#12 (keepN s.cyc)
  | slot : SysReg s 0x001#12 (keepN (s.cyc % 2 ^ 64 / 64))
  | task : SysReg s 0x002#12 s.cc.task
  | place : SysReg s 0x003#12 s.cc.place
  | seed : SysReg s 0x004#12 s.cc.sys.seed
  | tvec : SysReg s 0x008#12 s.cc.sys.tvec
  | cause : SysReg s 0x009#12 s.cc.sys.cause
  | epc : SysReg s 0x00A#12 s.cc.sys.epc
  | tval : SysReg s 0x00B#12 s.cc.sys.tval
  | tstat : SysReg s 0x00C#12 (if s.cc.sys.hmode then 1#64 else 0#64)
  | csig : SysReg s 0x010#12 s.cc.sys.csig
  | wbar : SysReg s 0x011#12 s.cc.sys.wbar
  | wtok : SysReg s 0x012#12 s.cc.sys.wtok
  | frec (n : Nat) (h : n < 8) : SysReg s (BitVec.ofNat 12 (0x020 + n)) (s.cc.sys.frec.toList.getD n 0#64)

/-! ## The end of a task -/

/-- The task in turn has a record, no parent, no completion record, no command, no guest work and nobody that waits for
its end; no other context holds it. -/
def EndsAlone (s : State) : Prop :=
  ∃ x, s.task? s.cc.task = some x ∧ x.crec = 0#64 ∧ x.parent = 0#64 ∧ s.cc.cmds = [] ∧ s.cc.ending = none ∧
    (∀ e ∈ s.tasks, e.2.arms = []) ∧ SMap.risesFrom 0 s.tasks = true ∧ (∀ r ∈ s.runs, r.task ≠ s.cc.task) ∧
    s.queues = []

/-! ## Accesses of the control core -/

/-- R183, R363: an access of n bytes at an address may go: it is aligned, the lease grants the right on it, nothing
of the context is still on its way, and the byte is in this device's memory. -/
def Granted (s : State) (ea : W64) (n : Nat) (right : Right) (e : Extent) (pa : Nat) : Prop :=
  ea.toNat % n = 0 ∧ covered s.cc.lease ea.toNat n right = .ok e ∧ ccBusy s = false ∧ ∃ attr, e.place ea.toNat = .phys pa attr

/-- R33: the effective address of a base register and a signed offset. -/
def addrOf {w : Nat} (s : State) (a : Reg) (o : BitVec w) : W64 := keepI ((s.reg a).toNat + o.toInt)

/-- No valid barrier object has one of its 40 bytes in a range (R235, R242). -/
def ClearOfBarriers (s : State) (pa n : Nat) : Prop := ∀ b ∈ s.bars, pa + n ≤ b.pa ∨ b.pa + 40 ≤ pa

/-- Every byte reads as before but those of a range and those of valid barrier objects, which a write at their home may
strike or be counted by (R239, R242). -/
def StoresOnly (s t : State) (pa n : Nat) : Prop :=
  ∀ x, x < pa ∨ pa + n ≤ x → (∀ b ∈ s.bars, x < b.pa ∨ b.pa + 40 ≤ x) → memByte t.mem x = memByte s.mem x

/-! ## Synchronisation (R227 to R248) -/

/-- R229, R231, R233, R234, R241, R245, R246: the operation each synchronisation instruction sends to the home of its
word: its sources, what it needs of its address, its scope, address, destination, word size and operation. -/
inductive Sends (s : State) : Instr → List Reg → SyncNeed → BitVec 3 → W64 → Option Reg → Bool → HomeKind → Prop where
  | atom (d a b : Reg) (ta tb : Bool) (o : BitVec 4) (z : Bool) (c : BitVec 3) (h : c ≠ 1#3) (ho : o.toNat ≤ 8) :
      Sends s (.atom d a b ta tb o z c) [a, b] ⟨wordLen z, wordLen z, true, true, o == 0#4 || o == 8#4⟩ c (s.reg a)
        (some d) z (.atom o.toNat (s.reg b) (s.reg d) c.toNat)
  | cas (d a b : Reg) (ta tb : Bool) (z : Bool) (c : BitVec 3) (h : c ≠ 1#3) :
      Sends s (.atom d a b ta tb 9#4 z c) [a, b, d] ⟨wordLen z, wordLen z, true, true, true⟩ c (s.reg a)
        (some d) z (.atom 9 (s.reg b) (s.reg d) c.toNat)
  | red (a b : Reg) (ta tb : Bool) (o : BitVec 4) (z : Bool) (c : BitVec 3) :
      Sends s (.red a b ta tb o z c) [a, b] ⟨wordLen z, wordLen z, false, true, o == 0#4⟩ c (s.reg a)
        none z (.atom o.toNat (s.reg b) 0#64 c.toNat)
  | atomr (d a b : Reg) (ta tb : Bool) (n : BitVec 6) (c : BitVec 3) :
      Sends s (.atomr d a b ta tb n c) [a, b] ⟨8, 8, true, true, false⟩ c (s.reg a)
        (some d) true (.atomr n.toNat s.cc.ctx (s.reg b))
  | sigop (d a b : Reg) (ta tb : Bool) (o : BitVec 3) (z : Bool) (c : BitVec 3) :
      Sends s (.sigop d a b ta tb o z c) [a, b] ⟨wordLen z, wordLen z, true, true, decide (o.toNat ≤ 2)⟩ c (s.reg a)
        (some d) z (.sigop o.toNat (s.reg b) c.toNat)
  | binit (a b : Reg) (ta tb : Bool) (c : BitVec 3) (h : 0 < (s.reg b).toNat ∧ (s.reg b).toNat < 2 ^ 32) :
      Sends s (.binit a b ta tb c) [a, b] ⟨64, 40, true, true, false⟩ c (s.reg a)
        none true (.binit false ((s.reg b).setWidth 32) c.toNat 0 0)
  | binv (a : Reg) (ta : Bool) (c : BitVec 3) :
      Sends s (.binv a ta c) [a] ⟨64, 40, true, true, false⟩ c (s.reg a) none true .binv
  | arrive (d a : Reg) (ta : Bool) (c : BitVec 3) :
      Sends s (.arrive d a ta c) [a] ⟨64, 40, true, true, false⟩ c (s.reg a) (some d) true .arrive
  | testph (d a b : Reg) (ta tb : Bool) (c : BitVec 3) :
      Sends s (.testph d a b ta tb c) [a, b] ⟨64, 40, true, true, false⟩ c (s.reg a) (some d) true (.testph (s.reg b))
  | waitph (d a b : Reg) (ta tb : Bool) (c : BitVec 3) :
      Sends s (.waitph d a b ta tb c) [a, b] ⟨64, 40, true, true, false⟩ c (s.reg a) (some d) true (.waitph (s.reg b))
  | watch (d a b : Reg) (ta tb : Bool) (m : BitVec 4) (z : Bool) (c : BitVec 3) :
      Sends s (.watch d a b ta tb m z c) [a, b, d] ⟨wordLen z, wordLen z, true, false, false⟩ c (s.reg a)
        none z (.watch m.toNat (s.reg d) (s.reg b))
  | futrd (d a : Reg) (ta : Bool) (z : Bool) (c : BitVec 3) :
      Sends s (.futrd d a ta z c) [a] ⟨wordLen z, wordLen z, true, false, false⟩ c (s.reg a) (some d) z .futrd
  | futwr (a b : Reg) (ta tb : Bool) (z : Bool) (c : BitVec 3) :
      Sends s (.futwr a b ta tb z c) [a, b] ⟨wordLen z, wordLen z, false, true, false⟩ c (s.reg a)
        none z (.futwr (s.reg b))

/-- R231: the new value of a word of w bits. -/
def atomValue (op w : Nat) (old v cmp : BitVec w) : BitVec w :=
  match op with
  | 0 => old + v
  | 1 => old &&& v
  | 2 => old ||| v
  | 3 => old ^^^ v
  | 4 => if v.toInt < old.toInt then v else old
  | 5 => if old.toInt < v.toInt then v else old
  | 6 => if v.toNat < old.toNat then v else old
  | 7 => if old.toNat < v.toNat then v else old
  | 8 => v
  | _ => if old = cmp then v else old

/-- R234: the new value of a signal word of w bits. -/
def signalValue (op w : Nat) (old v : BitVec w) : BitVec w :=
  match op with
  | 0 => v
  | 1 => old + v
  | 2 => old - v
  | 3 => old ||| v
  | _ => old &&& v

/-- The bits of a word. -/
def wordBits (z : Bool) : Nat := if z then 64 else 32

/-- The word at an address. -/
def wordAt (s : State) (z : Bool) (pa : Nat) : BitVec (wordBits z) := BitVec.ofNat _ (leNat (memBytes s.mem pa (wordLen z)))

/-- R230: a delivered word is sign-extended to 64 bits. -/
def deliveredWord (z : Bool) (x : BitVec (wordBits z)) : W64 := x.signExtend 64

/-- The value of a late producer is fixed, and its delivery is an event to come (R85, R86). -/
def Delivers (s t : State) (h : W64) (f : Nat) (v : W64) : Prop :=
  .lateDelivery ⟨h, f⟩ ∈ t.work ∧
  ∀ r, s.run? h = some r → ∀ u, t.run? h = some u → ∀ g ∈ r.flights, g.id = f → { g with val := some v } ∈ u.flights

/-- Nothing watches a range: no valid barrier object lies in it or counts it, and no vigil entry looks at it. -/
def Unwatched (s : State) (pa n : Nat) : Prop :=
  ClearOfBarriers s pa n ∧ (∀ b ∈ s.bars, b.counting = true → overlap pa n b.rpa b.rlen = 0) ∧
  ∀ v ∈ s.vigils, overlap pa n v.pa (if v.size8 then 8 else 4) = 0

/-- The state after bytes have landed where nothing watches: memory, the sectors they heal (R421) and the copies of their
lines that a host (R378) or an L1 (R166) held change. -/
def Landed (s : State) (pa : Nat) (bs : List Byte) : State :=
  { s with mem := memPuts s.mem pa bs,
           err := { s.err with bad := s.err.bad.filter fun b => !decide (pa ≤ b ∧ b + 32 ≤ pa + bs.length) },
           hostHeld := recallHost s.hostHeld pa bs.length, l1 := invalidate s.l1 pa bs.length }

/-- The copies a host and the L1s hold may only become fewer, by lines that a write reached (R166, R378). -/
def CopiesFewer (s t : State) : Prop := (∀ c ∈ t.hostHeld, c ∈ s.hostHeld) ∧ ∀ c ∈ t.l1, c ∈ s.l1

/-- Everything but memory, healed sectors, copies of written lines and the context in turn. -/
def SameButMemoryAndCc (s t : State) : Prop :=
  t = { s with cc := t.cc, mem := t.mem, err := { s.err with bad := t.err.bad }, hostHeld := t.hostHeld, l1 := t.l1 } ∧
  CopiesFewer s t

/-- An operation of a context that asks for a word, with or without the page's SA bit, and whose value goes to a late
producer of that context. -/
def opOf (z : Bool) (pa : Nat) (sa : Bool) (kind : HomeKind) (r : Run) (f : Flight) : HomeOp :=
  ⟨homeDie pa, pa, z, sa, kind, .cc r.task f.id⟩

/-- Such an operation stands first among those that have reached their home; the home has room for it (R228), holds none
back for the same word, and finds no uncorrectable error in it. -/
def FirstAtHome (s : State) (z : Bool) (pa : Nat) (kind : HomeKind) (r : Run) (f : Flight) : Prop :=
  (∃ sa rest, s.homes = opOf z pa sa kind r f :: rest ∧ s.roomFor (opOf z pa sa kind r f) = true ∧
    s.badAt pa (opOf z pa sa kind r f).span = none) ∧
  (∀ x ∈ s.heldOps, x.pa ≠ pa) ∧ s.run? r.task = some r ∧ f ∈ r.flights

/-- R228: such an operation is the only one its home holds back, the home has room for it now and finds no error in its word. -/
def HeldAtHome (s : State) (z : Bool) (pa : Nat) (kind : HomeKind) (r : Run) (f : Flight) : Prop :=
  (∃ sa, s.heldOps = [opOf z pa sa kind r f] ∧ s.roomFor (opOf z pa sa kind r f) = true ∧
    s.badAt pa (opOf z pa sa kind r f).span = none) ∧
  s.run? r.task = some r ∧ f ∈ r.flights

/-- A late producer has its value, and its delivery is an event to come. -/
def Got (t : State) (r : Run) (f : Flight) (v : W64) : Prop :=
  .lateDelivery ⟨r.task, f.id⟩ ∈ t.work ∧ ∀ u, t.run? r.task = some u → { f with val := some v } ∈ u.flights

/-- The operation that stood first is gone, and its late producer has its value. -/
def Answered (s t : State) (r : Run) (f : Flight) (v : W64) : Prop := t.homes = s.homes.tail ∧ Got t r f v

/-- R237, R241: what a test of a phase answers: 2 for an object that is not valid, 3 for a token of more than 16 bits or
neither, 1 when the open phase is 1 to 32,768 past the token, 0 when it is the token's or one before. -/
def PhaseAnswer (s : State) (pa : Nat) (tok v : W64) : Prop :=
  ((∀ b ∈ s.bars, b.pa ≠ pa) ∧ v = 2#64) ∨
  ((∃ b ∈ s.bars, b.pa = pa) ∧
    let n := ((barPhase s pa).toNat + 2 ^ 16 - tok.toNat % 2 ^ 16) % 2 ^ 16
    ((2 ^ 16 ≤ tok.toNat ∧ v = 3#64) ∨
     (tok.toNat < 2 ^ 16 ∧ 1 ≤ n ∧ n ≤ 32768 ∧ v = 1#64) ∨
     (tok.toNat < 2 ^ 16 ∧ (n = 0 ∨ n = 65535) ∧ v = 0#64) ∨
     (tok.toNat < 2 ^ 16 ∧ 32768 < n ∧ n < 65535 ∧ v = 3#64)))

/-- R183: the loads and stores of a control core, with the base register, address, size and right of each. -/
inductive CoreAccess (s : State) : Instr → Reg → W64 → Nat → Right → List Reg → Prop where
  | ld (d a : Reg) (ta : Bool) (z : BitVec 2) (o : BitVec 13) :
      CoreAccess s (.ld d a ta z o) a (addrOf s a o) (2 ^ z.toNat) .r [a]
  | lda (d a : Reg) (ta : Bool) (z : BitVec 2) (o : BitVec 13) :
      CoreAccess s (.lda d a ta z o) a (addrOf s a o) (2 ^ z.toNat) .r [a]
  | st (b a : Reg) (ta tb : Bool) (z : BitVec 2) (o : BitVec 12) :
      CoreAccess s (.st b a ta tb z o) a (addrOf s a o) (2 ^ z.toNat) .w [a, b]
  | str (b a : Reg) (ta tb : Bool) (z : BitVec 2) (o : BitVec 12) :
      CoreAccess s (.str b a ta tb z o) a (addrOf s a o) (2 ^ z.toNat) .w [a, b]

/-! ## Tasks (R249 to R288) -/

/-- The record of one task becomes y; no other record changes. -/
def TaskBecomes (s t : State) (h : W64) (y : TaskRec) : Prop :=
  t.task? h = some y ∧ ∀ k, k ≠ handleKey h → SMap.get? t.tasks k = SMap.get? s.tasks k

/-- Of the package nothing changes but the context in turn, task records and pending events; of the context, its
registers, late producers, pc, loop stack and counts. -/
def OnlyTasks (s t : State) : Prop :=
  t = { s with cc := t.cc, tasks := t.tasks, work := t.work } ∧
  t.cc = { s.cc with regs := t.cc.regs, pc := t.cc.pc, loops := t.cc.loops, stall := t.cc.stall,
                     flights := t.cc.flights, nextId := t.cc.nextId }

/-- R252, R263: a task whose COUNT is c now: a waiting one that has reached 0 is ready, and the lease units are asked. -/
def Counted (s t : State) (h : W64) (x : TaskRec) (c : Nat) : Prop :=
  if x.st = .waiting ∧ c = 0 then
    TaskBecomes s t h { x with count := c, st := .ready, readyAt := s.cyc, eprio := x.prio } ∧
    t.work = s.work ++ [.leaseWalk]
  else TaskBecomes s t h { x with count := c } ∧ t.work = s.work

/-- The n bytes of an extent from an address on lie at consecutive physical addresses. -/
def FlatAt (e : Extent) (ea n pa : Nat) : Prop := ∀ i, i < n → ∃ attr, e.place (ea + i) = .phys (pa + i) attr

/-- The n bytes of a context's addresses from va on lie at consecutive writable physical addresses, in every memory that
differs from this one only there. -/
def MappedFlat (s : State) (c : CtxEnt) (va n pa : Nat) : Prop :=
  ∀ m, (∀ a, a < pa ∨ pa + n ≤ a → memByte m a = memByte s.mem a) →
    ∀ i, i < n → ∃ attr, ctxPlace m c (va + i) .w = some (.phys (pa + i) attr)

/-- R260: the values of REGS in a child's record: the template's, with the argument at s3's place. -/
def ChildRegs (ws : List W64) (arg : W64) (y : TaskRec) : Prop :=
  let own := (List.range 32).filter fun k => decide (k ≠ 0) && (tw ws 5).getLsbD (32 + k)
  (∀ j k : Nat, (j, k) ∈ own.zip (List.range 16) → j ≠ 3 →
    ∃ p : Nat, (liveRegs y.live)[p]? = some j ∧ y.regs[p]? = some (tw ws (8 + k))) ∧
  (∃ p : Nat, (liveRegs y.live)[p]? = some 3 ∧ y.regs[p]? = some arg) ∧
  ∀ k, k < 32 → y.live.getLsbD k = ((tw ws 5).getLsbD (32 + k) || k == 3)

/-- The task in turn, as EndsAlone has it, but with a completion record. -/
def EndsWithRecord (s : State) (crec : W64) (x : TaskRec) : Prop :=
  s.task? s.cc.task = some x ∧ x.crec = crec ∧ crec ≠ 0#64 ∧ x.parent = 0#64 ∧ s.cc.cmds = [] ∧ s.cc.ending = none ∧
    (∀ e ∈ s.tasks, e.2.arms = []) ∧ SMap.risesFrom 0 s.tasks = true ∧ (∀ r ∈ s.runs, r.task ≠ s.cc.task) ∧
    s.queues = []

/-- R252, R254: the window of the task in turn is over: no context holds it, and its started and entered slots are
free. -/
def WindowOver (s t : State) (h : W64) : Prop :=
  t.run? h = none ∧ (∀ e ∈ t.alm, e.handle = h → e.st = 3) ∧ (∀ e ∈ s.alm, e.handle ≠ h → e ∈ t.alm) ∧
  .placementPass ∈ t.work ∧ .contextSwitch ∈ t.work

/-- Nothing of the package changes but the context in turn, the calendar with its requests and claim, and pending events. -/
def OnlyCalendar (s t : State) : Prop :=
  t = { s with cc := t.cc, alm := t.alm, reqs := t.reqs, claim := t.claim, work := t.work, turn := t.turn }

/-- R411: of the task records nothing changes but whether a task holds a save area. -/
def OnlyAreas (s t : State) : Prop :=
  ∀ k, match SMap.get? s.tasks k, SMap.get? t.tasks k with
    | some x, some y => y = { x with area := y.area }
    | none, none => True
    | _, _ => False

/-- R411: the task of a grant of cells or tiles holds a save area. -/
def AreaHeld (t : State) (e : AlmEnt) : Prop := e.rgn = true ∨ e.tiles ≠ 0 → ∀ y, t.task? e.handle = some y → y.area ≠ none

/-- R280: a started window, at its placement. -/
def Started (s : State) (e : AlmEnt) : Prop := startedEnt s s.cc.task = some e

/-- R287: whether EXTEND by x slots is granted. -/
def CanExtend (s : State) (e : AlmEnt) (x : Nat) : Prop :=
  0 < x ∧ s.slot ≤ e.last ∧ e.handle ∉ s.overrun ∧ e.last + x + 1 ≤ s.slot + 16384 ∧
  fits s (s.alm.erase e) (s.claim.map (·.ent)) e (e.last + 2) (e.last + x + 1) = true

/-- R254, R255: the context of a fresh dispatch of a task in a window. -/
def FreshContext (s : State) (r : Run) (x : TaskRec) (e : AlmEnt) : Prop :=
  r.task = x.handle ∧ r.pc = x.pc ∧ r.fc = e.fc ∧ r.ctxn = e.ctxn ∧ r.ctx = x.ctx ∧ r.fz = x.fz ∧ r.lease = x.lease ∧
  r.extn = x.extn ∧ r.loops = [] ∧ r.tids = [] ∧ r.tiles = [] ∧ r.cmds = [] ∧ r.sys.tvec = 0#64 ∧ r.sys.hmode = false ∧
  r.sys.seed = (s.entryOf x).seed ∧
  (∀ k : Reg, r.full k = true) ∧
  (∀ (k : Reg), k.toNat ∉ liveRegs x.live → r.reg k = 0#64) ∧
  ∀ (p k : Nat) (v : W64), (liveRegs x.live)[p]? = some k → x.regs[p]? = some v → r.reg (BitVec.ofNat 5 k) = v

/-! ## Stream commands (R41 to R46, R202 to R226) -/

/-- R205: the command has done its work and completes with a status; no other context changes. u is its context now. -/
def Ran (s t : State) (k : CmdRef) (r u : Run) (st : BitVec 2) : Prop :=
  t.run? k.task = some u ∧ (∃ w, t.work = s.work ++ w ∧ .commandComplete k ∈ w) ∧
  u.cmds = (r.cmds.map fun d => if d.id = k.id then { d with phase := .done, status := st } else d) ∧
  ∀ h, h ≠ k.task → t.run? h = s.run? h

/-- Nothing of the package changes but contexts and pending events. -/
def OnlyRuns (s t : State) : Prop := t = { s with cc := t.cc, runs := t.runs, work := t.work } ∧ SameBytes s t

/-- No L2PUSH has receivers: none ends because a receiving port is rebound or stopped (R223). -/
def NoReceivers (s : State) : Prop := ∀ q, q = s.cc ∨ q ∈ s.runs → ∀ d ∈ q.cmds, d.recv = []

/-- R192: the state in which no record of a task waits for a line any more, as a CFG leaves it. -/
def linesAwaitedByNone (s : State) (h : W64) : State :=
  { s with l1 := s.l1.map fun c => if c.task = h then { c with wait := [] } else c }

/-- R420: the state once a retry that a task owed is forgotten, because a CFG does not replay its round. -/
def owedByOthers (s : State) (h : W64) : State :=
  { s with err := { s.err with owed := s.err.owed.filter fun x => !(x == h) } }

/-- R363: n bytes at an offset of a logical extent of a lease: granted, at consecutive physical addresses from pa on,
free of uncorrectable errors when they are read. -/
def InExt (s : State) (r : Run) (k off n : Nat) (right : Right) (pa : Nat) : Prop :=
  ∃ e0 e, extentOf r.lease r.extn k = some e0 ∧ covered r.lease (e0.base + off) n right = .ok e ∧
    FlatAt e (e0.base + off) n pa ∧ (right = .r → badIn s e (e0.base + off) n = none)

/-- One port becomes p, the other ports stay. -/
def PortBecomes (r u : Run) (k : Nat) (p : Port) : Prop := u.port k = p ∧ ∀ j, j ≠ k → u.port j = r.port j

/-- One tile becomes x, the other tiles stay. -/
def TileBecomes (r u : Run) (k : Nat) (x : Tile) : Prop := u.tile k = x ∧ ∀ j, j ≠ k → u.tile j = r.tile j

/-- R206, R377: a word without S, or whose signal word the lease and the path let through. -/
def SignalGoes (s : State) (x : CmdArgs) : Prop :=
  x.fs = false ∨ ∃ e, coveredRW s.cc.lease s.cc.sys.csig.toNat 8 true true = .ok e ∧
    pathRefuses s (e.place s.cc.sys.csig.toNat) (max x.scope.toNat 2) true = none

/-- R42 to R46, R203: an ISSUE of this word, with no follow-on, passes every check. -/
def Accepted (s : State) (n : BitVec 11) (w : W128) : Prop :=
  let x := unpackCmd w
  cmdStaticOk (opCmd w) x = true ∧ x.ff = false ∧ SignalGoes s x ∧ flagRegsOk s.cc x = true ∧ s.cc.relCur = false ∧
  (opCmd w = 0x48 → (s.guest (x.fld 90 90)).present = true) ∧ s.cc.tidBusy (tidsNamed (opCmd w) x) = false ∧ entryOk s (opCmd w) x = true ∧
  (s.cc.inQueue (queueOf (opCmd w) x)).length < 16 ∧ (opCmd w = 0x38 → contribPath s x = none) ∧ n.toNat < 2048

/-- R44, R138, R203: an ISSUE of this word, whose follow-on is the template f, passes every check of both. -/
def AcceptedPair (s : State) (n : BitVec 11) (w f : W128) : Prop :=
  let x := unpackCmd w
  let y := unpackCmd f
  opCmd w ≠ 0x48 ∧ opCmd w ≠ 0x38 ∧ opCmd w ≠ 0x07 ∧ opCmd w ≠ 0x10 ∧ atAcceptance (opCmd w) x = false ∧
  cmdStaticOk (opCmd w) x = true ∧ x.ff = true ∧ n.toNat + 1 ≤ 2047 ∧ f = SMap.get 0#128 s.cc.cmdMem (n.toNat + 1) ∧
  followOk s.cc x f = true ∧ flagRegsOk s.cc x = true ∧ s.cc.relCur = false ∧
  s.cc.tidBusy (tidsNamed (opCmd w) x ++ tidsNamed (opCmd f) y) = false ∧ entryOk s (opCmd w) x = true ∧
  entryOk s (opCmd f) y = true ∧ SignalGoes s x ∧ SignalGoes s y ∧
  (s.cc.inQueue (queueOf (opCmd w) x)).length < 16 ∧ (s.cc.inQueue (queueOf (opCmd f) y)).length < 16

/-- R42: the template at an index, with slot 0 and slot 1 from the two registers unless they are s0. -/
def patchedWord (s : State) (a b : Reg) (n : BitVec 11) : W128 :=
  let t := SMap.get 0#128 s.cc.cmdMem n.toNat
  let x := unpackCmd t
  packCmd (opCmd t) { x with
    p0 := if a = 0#5 then x.p0 else (s.reg a).setWidth 32, p1 := if b = 0#5 then x.p1 else (s.reg b).setWidth 32 }

/-- R42, R203: the command as it is accepted: its patched word, its queue, the registers and entries read now. -/
def FreshCmd (s : State) (w : W128) (c : Cmd) : Prop :=
  let x := unpackCmd w
  c.id = s.cc.nextId ∧ c.word = w ∧ c.queue = queueOf (opCmd w) x ∧ c.phase = .waiting ∧ c.csig = s.cc.sys.csig ∧
  c.wbar = s.cc.sys.wbar ∧ c.wtok = s.cc.sys.wtok ∧ c.pc = s.cc.pc ∧ c.carrier = none ∧ c.tidA = s.cc.tid x.ta.toNat ∧
  c.tidB = s.cc.tid x.tb.toNat ∧ c.tidC = s.cc.tid x.tc.toNat

/-- R134, R140: the forms of the matrix multiplication; `true` for those that clear the bank first. -/
def mmaForms : List ((CmdRef → CmdArgs → Instr) × Bool) := [
  (Instr.mmaE4m3, false), (Instr.mmaE5m2, false), (Instr.mmaBf16, false), (Instr.mmaF16, false),
  (Instr.mmaE2m1, false), (Instr.mmaL6, false), (Instr.mmazE4m3, true), (Instr.mmazE5m2, true),
  (Instr.mmazBf16, true), (Instr.mmazF16, true), (Instr.mmazE2m1, true), (Instr.mmazL6, true)]

/-- The words at a physical address, as an entry of eight. -/
def entryAt (s : State) (pa : Nat) : Tid := vec8 (memWords s.mem pa 8)

/-- A command's operation has been sent to the home of its word; the command waits for the answer. `attr` is the word's
attribute: with SA set, and in the far tier, the home first recalls the host's copies (R378). -/
def SentHome (s t : State) (k : CmdRef) (r u : Run) (pa : Nat) (attr : BitVec 8) (size8 : Bool) (kind : HomeKind) : Prop :=
  t.homes = s.homes ++ [⟨homeDie pa, pa, size8, recalls pa attr, kind, .cmd k⟩] ∧ t.work = s.work ++ [.homeOperation] ∧
  t.run? k.task = some u ∧ u.cmds = (r.cmds.map fun d => if d.id = k.id then { d with step := 1 } else d) ∧
  u = { r with cmds := u.cmds } ∧ t = { s with cc := t.cc, runs := t.runs, homes := t.homes, work := t.work } ∧ SameBytes s t

/-- R229, R248: a word of n bytes of the tensor C of a command that its operation may reach. -/
def ReachableWord (s : State) (r : Run) (c : Cmd) (off n : Nat) (pcie : Bool) (pa : Nat) (attr : BitVec 8) : Prop :=
  ∃ e0 e, extentOf r.lease r.extn (tidExt c.tidC) = some e0 ∧
    coveredRW r.lease (e0.base + off) n true true = .ok e ∧ e.place (e0.base + off) = .phys pa attr ∧
    pathRefuses s (.phys pa attr) c.args.scope.toNat pcie = none

/-- R298 step 1: the region as a CFG loads it, before its checks. -/
def LoadedRegion (r u : Run) (c : Cmd) (hd : ImageHdr) (stages : List (List Blk)) : Prop :=
  u.region.hdr = some hd ∧ u.region.stage = c.args.fld 85 80 ∧ u.region.m0 = c.args.p0.toNat ∧
  u.region.m1 = c.args.p1.toNat ∧ u.region.m2 = c.args.fld 79 64 ∧ u.region.tids = r.tids ∧
  ∀ row col, row < hd.height → col < 6 * hd.width → ∃ st, u.site? (siteKey row col) = some st ∧
    let b := (stages.getD (c.args.fld 85 80) []).find? fun b => decide (b.row = row ∧ b.col = col)
    st.words = (match b with | some x => x.words | none => []) ∧
    st.consts = (match b with | some x => x.consts | none => []) ∧
    st.routes = (match b with | some x => x.routes | none => [])

/-- R298: the context of a CFG when its stage has been loaded and not yet checked (a stage that does not resume). -/
def loadedRun (k : CmdRef) (c : Cmd) (r : Run) (hd : ImageHdr) (stages : List (List Blk)) : Run :=
  let g := r.region
  { r with
    ports := r.ports.map fun p => (p.1, { p.2 with stopped := false })
    region := { g with
      hdr := some hd, stage := c.args.fld 85 80, m0 := c.args.p0.toNat, m1 := c.args.p1.toNat, m2 := c.args.fld 79 64,
      j0 := 0, j1 := 0, j2 := 0, cfg := some k.id, resume := false, seeded := true, tids := r.tids
      sites := loadSites hd (if g.seeded then none else some r.sys.seed) g.sites (stages.getD (c.args.fld 85 80) [])
      mbs := if g.mbs.isEmpty then mbStart hd stages else g.mbs } }

/-! ## Arithmetic sites (R96 to R119) -/

/-- The next event of a site is the word i; st is the site. -/
def SiteAt (s : State) (i : Instr) (a : SiteRef) (r : Run) (st : Site) : Prop :=
  s.live? a.task = some r ∧ r.site? (siteKey a.row a.col) = some st ∧ st.key = siteKey a.row a.col ∧
  r.siteEvent st = some i

/-- R96, R97: the word of an AL acts on the work in hand, or on the bundle that joins now at the inputs; st0 is the site
with that bundle taken and w the work before the word. -/
def AlTakes (s : State) (i : Instr) (a : SiteRef) (r : Run) (st st0 : Site) (w : AlWork) : Prop :=
  SiteAt s i a r st ∧
  ((st.al = some w ∧ st0 = st) ∨
   (st.al = none ∧ (st.joined = true ∨ r.quietFor st.key = true) ∧ st0 = st.takeHeads.2 ∧
     w = startAl st.takeHeads.2 st.takeHeads.1)) ∧
  w.o.length = 16 ∧ w.chain.length = 16 ∧ (∀ c ∈ w.chain, c.length = 4) ∧ w.outs.length = 4 ∧
  ∀ o ∈ w.outs, o.length = 16

/-- The collected fields, chain registers and record of a lane. -/
def laneOuts (w : AlWork) (l : Nat) : List (List W32) := w.outs.map fun o => o.getD l []
def laneChain (w : AlWork) (l : Nat) : List W32 := w.chain.getD l []
def laneRec (w : AlWork) (l : Nat) : Option Rec := (w.o[l]?).join

/-- R97, R98: the destination of a lane takes a value: one more field of an output, a chain register, a field of the
record (which grows with zero fields). The lane's other places stay. -/
def LaneGets (w w1 : AlWork) (l dst : Nat) (v : W32) : Prop :=
  (if dst < 4 then laneOuts w1 l = (laneOuts w l).set dst ((laneOuts w l).getD dst [] ++ [v]) else laneOuts w1 l = laneOuts w l) ∧
  (if 4 ≤ dst ∧ dst < 8 then laneChain w1 l = (laneChain w l).set (dst - 4) v else laneChain w1 l = laneChain w l) ∧
  (if 8 ≤ dst then ∃ q p, laneRec w l = some q ∧ laneRec w1 l = some p ∧ p = { q with flds := p.flds } ∧
      p.flds.length = Nat.max q.flds.length (dst - 7) ∧
      ∀ f, p.flds.getD f 0#32 = if f = dst - 8 then v else q.flds.getD f 0#32
    else laneRec w1 l = laneRec w l)

/-- The lane is as it was. -/
def LaneStays (w w1 : AlWork) (l : Nat) : Prop :=
  laneOuts w1 l = laneOuts w l ∧ laneChain w1 l = laneChain w l ∧ laneRec w1 l = laneRec w l

/-- R98, R100: what the word sees in a lane that is valid and present. -/
def seenIn (st0 : Site) (w : AlWork) (x : SiteArgs) (l : Nat) : Option LaneIn :=
  ((w.lanes st0.core st0.consts x)[l]?).join

/-- R97, R100: a word is done: valid, present lanes take out's value at the destination, and its generator and log
accumulator; the other lanes stay. With words to come the work stays in hand; after the last one the bundles leave on
the routed outputs. Nothing else of the site and of the package changes but what sending changes. -/
def AlDoes (s t : State) (a : SiteRef) (r : Run) (st0 : Site) (w : AlWork) (x : SiteArgs)
    (out : Nat → LaneIn → LaneOut) : Prop :=
  ∃ (w1 : AlWork) (core : SiteCore),
    w1 = { w with o := w1.o, chain := w1.chain, outs := w1.outs, next := w.next + 1 } ∧
    core = { st0.core with gens := core.gens, la := core.la } ∧
    w1.outs.length = 4 ∧
    (∀ l, l < 16 → match seenIn st0 w x l with
      | some q => LaneGets w w1 l x.dstN (out l q).v ∧ core.gens.getD l 0#32 = (out l q).g ∧ core.la.getD l 0#64 = (out l q).la
      | none => LaneStays w w1 l ∧ core.gens.getD l 0#32 = st0.core.gens.getD l 0#32 ∧
          core.la.getD l 0#64 = st0.core.la.getD l 0#64) ∧
    t = (if w1.next < st0.words.length then s.putSite a.task { st0 with core := core, al := some w1 }
      else (s.putSite a.task { st0 with core := core, al := none }).emitAl a.task r { st0 with core := core, al := none } w1).wakeSite
        a.task (siteKey a.row a.col)

/-- R114: a value in the word's type (2 is i32, 6 is n32), and a result kept modulo 2^32 or, with sat, in range. -/
def inType (x : SiteArgs) (v : W32) : Int := if x.tyN = 2 then v.toInt else v.toNat
def ranged (x : SiteArgs) (v : Int) : W32 :=
  BitVec.ofInt 32 (if x.m 0 0 = 1 then
    (if x.tyN = 2 then Max.max (-2 ^ 31) (Min.min (2 ^ 31 - 1) v) else Max.max 0 (Min.min (2 ^ 32 - 1) v)) else v)

/-- R114, R115, R118, R119: the integer operations and what a lane gets; `at_ l` is what the word sees in lane l. -/
def laneInts : List ((SiteRef → SiteArgs → Instr) × (SiteArgs → (Nat → Option LaneIn) → Nat → LaneIn → W32)) := [
  (Instr.iadd, fun x _ _ q => ranged x (inType x q.a + inType x q.b)),
  (Instr.isub, fun x _ _ q => ranged x (inType x q.a - inType x q.b)),
  (Instr.imul, fun _ _ _ q => BitVec.ofInt 32 (q.a.toInt * q.b.toInt)),
  (Instr.imulh, fun x _ _ q => BitVec.ofInt 32 (inType x q.a * inType x q.b / 2 ^ 32)),
  (Instr.imad, fun _ _ _ q => BitVec.ofInt 32 (q.a.toInt * q.b.toInt + q.c.toInt)),
  (Instr.imin, fun x _ _ q => BitVec.ofInt 32 (Min.min (inType x q.a) (inType x q.b))),
  (Instr.imax, fun x _ _ q => BitVec.ofInt 32 (Max.max (inType x q.a) (inType x q.b))),
  (Instr.iabs, fun x _ _ q => ranged x |q.a.toInt|),
  (Instr.alAnd, fun _ _ _ q => q.a &&& q.b),
  (Instr.alOr, fun _ _ _ q => q.a ||| q.b),
  (Instr.alXor, fun _ _ _ q => q.a ^^^ q.b),
  (Instr.not, fun _ _ _ q => ~~~q.a),
  (Instr.shl, fun _ _ _ q => BitVec.ofNat 32 (q.a.toNat * 2 ^ (q.b.toNat % 32))),
  (Instr.shr, fun _ _ _ q => BitVec.ofNat 32 (q.a.toNat / 2 ^ (q.b.toNat % 32))),
  (Instr.sar, fun _ _ _ q => BitVec.ofInt 32 (q.a.toInt / 2 ^ (q.b.toNat % 32))),
  (Instr.icmp, fun x _ _ q => let a := inType x q.a; let b := inType x q.b
    if (x.m 2 0 = 0 ∧ a = b) ∨ (x.m 2 0 = 1 ∧ a ≠ b) ∨ (x.m 2 0 = 2 ∧ a < b) ∨ (x.m 2 0 = 3 ∧ a ≤ b) ∨
       (x.m 2 0 = 4 ∧ b < a) ∨ (5 ≤ x.m 2 0 ∧ b ≤ a) then 1#32 else 0#32),
  (Instr.sel, fun _ _ _ q => if q.c ≠ 0#32 then q.a else q.b),
  (Instr.alPopc, fun _ _ _ q => BitVec.ofNat 32 ((List.range 32).filter fun i => q.a.getLsbD i).length),
  (Instr.alClz, fun _ _ _ q => BitVec.ofNat 32 (((List.range 32).find? fun i => q.a.getMsbD i).getD 32)),
  (Instr.hash, fun x _ _ q =>
    let h := (if x.selB = .none then q.a else q.a ^^^ q.b) * 0x9E3779B9#32
    let r := (h >>> x.m 4 0) ||| (h <<< (32 - x.m 4 0))
    BitVec.ofNat 32 (r.toNat / 2 ^ x.m 9 5 % 2 ^ (x.m 14 10 + 1))),
  (Instr.shuf, fun x at_ l q => ((at_ (if x.selB = .none then l ^^^ x.m 3 0 else q.b.toNat % 16)).map (·.a)).getD 0#32),
  (Instr.bcast, fun x at_ _ _ => ((at_ (x.m 3 0)).map (·.a)).getD 0#32),
  (Instr.iota, fun x _ l q => BitVec.ofNat 32 ((if x.selA = .none then 0 else q.a.toNat) + x.m 15 0 + l)),
  (Instr.const, fun x _ _ _ => if x.tyN = 8 then BitVec.ofNat 32 (x.mods.toNat * 64) else BitVec.ofInt 32 x.mods.toInt)]

/-- R71, R103: an exact value rounded to f32 in a lane, which draws from the lane's generator under mode 4. -/
def f32Rounded (x : SiteArgs) (fz : Bool) (v : Num) (q : LaneIn) : LaneOut :=
  let g := if x.rndN = 4 then genNext q.g else q.g
  ⟨BitVec.ofNat 32 (roundTo 8 x.rndN false fz (if x.rndN = 4 then g.toNat else 0) v), g, q.la⟩

/-- A lane that gets a value, draws nothing and keeps its accumulator. -/
def plainLane (v : W32) (q : LaneIn) : LaneOut := ⟨v, q.g, q.la⟩

/-- R108: two packed elements, each computed and rounded, element 0 first. -/
def pairRounded (x : SiteArgs) (fz : Bool) (f : Num → Num → Num → Num) (q : LaneIn) : LaneOut :=
  let el (j : Nat) (w : W32) : Num := decodeNum x.tyN fz (w.toNat / 2 ^ (16 * j) % 2 ^ 16)
  let g0 := if x.rndN = 4 then genNext q.g else q.g
  let g1 := if x.rndN = 4 then genNext g0 else g0
  let r (j : Nat) (g : W32) := roundTo x.tyN x.rndN false fz (if x.rndN = 4 then g.toNat else 0) (f (el j q.a) (el j q.b) (el j q.c))
  ⟨BitVec.ofNat 32 (r 0 g0 % 2 ^ 16 + 2 ^ 16 * (r 1 g1 % 2 ^ 16)), g1, q.la⟩

/-- R62, R70: a value as an operation reads it and writes it unchanged: an f32 NaN is canonical, and under FZ a subnormal is
zero; any other type is as it is. -/
def readAs (x : SiteArgs) (fz : Bool) (v : W32) : W32 := if x.tyN = 8 then f32Code (f32Of fz v) else v

/-- R116: the pairwise tree: the value of 2^k lanes from lane l on, with the generator of the first valid one. -/
def treeNode (rd : W32 → W32) (f : W32 → W32 → W32 → W32 × W32) (at_ : Nat → Option LaneIn) : Nat → Nat → Option (W32 × W32)
  | 0, l => (at_ l).map fun q => (rd q.a, q.g)
  | k + 1, l =>
    match treeNode rd f at_ k l, treeNode rd f at_ k (l + 2 ^ k) with
    | some p, some q => some (f p.1 q.1 p.2)
    | some p, none => some p
    | none, q => q

/-- R116: the largest block of 2^k lanes whose first valid lane is l. -/
def leadBlock (at_ : Nat → Option LaneIn) (l : Nat) : Nat :=
  ((List.range 5).reverse.find? fun k => (List.range (l % 2 ^ k)).all fun j => (at_ (l / 2 ^ k * 2 ^ k + j)).isNone).getD 0

/-- R117: the prefix before a lane. -/
def scanBefore (rd : W32 → W32) (f : W32 → W32 → W32 → W32 × W32) (at_ : Nat → Option LaneIn) : Nat → Option W32
  | 0 => none
  | l + 1 =>
    match scanBefore rd f at_ l, at_ l with
    | p, none => p
    | none, some q => some (rd q.a)
    | some p, some q => some (f p q.a q.g).1

/-- R103 to R113, R116, R117: the operations on numbers and what a lane gets. -/
def laneNums : List ((SiteRef → SiteArgs → Instr) × (SiteArgs → Bool → (Nat → Option LaneIn) → Nat → LaneIn → LaneOut)) := [
  (Instr.fadd, fun x fz _ _ q => f32Rounded x fz (addNum x.rndN (f32Of fz q.a) (f32Of fz q.b)) q),
  (Instr.fsub, fun x fz _ _ q => f32Rounded x fz (addNum x.rndN (f32Of fz q.a) (negNum (f32Of fz q.b))) q),
  (Instr.fmul, fun x fz _ _ q => f32Rounded x fz (mulNum (f32Of fz q.a) (f32Of fz q.b)) q),
  (Instr.fma, fun x fz _ _ q => f32Rounded x fz (addNum x.rndN (mulNum (f32Of fz q.a) (f32Of fz q.b)) (f32Of fz q.c)) q),
  (Instr.fmin, fun _ fz _ _ q => plainLane (f32Code (minMax false (f32Of fz q.a) (f32Of fz q.b))) q),
  (Instr.fmax, fun _ fz _ _ q => plainLane (f32Code (minMax true (f32Of fz q.a) (f32Of fz q.b))) q),
  (Instr.fabs, fun _ fz _ _ q => plainLane (f32Code (absNum (f32Of fz q.a))) q),
  (Instr.fneg, fun _ fz _ _ q => plainLane (f32Code (negNum (f32Of fz q.a))) q),
  (Instr.frcp, fun x fz _ _ q => f32Rounded x fz (fnNum 0 (f32Of fz q.a)) q),
  (Instr.frsq, fun x fz _ _ q => f32Rounded x fz (fnNum 1 (f32Of fz q.a)) q),
  (Instr.fexp2, fun x fz _ _ q => f32Rounded x fz (fnNum 2 (f32Of fz q.a)) q),
  (Instr.flog2, fun x fz _ _ q => f32Rounded x fz (fnNum 3 (f32Of fz q.a)) q),
  (Instr.fcmp, fun x fz _ _ q => plainLane (flagVal (fcmpCond (x.m 2 0) (f32Of fz q.a) (f32Of fz q.b))) q),
  (Instr.fclass, fun _ _ _ _ q => plainLane (BitVec.ofNat 32 (2 ^ f32Class q.a)) q),
  (Instr.fcvt, fun x fz _ _ q => fcvtLane x fz q),
  (Instr.hdot2, fun x fz _ _ q => f32Rounded x fz
    (addNum x.rndN (mulNum (decodeNum x.tyN fz (elemOf x.tyN 0 q.a)) (decodeNum x.tyN fz (elemOf x.tyN 0 q.b)))
      (addNum x.rndN (mulNum (decodeNum x.tyN fz (elemOf x.tyN 1 q.a)) (decodeNum x.tyN fz (elemOf x.tyN 1 q.b))) (f32Of fz q.c))) q),
  (Instr.q8dot4, fun x fz _ _ q => if x.tyN = 0 then plainLane (q8Int (x.m 1 1 == 1) q) q
    else f32Rounded x fz (dotNum x.rndN x.tyN (if x.m 0 0 = 1 then 23 - x.tyN else x.tyN) 4 fz q.a q.b (f32Of fz q.c)) q),
  (Instr.lmul, fun _ _ _ _ q => plainLane (BitVec.ofNat 32
    (packCodes 0 ((List.range 4).map fun j => lmulByte (elemOf 14 j q.a) (elemOf 14 j q.b)))) q),
  (Instr.lacc, fun _ _ _ _ q =>
    let la := BitVec.ofInt 64 (q.la.toInt + ((List.range 4).map fun j => laccAmount (q.a.toNat / 2 ^ (8 * j) % 256)).sum)
    ⟨la.setWidth 32, q.g, la⟩),
  (Instr.lcvt, fun x fz _ _ q => lcvtLane x fz q),
  (Instr.hadd2, fun x fz _ _ q => pairRounded x fz (fun a b _ => addNum x.rndN a b) q),
  (Instr.hmul2, fun x fz _ _ q => pairRounded x fz (fun a b _ => mulNum a b) q),
  (Instr.hfma2, fun x fz _ _ q => pairRounded x fz (fun a b c => addNum x.rndN (mulNum a b) c) q),
  (Instr.rsum, fun x fz at_ l q => ⟨((treeNode (readAs x fz) (laneAdd x fz) at_ 4 0).map (·.1)).getD 0#32,
    ((treeNode (readAs x fz) (laneAdd x fz) at_ (leadBlock at_ l) (l / 2 ^ leadBlock at_ l * 2 ^ leadBlock at_ l)).map (·.2)).getD q.g, q.la⟩),
  (Instr.rmax, fun x fz at_ _ q => plainLane (((treeNode (readAs x fz) (laneMax x fz) at_ 4 0).map (·.1)).getD 0#32) q),
  (Instr.scanl, fun x fz at_ l q =>
    match scanBefore (readAs x fz) (laneAdd x fz) at_ l with
    | none => plainLane (if x.m 0 0 = 1 then 0#32 else readAs x fz q.a) q
    | some p => ⟨if x.m 0 0 = 1 then p else (laneAdd x fz p q.a q.g).1, (laneAdd x fz p q.a q.g).2, q.la⟩)]

/-! ## Sparse and flow sites (R123 to R129, R305 to R310) -/

/-- R96, R123: a bundle of joined lanes is taken at a sparse site; `ls` are its present lanes, `gone` those that carry
the absent mark. -/
def SpTakes (s : State) (i : Instr) (a : SiteRef) (r : Run) (st st0 : Site) (ls : List SpLane) (gone : List (Nat × Rec)) : Prop :=
  SiteAt s i a r st ∧ st.al = none ∧ (st.joined = true ∨ r.quietFor st.key = true) ∧ st0 = st.takeHeads.2 ∧
  ls = (joinedLanes st0 st.takeHeads.1).filter (fun l => (absentIn l.2).isNone) ∧
  gone = ((joinedLanes st0 st.takeHeads.1).filter fun l => (absentIn l.2).isSome).filterMap fun l =>
    (startRec l.2).map fun q => (l.1, q)

/-- R124, R127, R129: the site keeps `core`, sends `out` packed and `late` on o3, and the absent records on o3. -/
def SpSends (s t : State) (a : SiteRef) (st0 : Site) (gone : List (Nat × Rec)) (core : SpCore) (out : List Rec)
    (late : List (Nat × Rec)) : Prop :=
  let st1 := { st0 with core := { st0.core with sp := core } }
  t = ((((s.putSite a.task st1).emitPacked a.task st1 st1.args.dstN out).emitPlaced a.task st1 3 gone).emitPlaced a.task st1 3
    late).wakeSite a.task (siteKey a.row a.col)

/-- R129: the site stops with a sparse-order or metadata fault; nothing it would have sent leaves. -/
def SpFaults (s t : State) (a : SiteRef) (st0 : Site) (cause reason lane : Nat) (tval : W64) (extra : Nat) : Prop :=
  t = (s.regionFault a.task cause reason (siteInfo st0 lane tval extra)).wakeSite a.task (siteKey a.row a.col)

/-- R127: what a lane gives of its n results when lanes are served in order and 16 fit. -/
def servedOf (ls : List SpLane) (n : SpLane → Nat) (l : SpLane) : Nat :=
  Min.min (n l) (16 - ((ls.takeWhile fun k => k.1 != l.1).map n).sum)

/-- R127: the record of a lane that was not served whole goes on with a field changed. -/
def restOf (ls : List SpLane) (n : SpLane → Nat) (sel : Sel) (v : SpLane → Nat → W32) : List (Nat × Rec) :=
  ls.filterMap fun l => if servedOf ls n l < n l then (withSource l.2 sel (v l (servedOf ls n l))).map fun q => (l.1, q) else none

/-- R128: one more value of a REDUCE: the runs that are over, and the open run. -/
def foldRun (x : SiteArgs) (fz : Bool) (acc : List (W32 × W32 × Nat) × Option (W32 × W32 × Nat)) (e : W32 × W32) :
    List (W32 × W32 × Nat) × Option (W32 × W32 × Nat) :=
  match acc.2 with
  | some (k, v, n) => if k = e.1 then (acc.1, some (k, runAdd x fz v e.2, n + 1)) else (acc.1 ++ [(k, v, n)], some (e.1, readAs x fz e.2, 1))
  | none => (acc.1, some (e.1, readAs x fz e.2, 1))

/-- R128: the next key of ISECT and UNION: the lesser of both heads. It is decided when both sides hold it, or when the
other input has shown a key at least as large (a larger one it holds) or dusk; then it leaves. What leaves, what stays. -/
inductive Decides (union : Bool) (la lb : Option W32) (da db : Bool) :
    List Rec → List Rec → List Rec → List Rec → List Rec → Prop where
  | none : Decides union la lb da db [] [] [] [] []
  | waitA (a : Rec) (wa : List Rec) (k : keyDecided a lb db = false) : Decides union la lb da db (a :: wa) [] [] (a :: wa) []
  | waitB (b : Rec) (wb : List Rec) (k : keyDecided b la da = false) : Decides union la lb da db [] (b :: wb) [] [] (b :: wb)
  | onlyA (a : Rec) (wa wb out ka kb : List Rec) (h : ∀ b ∈ wb.head?, (heldKey a).toNat < (heldKey b).toNat)
      (k : wb = [] → keyDecided a lb db = true) (rest : Decides union la lb da db wa wb out ka kb) :
      Decides union la lb da db (a :: wa) wb
        ((if union then [spRec [heldKey a, heldPay a, 0xFFFFFFFF#32, 1#32]] else []) ++ out) ka kb
  | onlyB (b : Rec) (wa wb out ka kb : List Rec) (h : ∀ a ∈ wa.head?, (heldKey b).toNat < (heldKey a).toNat)
      (k : wa = [] → keyDecided b la da = true) (rest : Decides union la lb da db wa wb out ka kb) :
      Decides union la lb da db wa (b :: wb)
        ((if union then [spRec [heldKey b, 0xFFFFFFFF#32, heldPay b, 2#32]] else []) ++ out) ka kb
  | both (a b : Rec) (wa wb out ka kb : List Rec) (h : heldKey a = heldKey b)
      (rest : Decides union la lb da db wa wb out ka kb) :
      Decides union la lb da db (a :: wa) (b :: wb)
        ((if union then spRec [heldKey a, heldPay a, heldPay b, 3#32] else spRec [heldKey a, heldPay a, heldPay b]) :: out) ka kb

/-- R126: a key and payload of a record of one input. -/
def keysOf (b : Option Bundle) (key : Nat) (pay : Rec → W32) : List (Nat × W32 × W32) :=
  match b with
  | none => []
  | some b => (List.range 16).filterMap fun l => match (b.lanes[l]?).join with
    | some q => if q.absent.isSome then none else some (l, q.flds.getD key 0#32, pay q)
    | none => none

/-- R128: keys that come at one input, each above the one before. -/
def RisesAfter (last : Option W32) (ks : List W32) : Prop := List.Pairwise (fun p q => p.toNat < q.toNat) (last.toList ++ ks)

/-- A flow site takes the bundles at the heads of its inputs; `ls` are their valid lanes. -/
def FlTakes (s : State) (i : Instr) (a : SiteRef) (r : Run) (st st0 : Site) (ls : List (Nat × Rec)) : Prop :=
  SiteAt s i a r st ∧ st.al = none ∧ st0 = st.takeHeads.2 ∧ ls = (st.takeHeads.1.map (·.2)).flatMap lanesOf

/-- R305: records leave in their lanes, each on the outputs `goes` says; an output of `always` carries a bundle even
when no lane of it is valid. -/
def SendsLanes (s : State) (h : W64) (st : Site) (always : List Nat) (goes : Nat × Rec → List Nat) (ls : List (Nat × Rec)) :
    State :=
  (List.range 4).foldl (fun u o =>
    if always.contains o || ls.any (fun e => (goes e).contains o) then
      u.emit h st o (.data (st.bundle ((List.range 16).map fun l => (ls.find? fun e => decide (e.1 = l) && (goes e).contains o).map (·.2))))
    else u) s

/-- R306: the records that go to late: absent ones, when o3 is routed. -/
def isLate (r : Run) (st0 : Site) (e : Nat × Rec) : Bool := (r.outs st0).contains 3 && e.2.absent.isSome

/-- R306: the source value of a record. -/
def flSource (st0 : Site) (x : SiteArgs) (q : Rec) : W32 :=
  match x.selA with | .link _ f => q.flds.getD f 0#32 | .const k => st0.consts.getD k 0#32 | _ => 0#32

/-- R306: the flow operations that pass records on unchanged, and the outputs on which each record leaves. -/
def flowForms : List ((SiteRef → SiteArgs → Instr) × (SiteArgs → List Nat) × (Run → Site → SiteArgs → Nat × Rec → List Nat)) := [
  (Instr.fork, fun x => (List.range 4).filter (x.m 3 0).testBit, fun _ _ x _ => (List.range 4).filter (x.m 3 0).testBit),
  (Instr.retire, fun _ => [], fun _ _ _ _ => []),
  (Instr.filter, fun x => [x.dstN], fun r st x e => if isLate r st e then [3]
    else if (flSource st x e.2 ≠ 0#32 ∧ x.m 0 0 = 0) ∨ (flSource st x e.2 = 0#32 ∧ x.m 0 0 = 1) then [x.dstN]
    else if x.m 1 1 = 1 then [x.m 3 2] else []),
  (Instr.steer, fun x => [x.dstN], fun r st x e => if isLate r st e then [3]
    else if (x.m 3 0).testBit ((flSource st x e.2).toNat % 4) then [(flSource st x e.2).toNat % 4] else []),
  (Instr.dusk, fun x => [x.dstN], fun r st x e => if isLate r st e then [3] else [x.dstN]),
  (Instr.gate, fun x => [x.dstN], fun r st x e =>
    let j := match x.m 1 0 with | 0 => r.region.j0 | 1 => r.region.j1 | _ => r.region.j2
    let k := (st.consts.getD (x.m 7 5) 0#32).toNat
    if isLate r st e then [3]
    else if (x.m 4 2 = 0 ∧ j = k) ∨ (x.m 4 2 = 1 ∧ j ≠ k) ∨ (x.m 4 2 = 2 ∧ j < k) ∨ (x.m 4 2 = 3 ∧ j ≤ k) ∨
       (x.m 4 2 = 4 ∧ k < j) ∨ (5 ≤ x.m 4 2 ∧ k ≤ j) then [x.dstN] else [])]

/-- The flow state of a site. -/
def withFl (st : Site) (fl : FlCore) : Site := { st with core := { st.core with fl := fl } }

/-! ## Memory banks, rounds and ports (R188 to R201, R212 to R215, R289 to R310, R403) -/

/-- R191: a service cycle grants, oldest first, every request whose banks nothing granted before it uses: with some banks busy, of a
list of requests, those granted, those that wait, and the banks that are busy then. -/
inductive Grants (banks : WinEnt → List Nat) : List Nat → List WinEnt → List WinEnt → List WinEnt → List Nat → Prop where
  | none (busy : List Nat) : Grants banks busy [] [] [] busy
  | wait (busy z : List Nat) (e : WinEnt) (l g w : List WinEnt) (h : ∃ b ∈ banks e, b ∈ busy) (rest : Grants banks busy l g w z) :
      Grants banks busy (e :: l) g (e :: w) z
  | grant (busy z : List Nat) (e : WinEnt) (l g w : List WinEnt) (h : ∀ b ∈ banks e, b ∉ busy)
      (rest : Grants banks (busy ++ banks e) l g w z) : Grants banks busy (e :: l) (e :: g) w z

/-- R191: the window once the one request granted of a cycle counts as served: without it, if it came from the window (1), and
with the new lanes that wait. -/
def servedWindow (win wait : List WinEnt) (w : Nat) (e : WinEnt) : List WinEnt := (if w = 1 then win.erase e else win) ++ wait

/-- An MB's word acts on the one request of its service cycle, new (0) or from the window (1): its lane, the request and
its record; the window has room for the new lanes that wait. -/
def MbTakes (s : State) (i : Instr) (a : SiteRef) (r : Run) (st : Site) (lane : Nat) (e : WinEnt) (q : Rec) : Prop :=
  SiteAt s i a r st ∧ st.al = none ∧
  (∃ w wait, w ≤ 1 ∧ st.mb = some ⟨[(w, e)], wait⟩ ∧ (w = 1 → e ∈ st.core.win) ∧ (servedWindow st.core.win wait w e).length ≤ 32) ∧
  lane = e.lane ∧ startRec e.recs = some q

/-- The site with its request taken, and the state with it. -/
def afterTake (st : Site) : Site :=
  match st.mb with
  | some ⟨(w, e) :: _, wait⟩ => { st with mb := none, core := { st.core with win := servedWindow st.core.win wait w e } }
  | _ => { st with mb := none }
def taken (s : State) (a : SiteRef) (st : Site) : State := s.putSite a.task (afterTake st)

/-- R190, R191: what the word sends in u: records that were served in their lanes on the routed outputs, others on o3. -/
def MbSends (u t : State) (a : SiteRef) (r : Run) (st : Site) (done late : List (Nat × Rec)) : Prop :=
  t = (u.emitMb a.task r (afterTake st) done late).wakeSite a.task (siteKey a.row a.col)

/-- R190, R97: words in the fields of a record from the destination on. -/
def Filled (q p : Rec) (x : SiteArgs) (ws : List W32) : Prop :=
  p = { q with flds := p.flds } ∧ p.flds.length = Nat.max q.flds.length (x.dstN - 8 + ws.length) ∧
  ∀ f, p.flds.getD f 0#32 = if x.dstN - 8 ≤ f ∧ f < x.dstN - 8 + ws.length then ws.getD (f - (x.dstN - 8)) 0#32
    else q.flds.getD f 0#32

/-- R194: the newest byte of an MB at a scratchpad offset, at a physical address. -/
def newestScratch (m : MbStore) (o : Nat) : Byte := shadowByte m.shadow .scratch o (SMap.get 0#8 m.scratch o)
def newestByte (s : State) (m : MbStore) (pa : Nat) : Byte := shadowByte m.shadow .phys pa (memByte s.mem pa)

/-- R29: four bytes as a word. -/
def word4 (f : Nat → Byte) (o : Nat) : W32 :=
  BitVec.ofNat 32 ((f o).toNat + 2 ^ 8 * (f (o + 1)).toNat + 2 ^ 16 * (f (o + 2)).toNat + 2 ^ 24 * (f (o + 3)).toNat)

/-- A source field of a request. -/
def reqVal (e : WinEnt) (sel : Sel) (j : Nat) : W32 :=
  match sel with
  | .link i f => (match (e.recs[i]?).join with | some q => q.flds.getD (f + j) 0#32 | none => 0#32)
  | _ => 0#32

/-- R194: a store enters a shadow line of the open round and its record leaves, or no line is free: the record leaves on
o3 unperformed and an edge is asked for. -/
def Shadows (s t : State) (a : SiteRef) (r : Run) (st : Site) (lane : Nat) (pl : ShadowAt) (addr : Nat) (bs : List Byte)
    (done late : Rec) : Prop :=
  let m := r.mb st.key
  match shadowPuts m.cap st.rnd pl addr bs m.shadow with
  | some l => MbSends ((taken s a st).modRun a.task fun u => u.putMb st.key { m with shadow := l }) t a r st [(lane, done)] []
  | none => MbSends ((taken s a st).wantEdge a.task) t a r st [] [(lane, late)]

/-- R197: the new value of an SPATOM on integers. -/
def spatomValue (op : Nat) (signed : Bool) (old b c : W32) : W32 :=
  match op with
  | 0 => BitVec.ofInt 32 (old.toInt + b.toInt)
  | 1 => if (if signed then old.toInt ≤ b.toInt else old.toNat ≤ b.toNat) then old else b
  | 2 => if (if signed then old.toInt ≤ b.toInt else old.toNat ≤ b.toNat) then b else old
  | 3 => old &&& b
  | 4 => old ||| b
  | 5 => old ^^^ b
  | 6 => b
  | _ => if old = c then b else old

/-- R198, R199, R363: an MB's access of n bytes at an offset of an extent lies, granted, at consecutive physical
addresses from pa on. -/
def MbReaches (r : Run) (ext off n : Nat) (right : Right) (y : Extent) (pa : Nat) : Prop :=
  ∃ e0, extentOf r.lease r.extn ext = some e0 ∧ covered [e0] (e0.base + off) n right = .ok y ∧ y.peer = none ∧
    FlatAt y (e0.base + off) n pa

/-- R192: the partition of an MB holds a line. -/
def lineHeld (s : State) (a : SiteRef) (st : Site) (line : Nat) : Bool :=
  s.l1.any fun c => decide (c.task = a.task ∧ c.mb = st.key ∧ c.line = line)

/-- R192: the records that hold a line without one that has been presented again; which hold ends where the record has changed on its
way is log entry 33 (DESIGN CHOICE). -/
def heldBut (q : Rec) (wait : List Rec) : List Rec := if q ∈ wait then wait.erase q else wait.eraseP fun p => p.tag == q.tag

/-- R192: the state once a record that had asked for lines has been presented again. -/
def shownAgain (s : State) (a : SiteRef) (st : Site) (lines : List Nat) (q : Rec) : State :=
  { s with l1 := s.l1.map fun c =>
      if decide (c.task = a.task ∧ c.mb = st.key) && lines.contains c.line then { c with wait := heldBut q c.wait } else c }

/-- R189, R192: the lines that the scale byte of a TLD needs. -/
def scaleLines (r : Run) (x : SiteArgs) (e : WinEnt) : List Nat :=
  match tldScale r x e with | some z => l1Lines z.1 z.2 1 | none => []

/-- R192: a miss: the record waits in the miss queue and its line is asked for, or leaves on o3 when the queue is full. -/
def Misses (s t : State) (a : SiteRef) (r : Run) (st : Site) (lane : Nat) (q : Rec) (line : Nat) : Prop :=
  if st.core.missq.length < 64 then
    t = (((taken s a st).putSite a.task { afterTake st with
        core := { (afterTake st).core with missq := st.core.missq ++ [⟨q, line⟩] } }).pushNew
      (.l1LineArrival (st.at a.task) line)).wakeSite a.task (siteKey a.row a.col)
  else MbSends (taken s a st) t a r st [] [(lane, q)]

/-- R296: a MARK's marker for round n leaves, with n modulo 256 (R16): its count begins again, the site as it is now belongs
to the marker, and the positions of the ports before it are noted. -/
def MarkMade (s t : State) (h : W64) (r : Run) (st : Site) (n : Nat) : Prop :=
  ∃ st1 pos,
    st1 = { withFl st { st.core.fl with count := 0, nextMark := n + 1 } with snaps := st1.snaps, rnd := n + 1 } ∧
    st1.snaps = st.snaps ++ [(n, st1.core)] ∧
    ((∀ e ∈ r.region.markPos, e.1 ≠ n) → pos = r.region.markPos ++ [(n, st.seen)]) ∧
    t = ((((s.putSite h st1).modRun h fun q => { q with region := { q.region with markPos := pos } }).forward h r st1
      (.marker (BitVec.ofNat 8 n))).wakeSite h st.key).checkCommit h

/-- The port of a running stage that streams. -/
def PortAt (s : State) (p : PortRef) (r : Run) (q : Port) : Prop :=
  s.live? p.task = some r ∧ r.port p.port = q ∧ q.started = true

/-- R214, R363: element j of an affine stream is granted for reading, at consecutive physical addresses from pa on. -/
def ElementAt (s : State) (r : Run) (q : Port) (j pa : Nat) : Prop :=
  ∃ va y, r.portVa q (r.affineOff q j) .r = .ok va ∧ covered r.lease va (contBytes (tidFmt q.tid)) .r = .ok y ∧
    FlatAt y va (contBytes (tidFmt q.tid)) pa ∧ badIn s y va (contBytes (tidFmt q.tid)) = none

/-! ## Copies, fills and matrix tiles (R130 to R144, R216 to R226) -/

/-- A command has done its work by storing: besides contexts and pending events only memory, and the errors of sectors
overwritten whole and copies of written lines change. -/
def StoredRun (s t : State) : Prop :=
  t = { s with cc := t.cc, runs := t.runs, work := t.work, mem := t.mem, err := { s.err with bad := t.err.bad },
               hostHeld := t.hostHeld, l1 := t.l1 } ∧ CopiesFewer s t

/-- Only commands and tiles of a context change, and of the tiles only one. -/
def OnlyTile (r u : Run) (n : Nat) (x : Tile) : Prop :=
  u = { r with tiles := u.tiles, cmds := u.cmds } ∧ TileBecomes r u n x

/-- R137, R211: nothing holds the landing of a fill: no earlier CBAR on its tile, no earlier MMA that reads its bytes. -/
def MayLand (r : Run) (c : Cmd) : Prop :=
  ∀ d ∈ r.cmds, d.id < c.id → (d.op = 0x0A → cbarMasks d.args (.tileFetch c.args.tc.toNat) = false) ∧
    (d.args.tc = c.args.tc → fillMeets c d = false)

/-- R138, R220: a fill has landed: without a follow-on, or where it has been dropped, the command is complete with status 00; with one it stays, and its
follow-on is issued next. -/
def FillLanded (s t : State) (k : CmdRef) (r u : Run) (c : Cmd) : Prop :=
  (c.args.ff = false ∨ (∀ d ∈ r.cmds, d.carrier ≠ some k.id) → Ran s t k r u 0#2) ∧
  (c.args.ff = true → (∃ d ∈ r.cmds, d.carrier = some k.id) → t.run? k.task = some u ∧ t.work = s.work ++ [.followOnIssue k] ∧
    (u.cmds = r.cmds.map fun d => if d.id = k.id then { d with step := 1 } else d) ∧
    ∀ h, h ≠ k.task → t.run? h = s.run? h)

/-- R132, R411: one side of a tile's operand store has new bytes from an offset on, and the fill is logged beside those of
which some byte still stands; nothing else of the tile changes but its pins. -/
def SideFilled (x y : Tile) (side off : Nat) (bs : List Byte) (log : FillLog) : Prop :=
  (∀ i, ∀ h : i < bs.length, SMap.get 0#8 (y.side side) (off + i) = bs[i]) ∧
  (∀ a, a < off ∨ off + bs.length ≤ a → SMap.get 0#8 (y.side side) a = SMap.get 0#8 (x.side side) a) ∧
  y = { x with a := y.a, b := y.b, fills := liveFills (x.fills ++ [log]), pins := y.pins } ∧
  (if side = 0 then y.b = x.b else y.a = x.a)

/-- R135: a finite or special exact value rounded to binary32, RNE, with a subnormal result made zero under FZ. -/
def NearestF32 (fz : Bool) (v : Num) : W32 :=
  let w := BitVec.ofNat 32 (roundN 8 0 false false v)
  if fz = true ∧ bits (w.setWidth 64) 30 23 = 0 then BitVec.ofNat 32 (bits (w.setWidth 64) 31 31 * 2 ^ 31) else w

/-- R132: the code of element i of column j of a panel at an offset of a side, and its scale byte for a block. -/
def codeIn (t : Tile) (side off ty j i : Nat) : Nat := panelCode (t.side side) ty off j i

/-- R134: a chain of roundings through the groups: the cell's values before the first and after each group. -/
def CellChain (t : Tile) (c : Cmd) (fz : Bool) (i j : Nat) (acc : Nat → W32) : Prop :=
  let fa := tidFmt c.tidA
  let fb := tidFmt c.tidB
  let oa := c.args.p0.toNat
  let ob := c.args.p1.toNat
  let kk := 32 * (c.args.fld 87 79 + 1)
  ∀ g, g < kk / 32 →
    ∃ term : List Num, term.length = 32 ∧
      (∀ d, d < 32 → ∃ p, term[d]? = some (scaleNum (panelScale t.b c.tidB ob kk g j) (scaleNum (panelScale t.a c.tidA oa kk g i) p)) ∧
        let x := codeIn t 0 oa fa (32 * g + d) i
        let y := codeIn t 1 ob fb (32 * g + d) j
        p = if fa = 14 then l6Prod x y else mulNum (decodeNum fa fz x) (decodeNum fb fz y)) ∧
      acc (g + 1) = NearestF32 fz (addNum 0 (f32Of false (acc g)) (f32Of false (NearestF32 fz (sumNum term))))

/-- The cells of a bank. -/
def cellOf (t : Tile) (b e : Nat) : W32 := SMap.get 0#32 (t.bank b) e

/-- The tile as before but for one bank, and the generators when they draw. -/
def OnlyBank (x y : Tile) (b : Nat) : Prop :=
  y = { x with acc0 := y.acc0, acc1 := y.acc1, gens := y.gens } ∧ if b = 0 then y.acc1 = x.acc1 else y.acc0 = x.acc0

/-- R221, R363: a row of a dense tensor is readable, or writable, at consecutive physical addresses from pa on. -/
def RowAt (s : State) (r : Run) (t : Tid) (i : Nat) (right : Right) (pa : Nat) : Prop :=
  InExt s r (tidExt t) (tidOffset t + i * tidStride t 1) (tidDim t 0 / contElems (tidFmt t) * contBytes (tidFmt t)) right pa

/-! ## Collectives, other devices, hosts, queues, the mailbox, guests and the package (R145 to R151, R311 to R328,
R370 to R389, R446 to R451) -/

/-- Only memory changes, the errors of sectors overwritten whole and the copies of written lines. -/
def StoredOnly (s t : State) : Prop :=
  t = { s with mem := t.mem, err := { s.err with bad := t.err.bad }, hostHeld := t.hostHeld, l1 := t.l1 } ∧ CopiesFewer s t

/-- R146, R70: the new value of an element of a CRED; FZ reaches its binary32 addition alone. -/
def credValue (op ty mode : Nat) (sat fz : Bool) (old v : W32) : W32 :=
  if ty = 8 then
    BitVec.ofNat 32 (if op = 0 then roundN 8 mode false fz (addNum mode (f32Of fz old) (f32Of fz v))
      else roundN 8 mode false false (minMax (decide (op = 2)) (f32Of false old) (f32Of false v)))
  else
    let val (w : W32) : Int := if ty = 2 then w.toInt else (w.toNat : Int)
    let lo : Int := if ty = 2 then -2 ^ 31 else 0
    let hi : Int := if ty = 2 then 2 ^ 31 - 1 else 2 ^ 32 - 1
    let sum := val old + val v
    if op = 0 then (if sat then BitVec.ofInt 32 (max lo (min hi sum)) else BitVec.ofInt 32 sum)
    else if op = 1 then (if val old ≤ val v then old else v)
    else if val old ≤ val v then v else old

/-- R374: the entry of the import table lets a message through, to the physical address pa. -/
def ImportLets (s : State) (src win off n : Nat) (needR needW sysAtom : Bool) (key : W64) (pa : Nat) : Prop :=
  let e := readImport s win
  e.v = true ∧ e.rsvd = false ∧ e.kind ≠ 3 ∧ key = e.key ∧ (e.any = true ∨ src = e.src) ∧ off + n ≤ e.len ∧
    e.base + off + n - 1 < hbmSize ∧ (needR = true → e.r = true) ∧ (needW = true → e.w = true) ∧
    (sysAtom = true → e.sa = true) ∧ pa = e.base + off

/-- The task of a context is gone: no record, no context, no window; memory is as it was. -/
def TaskGone (s t : State) (h : W64) : Prop :=
  t.task? h = none ∧ t.run? h = none ∧ (∀ e ∈ t.alm, e.handle ≠ h) ∧ SameBytes s t

/-- The saved commands of a task write nothing as they are dropped: none has S signal and none is an ARRIVEC. -/
def SaveSilent (x : TaskRec) : Prop :=
  ∀ r, x.save = some r → ∀ c ∈ r.cmds, c.args.fs = false ∧ c.isArrivec = false

/-- The task in turn ends alone, as EndsAlone says, once the one command it has is gone. -/
def EndsAloneBut (s : State) (c : Cmd) : Prop :=
  s.cc.cmds = [c] ∧ EndsAlone { s with cc := { s.cc with cmds := [] } }

/-- R151: where in a CONTRIB's elements those of a partial stand. -/
def ringFrom (q : Contrib) (m : RingMsg) : Nat := (m.dest - q.key.dest).toNat / 4

/-- R150, R151: a partial belongs to a CONTRIB: the same group and epoch, and the destination of one of the CONTRIB's own
messages, which carry 64 elements each. -/
def RingPair (q : Contrib) (m : RingMsg) : Prop :=
  m.group = q.key.group ∧ m.epoch = q.key.epoch ∧ (m.dest - q.key.dest).toNat < 4 * q.q.length ∧
  (m.dest - q.key.dest).toNat % 256 = 0

/-- R148, R151: the partials in the hold of the engine that serves a partial's group: the I/O die that carries its PORT. -/
def holdOf (s : State) (m : RingMsg) : List RingMsg :=
  let die (x : RingMsg) : Nat := bits (SMap.get 0#64 s.groups x.group.toNat) 61 54 / 24
  s.rings.filter fun x => die x == die m

/-- R150: a partial and a CONTRIB agree on WIRE, FIRST, TOTAL and the number of elements. -/
def RingSame (q : Contrib) (m : RingMsg) : Prop :=
  m.wire = q.wire ∧ m.first = q.key.first ∧ m.total.toNat = q.q.length ∧
  m.vals.length = min 64 (q.q.length - ringFrom q m)

/-- R149: the header of a partial (KIND 1) or a result (KIND 2) of a rank. -/
def ringHead (kind rank : Nat) (m : RingMsg) : List W64 :=
  [keepN (kind * 2 ^ 62 + m.wire.toNat * 2 ^ 60 + m.group.toNat * 2 ^ 52 + rank * 2 ^ 40 + m.epoch.toNat * 2 ^ 24 +
    m.vals.length), m.dest, m.first, m.total]

/-- R151: the sums of a partial with the elements of this rank, one rounding to binary32 each. -/
def RingSums (q : Contrib) (m : RingMsg) (sums : List W32) : Prop :=
  sums.length = m.vals.length ∧
  ∀ (i : Nat) (a b : W32), m.vals[i]? = some a → q.q[ringFrom q m + i]? = some b → sums[i]? = some (BitVec.ofNat 32
    (roundN 8 0 false false (addNum 0 (f32Of false a) (decodeNum (wireFmt q.wire.toNat) false b.toNat))))

/-- R149: the one message of a contribution of at most 256 bytes of elements to a switch. -/
def contribMsg (k : CmdRef) (x : CmdArgs) (g : W64) (p : PeerWin) (off : Nat) (codes : List Nat) : OutMsg :=
  .contrib k
    [keepN (x.fld 94 92 * 2 ^ 60 + x.fld 87 80 * 2 ^ 52 + bits g 35 24 * 2 ^ 40 + x.fld 79 64 * 2 ^ 24 + codes.length),
      keepN (p.dev * 2 ^ 50 + p.win * 2 ^ 42 + off), keepN x.p0.toNat, keepN codes.length]
    (codes.flatMap fun q => leBytes (if x.fld 94 92 ≤ 1 then 1 else 2) q)

/-- R380: the packet a guest site sends on: its own words, W0[47:32] zero, with the tag, the save area and the promise. -/
def SentWords (ws out : List W64) (site tag cyc : Nat) (resume : Bool) : Prop :=
  out = [tw ws 0 &&& 0xFFFF0000FFFFFFFF#64, keepN (tag * 2 ^ 56 + (if resume then 2 ^ 55 else 0)), keepN (saveArea site tag),
    keepN (cyc + bits (tw ws 0) 31 0), tw ws 4, tw ws 5, tw ws 6, tw ws 7]

/-- R380: the tag is the lowest of the site that is free. -/
def LowestFree (g : GSite) (tag : Nat) : Prop :=
  tag < 256 ∧ SMap.get? g.tags tag = none ∧ ∀ j, j < tag → SMap.get? g.tags j ≠ none

/-! Queues -/

/-- A packet of a queue, by its header index. -/
def PacketAt (s : State) (r : PktRef) (q : Queue) (p : Packet) : Prop :=
  SMap.get? s.queues r.q = some q ∧ p ∈ q.packets ∧ p.idx = r.idx ∧ ∀ x ∈ q.packets, x.idx = r.idx → x = p

/-- One queue becomes q; the others stay. -/
def QueueBecomes (s t : State) (n : Nat) (q : Queue) : Prop :=
  SMap.get? t.queues n = some q ∧ ∀ j, j ≠ n → SMap.get? t.queues j = SMap.get? s.queues j

/-- A packet's record becomes y, its queue otherwise stays. -/
def PacketBecomes (s t : State) (r : PktRef) (q : Queue) (f : Packet → Packet) : Prop :=
  QueueBecomes s t r.q { q with packets := q.packets.map fun x => if x.idx = r.idx then f x else x }

/-- A packet has ended, well or in error, and leaves its queue next; u is the state in which its effect left the rest. -/
def PacketEnded (u t : State) (r : PktRef) (q : Queue) (ok : Bool) : Prop :=
  PacketBecomes u t r q (fun x => { x with ended := some ok }) ∧
  t = { u with queues := t.queues, work := u.work ++ [.packetComplete r] }

/-- The n bytes of a context's addresses from va on lie at consecutive readable physical addresses, free of errors. -/
def ReadFlat (s : State) (c : CtxEnt) (va n pa : Nat) : Prop :=
  ∀ i, i < n → s.badAt (pa + i) 1 = none ∧ ∃ attr, ctxPlace s.mem c (va + i) .r = some (.phys (pa + i) attr)

/-- A word at a context's address, readable and writable, stands in this device's memory at pa. -/
def WordAt (s : State) (c : CtxEnt) (va pa : Nat) (attr : BitVec 8) : Prop :=
  ctxPlace s.mem c va .r ≠ none ∧ ctxPlace s.mem c va .w = some (.phys pa attr)

/-- A context gives no word that may be read and written at an address. -/
def NoWord (s : State) (c : CtxEnt) (va : Nat) : Prop := ctxPlace s.mem c va .r = none ∨ ctxPlace s.mem c va .w = none

/-- R228, R322: the entries a queue's packets have left when one of them is gone, and those their homes hold. -/
def SlotsGone (s t : State) (r : PktRef) (p : Packet) : Prop :=
  t.heldOps = (s.heldOps.filter fun w => match w.owner with | .slot x _ => !decide (x = r) | _ => true) ∧
  t.vigils = (s.vigils.filter fun v => match v.waiter with | .packet n u _ => !(n == r.q && u == p.unit) | _ => true) ∧
  t.peers = s.peers.filter fun w => match w.owner with | .slot x _ => !decide (x = r) | _ => true

/-- R268, R388: a started packet waits in its queue again, its credit given back. -/
def Unstarted (s t : State) (r : PktRef) (q : Queue) (p : Packet) : Prop :=
  QueueBecomes s t r.q { q with
    credit := q.credit + 64 * p.units
    packets := q.packets.map fun x => if x.idx = r.idx then { x with started := false } else x } ∧
  t = { s with queues := t.queues }

/-- An event of the policy core waits for room in the response ring. -/
def EventWaits (s t : State) (m : MbCmd) : Prop :=
  s.mailRoom = false → s.mbox.events.length < 1024 → t.mbox = { s.mbox with events := s.mbox.events ++ [m] }

/-! The mailbox -/

/-- R327: where the next response and the progress word go. -/
def respAt (s : State) : Nat := farBase + s.dev.mbrsp.toNat + 64 * (s.mbox.resp % 256)
def idxAt (s : State) : Nat := farBase + s.dev.mbidx.toNat

/-- R327: a command m stands at the head of the ring, its step is i, and there is room to answer it where nothing
watches. -/
def MailAt (s : State) (i : Instr) (m : MbCmd) : Prop :=
  s.mailRoom = true ∧ s.mbox.consumed < s.mbox.written ∧
  [m.w0, m.w1, m.w2, m.w3, m.w4, m.w5, m.w6, m.w7] =
    memWords s.mem (farBase + s.dev.mbcmd.toNat + 64 * (s.mbox.consumed % 256)) 8 ∧
  mailInstr (bits m.w0 63 56) = i ∧ s.mbox.events = [] ∧ MemoryOk s ∧ Unwatched s (respAt s) 64 ∧ Unwatched s (idxAt s) 8 ∧
  (respAt s + 64 ≤ idxAt s ∨ idxAt s + 8 ≤ respAt s)

/-- R327: from the state u the response stands in the ring: the command's code, sequence number and argument with a
status, four result words, and the progress word; the command is consumed, and no other byte is changed. -/
def Responds (u t : State) (m : MbCmd) (status : Nat) (w2 w3 w4 w5 : W64) : Prop :=
  t.mbox = { u.mbox with consumed := u.mbox.consumed + 1, resp := u.mbox.resp + 1 } ∧
  memWords t.mem (respAt u) 8 =
    [keepN (bits m.w0 63 56 * 2 ^ 56 + status * 2 ^ 48 + bits m.w0 47 32 * 2 ^ 32 + bits m.w0 31 0), 0#64, w2, w3, w4, w5, 0#64,
      0#64] ∧
  memW64 t.mem (idxAt u) = keepN ((u.mbox.consumed + 1) % 2 ^ 32 * 2 ^ 32 + (u.mbox.resp + 1) % 2 ^ 32) ∧
  (∀ a, a < respAt u ∨ respAt u + 64 ≤ a → a < idxAt u ∨ idxAt u + 8 ≤ a → memByte t.mem a = memByte u.mem a) ∧
  t = { u with mem := t.mem, err := { u.err with bad := t.err.bad }, mbox := t.mbox, work := t.work, hostHeld := t.hostHeld,
               l1 := t.l1 } ∧
  CopiesFewer u t ∧ ∃ l, t.work = u.work ++ l

/-- R387: the guest work that a queue posted before is no ground any more to abort it; tags otherwise stay. -/
def AbortsForgotten (s u : State) (n : Nat) : Prop :=
  ∀ g, (u.guest g).present = (s.guest g).present ∧ ∀ j, SMap.get? (u.guest g).tags j = (SMap.get? (s.guest g).tags j).map fun t =>
    match t.owner with
    | .pkt p => if p.q = n then { t with abort := false } else t
    | _ => t

/-- A response without results: 0 done, 1 refused. -/
def Replies (u t : State) (m : MbCmd) (status : Nat) : Prop := Responds u t m status 0#64 0#64 0#64 0#64

/-! Guests -/

/-- A tag whose packet is with a guest that is present; `own` posted it. -/
def LiveTag (s : State) (site tag : Nat) (t : GTag) (own : Owner) : Prop :=
  SMap.get? (s.guest site).tags tag = some t ∧ (s.guest site).present = true ∧ t.owner = own ∧ own ≠ .none ∧ t.saved = false

/-- No other task is resident on the core of a context. -/
def AloneOnCore (s : State) (r : Run) : Prop := ∀ x, x = s.cc ∨ x ∈ s.runs → x.fc = r.fc → x.task = r.task

/-- R383: an access is a write into the save area of its tag, within one line. -/
def SavesTag (a : GuestAcc) : Prop :=
  ∃ bs, a.right = .write bs ∧ bs.length = a.size ∧ 0 < a.size ∧ a.va.toNat % 128 + a.size ≤ 128 ∧
    saveArea a.site a.tag ≤ a.va.toNat ∧ a.va.toNat + a.size ≤ saveArea a.site a.tag + 65536

/-- R384: a tag is free, its translations being invalidated: nobody owns it and the guest has been told. -/
def TagFreed (s t : State) (site tag : Nat) (g : GTag) : Prop :=
  SMap.get? (t.guest site).tags tag =
    some { g with owner := .none, preempt := none, saved := false, inval := some (g.inval.getD s.cyc), oldLease := tagLease s g } ∧
  (∀ j, j ≠ tag → SMap.get? (t.guest site).tags j = SMap.get? (s.guest site).tags j) ∧
  (t.guest site).present = (s.guest site).present ∧ (∀ j, j ≠ site → t.guest j = s.guest j)

/-- The tags of both sites and their presence are as before. -/
def SameTags (s t : State) : Prop :=
  ∀ i, (t.guest i).present = (s.guest i).present ∧ ∀ j, SMap.get? (t.guest i).tags j = SMap.get? (s.guest i).tags j

/-- A guest is answered; nothing else changes. -/
def OnlyAnswers (s t : State) (m : OutMsg) : Prop := t = { s with guests := t.guests, out := s.out ++ [m] } ∧ SameTags s t

/-- A guest has stored and is answered; nothing else changes. -/
def StoresAndAnswers (s t : State) (m : OutMsg) : Prop :=
  t = { s with guests := t.guests, mem := t.mem, err := { s.err with bad := t.err.bad }, hostHeld := t.hostHeld, l1 := t.l1,
               out := s.out ++ [m] } ∧ SameTags s t ∧ CopiesFewer s t

/-- Nothing of the package changes but messages sent. -/
def OnlySends (s t : State) (l : List OutMsg) : Prop := t = { s with out := s.out ++ l }

end Sys2Proof.Machine.Claims

open Sys2Proof Sys2Proof.Machine Sys2Proof.Machine.Claims

/-! ## Arithmetic (R83 to R95) -/

/-- R89, R90, R92: with full sources and a destination that is not awaited, each of the 21 instructions of the integer and
the multiply and divide groups writes the stated value, computed over the integers and kept modulo 2^64; s0 discards it.
No other register, no system register, no byte of memory and nothing else of the package changes, and the pc moves on. -/
def Obligations.TwoSourceArithmeticWritesItsResult : Prop :=
  ∀ p ∈ twoSource, ∀ (d a b : Reg) (ta tb : Bool) (s : State), Ready s [a, b] → Free s d →
    ∃ t, exec (p.1 d a b ta tb) s = .next t ∧ Writes s t d (p.2 (s.reg a) (s.reg b))

/-- R89, R91: ADDI, ANDI, ORI, XORI, SLTI, SLTIU with the sign-extended immediate, and SLLI, SRLI, SRAI with a shift amount
of six bits. -/
def Obligations.ImmediateArithmeticWritesItsResult : Prop :=
  (∀ p ∈ oneImmediate, ∀ (d a : Reg) (ta : Bool) (i : BitVec 15) (s : State), Ready s [a] → Free s d →
    ∃ t, exec (p.1 d a ta i) s = .next t ∧ Writes s t d (p.2 (s.reg a) i)) ∧
  (∀ p ∈ oneShift, ∀ (d a : Reg) (ta : Bool) (h : BitVec 6) (s : State), Ready s [a] → Free s d →
    ∃ t, exec (p.1 d a ta h) s = .next t ∧ Writes s t d (p.2 (s.reg a) h))

/-- R93, and R94 for BFX: CLZ, CTZ and POPC count bits, 64 for a zero word; SEXT and ZEXT extend the byte, half-word or word;
BFX extracts a field and zero-extends it. -/
def Obligations.OneSourceArithmeticWritesItsResult : Prop :=
  ∀ (d a : Reg) (ta : Bool) (i : Instr) (ok : W64 → W64 → Prop), OneSource d a ta i ok →
    ∀ s : State, Ready s [a] → Free s d → ∃ t v, exec i s = .next t ∧ ok (s.reg a) v ∧ Writes s t d v

/-- R94: BFI reads rd, always waiting, and keeps its bits outside the field. R95: LIH and ADDPC take no source. R88: FULL reads
a full bit without waiting on it; s0 is full. -/
def Obligations.FieldsConstantsAndFullWriteTheirResult : Prop :=
  ∀ s : State,
    (∀ (d a : Reg) (ta : Bool) (w p : BitVec 6), p.toNat + (w.toNat + 1) ≤ 64 → Ready s [a, d] →
      ∃ t v, exec (.bfi d a ta w p) s = .next t ∧ Writes s t d v ∧
        ∀ j, j < 64 → v.getLsbD j =
          if p.toNat ≤ j ∧ j ≤ p.toNat + w.toNat then (s.reg a).getLsbD (j - p.toNat) else (s.reg d).getLsbD j) ∧
    (∀ (d : Reg) (i : BitVec 21), Free s d →
      (∃ t, exec (.lih d i) s = .next t ∧ Writes s t d (keepI (i.toInt * 2 ^ 15))) ∧
      (∃ t, exec (.addpc d i) s = .next t ∧ Writes s t d (keepI (s.cc.pc.toNat + i.toInt * 2 ^ 15)))) ∧
    (∀ d a : Reg, Free s d →
      ∃ t, exec (.full d a) s = .next t ∧ Writes s t d (if s.cc.full a then 1#64 else 0#64))

/-- R87: MKE makes rd empty and orphaned whatever it was, without waiting; a delivery still to come for it is discarded; MKE s0
has no effect. Everything else stays. -/
def Obligations.MkeEmptiesItsRegister : Prop :=
  ∀ (d : Reg) (s : State), ∃ t, exec (.mke d) s = .next t ∧
    (d ≠ 0#5 → t.cc.full d = false ∧ t.cc.orphan d = true) ∧
    (t.cc.flights = s.cc.flights.map fun f => if f.rd = d ∧ d ≠ 0#5 then { f with live := false } else f) ∧
    SameRegsBut d s t ∧ (d = 0#5 → SameRegs s t) ∧ OnlyCc s t ∧
    t.cc = { s.cc with regs := t.cc.regs, flights := t.cc.flights, pc := t.cc.pc, loops := t.cc.loops, stall := t.cc.stall } ∧
    GoesOn s t

/-- R83, R84: an empty source with its source bit set, or one that no producer names, raises the empty-register trap, precise,
whose detail is the first empty source, in a context that can enter its handler. R83, R86: with no source that traps, the instruction
waits on an awaited source, the first or the second, and with full sources on an awaited destination: nothing changes but the count
of cycles in which the context could not issue, and, at every sixteenth of them (R408), its request to give way. Shown for every
instruction with two sources and every immediate one. -/
def Obligations.EmptySourcesTrapAndAwaitedRegistersHold : Prop :=
  (∀ s : State, CanEnter s →
    (∀ p ∈ twoSource, ∀ (d a b : Reg) (ta tb : Bool),
      (s.cc.full a = false ∧ (ta = true ∨ s.cc.orphan a = true)) ∨
        (s.cc.full b = false ∧ (tb = true ∨ s.cc.orphan b = true)) →
      ∃ t, exec (p.1 d a b ta tb) s = .next t ∧
        Enters s t (causeWord 0x0002 0 (if s.cc.full a then b else a).toNat) s.cc.pc 0#64) ∧
    (∀ p ∈ oneImmediate, ∀ (d a : Reg) (ta : Bool) (i : BitVec 15),
      s.cc.full a = false → (ta = true ∨ s.cc.orphan a = true) →
      ∃ t, exec (p.1 d a ta i) s = .next t ∧ Enters s t (causeWord 0x0002 0 a.toNat) s.cc.pc 0#64)) ∧
  (∀ s : State,
    (∀ p ∈ twoSource, ∀ (d a b : Reg) (tb : Bool), s.cc.awaited a = true → s.cc.full b = true →
      ∃ t, exec (p.1 d a b false tb) s = .next t ∧ Waits s t) ∧
    (∀ p ∈ twoSource, ∀ (d a b : Reg) (ta : Bool), s.cc.full a = true → s.cc.awaited b = true →
      ∃ t, exec (p.1 d a b ta false) s = .next t ∧ Waits s t) ∧
    (∀ p ∈ twoSource, ∀ (d a b : Reg), s.cc.awaited a = true → s.cc.awaited b = true →
      ∃ t, exec (p.1 d a b false false) s = .next t ∧ Waits s t) ∧
    (∀ p ∈ oneImmediate, ∀ (d a : Reg) (i : BitVec 15), s.cc.awaited a = true →
      ∃ t, exec (p.1 d a false i) s = .next t ∧ Waits s t) ∧
    (∀ p ∈ twoSource, ∀ (d a b : Reg) (ta tb : Bool), Ready s [a, b] → s.cc.awaited d = true →
      ∃ t, exec (p.1 d a b ta tb) s = .next t ∧ Waits s t) ∧
    (∀ p ∈ oneImmediate, ∀ (d a : Reg) (ta : Bool) (i : BitVec 15), Ready s [a] → s.cc.awaited d = true →
      ∃ t, exec (p.1 d a ta i) s = .next t ∧ Waits s t))

/-! ## Control flow (R256 to R259, R408) -/

/-- R256, R258: a branch whose condition holds goes to PC + sext(imm14) × 4, leaving the loops whose bodies do not hold
the target; otherwise it goes on. It writes no register and accesses no memory. -/
def Obligations.BranchesGoWhereTheirConditionSays : Prop :=
  ∀ p ∈ branches, ∀ (b a : Reg) (ta tb : Bool) (i : BitVec 14) (s : State), Ready s [a, b] →
    ∃ t, exec (p.1 b a ta tb i) s = .next t ∧ SameRegs s t ∧ OnlyRegsPc s t ∧
      (p.2 (s.reg a) (s.reg b) → LeavesTo s t (keepI (s.cc.pc.toNat + 4 * i.toInt))) ∧
      (¬ p.2 (s.reg a) (s.reg b) → GoesOn s t)

/-- R257: JAL and JALR write PC + 4 into rd and go to their target; JALR reads its source before rd is written, and a target
whose low two bits are not 0 is the misalignment trap, precise, with rd unchanged. -/
def Obligations.JumpsLinkAndGo : Prop :=
  ∀ s : State,
    (∀ (d : Reg) (i : BitVec 21), Free s d →
      ∃ t, exec (.jal d i) s = .next t ∧ Holds t d (s.cc.pc + 4#64) ∧ SameRegsBut d s t ∧ OnlyRegsPc s t ∧
        LeavesTo s t (keepI (s.cc.pc.toNat + 4 * i.toInt))) ∧
    (∀ (d a : Reg) (ta : Bool) (o : BitVec 13), Ready s [a] →
      let v := keepI ((s.reg a).toNat + 4 * o.toInt)
      (v.toNat % 4 = 0 → Free s d →
        ∃ t, exec (.jalr d a ta o) s = .next t ∧ Holds t d (s.cc.pc + 4#64) ∧ SameRegsBut d s t ∧ OnlyRegsPc s t ∧
          LeavesTo s t v) ∧
      (v.toNat % 4 ≠ 0 → CanEnter s →
        ∃ t, exec (.jalr d a ta o) s = .next t ∧ Enters s t (causeWord 0x0003 0 0) s.cc.pc v))

/-- R258: LOOP pushes an entry, skips its body for a count of 0, and traps, changing no stack, for a count of 2^32 or
more (reason 1) and for a fifth entry (reason 2). That the skip is itself a taken transfer is the model's choice (log
entry 9); the statement speaks of the skip with an empty loop stack only. -/
def Obligations.LoopPushesSkipsOrTraps : Prop :=
  ∀ (a : Reg) (ta : Bool) (l : BitVec 13) (s : State), Ready s [a] → l ≠ 0#13 →
    let c := (s.reg a).toNat
    (0 < c → c < 2 ^ 32 → s.cc.loops.length < 4 → (∀ e ∈ s.cc.loops, e.fin ≠ s.cc.pc) →
      ∃ t, exec (.loop a ta l) s = .next t ∧ t.cc.pc = s.cc.pc + 4#64 ∧
        t.cc.loops = ⟨s.cc.pc + 4#64, keepN (s.cc.pc.toNat + 4 * l.toNat), c⟩ :: s.cc.loops ∧
        SameRegs s t ∧ OnlyRegsPc s t) ∧
    (c = 0 → s.cc.loops = [] →
      ∃ t, exec (.loop a ta l) s = .next t ∧ t.cc.pc = keepN (s.cc.pc.toNat + 4 + 4 * l.toNat) ∧ t.cc.loops = [] ∧
        SameRegs s t ∧ OnlyRegsPc s t) ∧
    (2 ^ 32 ≤ c → CanEnter s →
      ∃ t, exec (.loop a ta l) s = .next t ∧ Enters s t (causeWord 0x0004 1 0) s.cc.pc (s.reg a)) ∧
    (0 < c → c < 2 ^ 32 → 4 ≤ s.cc.loops.length → CanEnter s →
      ∃ t, exec (.loop a ta l) s = .next t ∧ Enters s t (causeWord 0x0004 2 0) s.cc.pc (s.reg a))

/-- R258: when an instruction completes without a taken transfer, the innermost entry that ends there goes round again while
its count is above 1; entries with a count of 1 are popped, and the next with the same end is counted in the same step.
Entries that end elsewhere keep their places. `State.retire` is how every instruction of a control core completes. -/
def Obligations.LoopEndsAreCounted : Prop :=
  ∀ s : State, GoesOn s s.retire

/-- R259: PAUSE 0 has no effect; PAUSE n at a cycle C sets the end of the cycles C + 1 to C + n in which the context gives precedence
to others; YIELD gives way; the switch is an event of the core to come. R408: a context that gives way hands its core to the next
context in round-robin order that can issue, and keeps the core when no other can. -/
def Obligations.PauseYieldAndSwitchShareTheCore : Prop :=
  (∀ s : State,
    (∃ t, exec (.pause 0#13) s = .next t ∧ SameRegs s t ∧ OnlyRegsPc s t ∧ GoesOn s t) ∧
    (∀ n : BitVec 13, n ≠ 0#13 → ∃ t, exec (.pause n) s = .next t ∧ t.cc.pauseTo = s.cyc + n.toNat + 1 ∧ Yields s t) ∧
    (∃ t, exec .yield s = .next t ∧ t.cc.pauseTo = s.cc.pauseTo ∧ Yields s t)) ∧
  (∀ (s : State) (r : Run), s.cc = r → r.task ≠ 0#64 → r.active = true → r.yields = true → r.ctxn < 3 →
    (∀ x ∈ s.runs, x.task ≠ r.task ∧ x.task ≠ 0#64) → (∀ x ∈ s.runs, x.fc = r.fc → x.ctxn ≠ r.ctxn ∧ x.active = false) →
    (∀ x ∈ s.runs, x.active = true → x.yields = false ∧ x.ending = none) →
    (∀ x ∈ s.runs, x.active = false → x.fc = r.fc ∨ ∃ y ∈ s.runs, y.active = true ∧ y.fc = x.fc) →
    (∀ j x, j = 1 ∨ j = 2 → (∀ i y, 0 < i → i < j → residentAt s r.fc ((r.ctxn + i) % 3) = some y → y.canIssue s.cyc = false) →
      residentAt s r.fc ((r.ctxn + j) % 3) = some x → x.canIssue s.cyc = true →
      ∃ t, exec .contextSwitch s = .next t ∧ t.cc = { r with active := false, yields := false } ∧
        t.runs = (s.runs.map fun y => if y.fc = r.fc then { y with active := y.task == x.task, yields := false } else y) ∧
        SameBytes s t) ∧
    ((∀ x ∈ s.runs, x.fc = r.fc → x.canIssue s.cyc = false) →
      ∃ t, exec .contextSwitch s = .next t ∧ t = { s with cc := { r with yields := false } }))

/-! ## System registers, traps and returns (R85, R390 to R402) -/

/-- R399, R400: SRR writes the system register into rd, full. SRW sets a writable system register to s[a], clearing bits [1:0]
of sr.tvec and sr.epc; every other system register reads as before. -/
def Obligations.SystemRegistersReadAndWrite : Prop :=
  (∀ (d : Reg) (r : BitVec 12) (v : W64) (s : State), SysReg s r v → Free s d →
    ∃ t, exec (.srr d r) s = .next t ∧ Writes s t d v) ∧
  (∀ (a : Reg) (r : BitVec 12) (s : State), Ready s [a] → srWritable r = true →
    ∃ t, exec (.srw a r) s = .next t ∧
      SysReg t r (if r = 0x008#12 ∨ r = 0x00A#12 then keepN ((s.reg a).toNat / 4 * 4) else s.reg a) ∧
      (∀ q v, q ≠ r → SysReg s q v → SysReg t q v) ∧ SameRegs s t ∧ OnlyCc s t ∧
      t.cc = { s.cc with sys := t.cc.sys, pc := t.cc.pc, loops := t.cc.loops, stall := t.cc.stall } ∧ GoesOn s t)

/-- R391, R401, R32, R402, R396: with a handler set and none running, TRAP n, a word that is no instruction, and ERET outside
a handler enter the handler; TRAP returns to the next instruction, the others to their own. sr.frec0 to sr.frec4 hold V and
AGENT 0 with the cause, the cycle, the placement, epc and TVAL. Nothing else changes. -/
def Obligations.TrapsEnterTheHandler : Prop :=
  ∀ s : State, CanEnter s →
    (∀ n, ∃ t, exec (.trap n) s = .next t ∧ Enters s t (causeWord 0x0005 0 0) (s.cc.pc + 4#64) (n.setWidth 64) ∧
      t.cc.sys.frec.toList.take 5 =
        [0x8000000000000005#64, keepN s.cyc, s.cc.place, keepN ((s.cc.pc + 4#64).toNat % 2 ^ 57), n.setWidth 64]) ∧
    (∀ w, ∃ t, exec (.illegalInstruction w) s = .next t ∧
      Enters s t (causeWord 0x0001 0 0) s.cc.pc (w.setWidth 64)) ∧
    (∃ t, exec .eret s = .next t ∧ Enters s t (causeWord 0x0001 0 0) s.cc.pc 0xFC008000#64)

/-- R402: ERET in a handler goes to sr.epc, clears H, discards the handler's loop stack and puts the set-aside one back. R258:
what a trap entry sets aside, ERET puts back: after TRAP n and, at once, ERET, the context goes on after the TRAP with its
registers and its loop stack as they were. -/
def Obligations.EretReturnsAndRestoresTheLoops : Prop :=
  (∀ s : State, s.cc.sys.hmode = true → ∃ t, exec .eret s = .next t ∧
    t.cc.pc = s.cc.sys.epc ∧ t.cc.sys = { s.cc.sys with hmode := false } ∧ t.cc.loops = s.cc.aside ∧
    t.cc.aside = [] ∧ SameRegs s t ∧ OnlyCc s t ∧
    t.cc = { s.cc with pc := t.cc.pc, loops := t.cc.loops, aside := t.cc.aside, sys := t.cc.sys, stall := t.cc.stall }) ∧
  (∀ (s : State) (n : BitVec 12), CanEnter s → ∃ t u, exec (.trap n) s = .next t ∧ exec .eret t = .next u ∧
    u.cc.pc = s.cc.pc + 4#64 ∧ u.cc.loops = s.cc.loops ∧ u.cc.sys.hmode = false ∧ SameRegs s u ∧ OnlyCc s u)

/-- R394, R395: a trap with sr.tvec = 0, and every precise trap inside a handler, ends the task by FaultEnd: at once
when no command still runs, its record is freed and its window is given up. Shown for TRAP and for an illegal word, in a
task that has no parent, no completion record and no task waiting for its end. -/
def Obligations.TrapWithoutHandlerEndsTheTask : Prop :=
  ∀ (s : State) (i : Instr), (∃ n, i = .trap n) ∨ (∃ w, i = .illegalInstruction w) →
    s.cc.sys.tvec = 0#64 ∨ s.cc.sys.hmode = true → EndsAlone s →
    ∃ t, exec i s = .next t ∧ t.task? s.cc.task = none ∧ t.run? s.cc.task = none ∧
      (∀ e ∈ t.alm, e.handle ≠ s.cc.task) ∧ SameBytes s t

/-- R392: at an instruction boundary with no handler running, the deferred trap that is due first is taken: a region
fault before the missed promises, those in ascending P; it is no longer due, and epc is the next instruction. -/
def Obligations.DeferredTrapIsTakenInOrder : Prop :=
  ∀ (s : State) (d : DueTrap), CanEnter s → s.cc.ending = none → d ∈ s.cc.due →
    (if d.region then ∀ x ∈ s.cc.due, x.region = true → x = d
     else (∀ x ∈ s.cc.due, x.region = false ∧ (x ≠ d → d.prom < x.prom))) →
    ∃ t, exec .deferredTrapEntry s = .next t ∧ t.cc.due = s.cc.due.erase d ∧
      t.cc.pc = s.cc.sys.tvec ∧ t.cc.sys.cause = d.cause ∧ t.cc.sys.epc = s.cc.pc ∧ t.cc.sys.tval = d.tval ∧
      t.cc.sys.hmode = true ∧ t.cc.loops = [] ∧ t.cc.aside = s.cc.loops ∧ SameRegs s t ∧ OnlyCc s t

/-- R85, R86: a late producer's value lands in its register, which becomes full, in the context of its task, whether it
is the one in turn or not; a delivery that MKE cancelled changes no register. The context stands as before but for that (shown while
no access of it waits to be performed next, R165). -/
def Obligations.LateDeliveryFillsItsRegister : Prop :=
  ∀ (s : State) (r : Run) (f : Flight) (v : W64), s.run? r.task = some r →
    (r.flights.find? fun g => decide (g.id = f.id)) = some f → f.val = some v →
    (r.ending ≠ none ∨ ∀ a, r.accs.head? = some a → a.sent = true) →
    ∃ t u, exec (.lateDelivery ⟨r.task, f.id⟩) s = .next t ∧ SameBytes s t ∧ t.run? r.task = some u ∧
        u = { r with regs := u.regs, stall := u.stall, flights := r.flights.filter fun g => !decide (g.id = f.id) } ∧
        (f.live = true → u.full f.rd = true ∧ u.reg f.rd = (if f.rd = 0#5 then 0#64 else v)) ∧
        (∀ k, k ≠ f.rd → u.cell k = r.cell k) ∧ (f.live = false → u.regs = r.regs)

/-! ## Accesses of the control core (R183 to R187) -/

/-- R183, R184: with its base full, its address aligned and granted, LD and LDA mark rd empty and awaited, and their delivery
brings the n little-endian bytes at the address, sign-extended. No byte of memory changes. -/
def Obligations.LoadsDeliverTheirBytes : Prop :=
  ∀ (d a : Reg) (ta : Bool) (z : BitVec 2) (o : BitVec 13) (s : State) (e : Extent) (pa : Nat),
    Ready s [a] → Free s d → Granted s (addrOf s a o) (2 ^ z.toNat) .r e pa → s.badAt pa (2 ^ z.toNat) = none →
    ∀ i, i = .ld d a ta z o ∨ i = .lda d a ta z o →
    ∃ t, exec i s = .next t ∧
      Awaits s t d (some (keepI ((leNat (memBytes s.mem pa (2 ^ z.toNat)) : Int).bmod (2 ^ (8 * 2 ^ z.toNat))))) ∧
      t.work = s.work ++ [.lateDelivery ⟨s.cc.task, s.cc.nextId⟩] ∧
      t = { s with cc := t.cc, work := t.work } ∧ SameBytes s t

/-- R185: with its sources full, its address aligned and granted, ST and STR store the low n bytes of s[b], the least significant
first, at the physical address of the access. Every other byte reads as before, but for valid barrier objects the store
strikes or is counted by (R239, R242); where nothing watches the bytes, nothing but them, healed sectors and the pc changes. -/
def Obligations.StoresPutTheirBytes : Prop :=
  ∀ (b a : Reg) (ta tb : Bool) (z : BitVec 2) (o : BitVec 12) (s : State) (e : Extent) (pa : Nat),
    Ready s [a, b] → Granted s (addrOf s a o) (2 ^ z.toNat) .w e pa → MemoryOk s →
    ∀ i, i = .st b a ta tb z o ∨ i = .str b a ta tb z o →
    ∃ t, exec i s = .next t ∧ SameRegs s t ∧ StoresOnly s t pa (2 ^ z.toNat) ∧
      (ClearOfBarriers s pa (2 ^ z.toNat) → BytesAt t pa (bytesOf (s.reg b) (2 ^ z.toNat))) ∧
      (Unwatched s pa (2 ^ z.toNat) → SameButMemoryAndCc s t ∧ GoesOn s t ∧
        t.cc = { s.cc with pc := t.cc.pc, loops := t.cc.loops, stall := t.cc.stall })

/-- R183: a load or store whose address is no multiple of its size is the misalignment trap with the address. R365: one that
the lease does not grant touches no memory and ends the task by FaultEnd whatever sr.tvec holds: at once, when nothing of the
task still runs. -/
def Obligations.AccessesThatMayNotGoTouchNothing : Prop :=
  ∀ (s : State) (i : Instr) (a : Reg) (ea : W64) (n : Nat) (right : Right) (l : List Reg),
    CoreAccess s i a ea n right l → Ready s l →
    (ea.toNat % n ≠ 0 → CanEnter s → ∃ t, exec i s = .next t ∧ Enters s t (causeWord 0x0003 0 0) s.cc.pc ea) ∧
    (ea.toNat % n = 0 → (∃ r, covered s.cc.lease ea.toNat n right = .error r) → EndsAlone s →
      ∃ t, exec i s = .next t ∧ t.task? s.cc.task = none ∧ t.run? s.cc.task = none ∧ SameBytes s t)

/-- R186: FENCE goes on in every state and changes nothing: it orders, and the accesses of a context are performed in program order
with or without it (DESIGN CHOICE, log entry 7), as the last clause says: while an earlier access of the context is not yet performed,
a load or store issued after it, or after a FENCE, touches no memory and stands behind it, unperformed. R187: FLUSH needs the right
R or W at its address and changes nothing that an agent could read. -/
def Obligations.FenceAndFlushOrderAndChangeNothing : Prop :=
  ∀ s : State,
    (∀ (e f g h : Bool) (c : BitVec 3),
      ∃ t, exec (.fence e f g h c) s = .next t ∧ SameRegs s t ∧ OnlyRegsPc s t ∧ GoesOn s t) ∧
    (∀ (a : Reg) (ta : Bool) (o : BitVec 15) (x : Extent) (pa : Nat) (attr : BitVec 8), Ready s [a] → ccBusy s = false →
      (covered s.cc.lease (addrOf s a o).toNat 1 .r = .ok x ∨
        (∃ n, covered s.cc.lease (addrOf s a o).toNat 1 .r = .error n) ∧
          covered s.cc.lease (addrOf s a o).toNat 1 .w = .ok x) →
      x.place (addrOf s a o).toNat = .phys pa attr →
      ∃ t, exec (.flush a ta o) s = .next t ∧ SameRegs s t ∧ GoesOn s t ∧ SameBytes s t ∧
        t = { s with cc := t.cc, l1 := s.l1.filter fun c => decide (c.line ≠ pa / 128) } ∧
        t.cc = { s.cc with pc := t.cc.pc, loops := t.cc.loops, stall := t.cc.stall }) ∧
    (∀ (i : Instr) (a : Reg) (ea : W64) (n : Nat) (right : Right) (l : List Reg) (e : Extent), CoreAccess s i a ea n right l →
      Ready s l → ea.toNat % n = 0 → covered s.cc.lease ea.toNat n right = .ok e → ccBusy s = true →
      (∀ d, (∃ a ta z o, i = .ld d a ta z o ∨ i = .lda d a ta z o) → Free s d) →
      ∃ t kind, exec i s = .next t ∧ SameBytes s t ∧ t.work = s.work ∧ GoesOn s t ∧
        t.cc.accs = s.cc.accs ++ [⟨s.cc.nextId, ea, s.cc.pc, kind, false⟩] ∧
        (right = .r → kind = .load n) ∧ (right = .w → ∃ bs, kind = .store bs ∧ bs.length = n))

/-! ## Synchronisation (R227 to R248) -/

/-- R227, R229: with its sources full, its address aligned and granted and no path refusing it, each synchronisation instruction
sends one operation to the home die of its word, with its operands read; rd, where there is one, is empty and awaited until the
home answers. Nothing is stored until the home performs it. R245: WATCH keeps the context at its own instruction until its entry is
armed; the others go on. (ATOM at scope .fc is performed at once: the next statement. BINIT is shown for an object that does not count
bytes.) -/
def Obligations.SynchronisationSendsItsOperation : Prop :=
  (∀ (s : State) (i : Instr) (l : List Reg) (need : SyncNeed) (c : BitVec 3) (ea : W64) (d : Option Reg) (z : Bool)
    (kind : HomeKind) (e : Extent) (pa : Nat) (attr : BitVec 8),
    Sends s i l need c ea d z kind → Ready s l → (∀ k, d = some k → Free s k) → ea.toNat % need.align = 0 →
    coveredRW s.cc.lease ea.toNat need.size need.r need.w = .ok e → e.place ea.toNat = .phys pa attr →
    pathRefuses s (e.place ea.toNat) c.toNat need.pcie = none → ccBusy s = false →
    badIn s e ea.toNat need.size = none →
    ∃ t, exec i s = .next t ∧ t.homes = s.homes ++ [opOf z pa (attrSa attr || inFar pa) kind s.cc ⟨s.cc.nextId, 0#5, false, none⟩] ∧
      t.work = s.work ++ [.homeOperation] ∧ t = { s with cc := t.cc, homes := t.homes, work := t.work } ∧ SameBytes s t ∧
      (∃ w, t.cc.accs = [⟨s.cc.nextId, ea, s.cc.pc, w, true⟩]) ∧
      (∀ k, d = some k → Awaits s { t with cc := { t.cc with accs := s.cc.accs } } k none) ∧
      (d = none → SameRegs s t ∧
        ((∀ cmp mask v, kind ≠ .watch cmp mask v) → GoesOn s t ∧ t.cc = { s.cc with
          accs := t.cc.accs, nextId := s.cc.nextId + 1, pc := t.cc.pc, loops := t.cc.loops, stall := t.cc.stall }) ∧
        ((∃ cmp mask v, kind = .watch cmp mask v) → t.cc = { s.cc with accs := t.cc.accs, nextId := s.cc.nextId + 1 }))) ∧
  (∀ (d a b : Reg) (ta tb : Bool) (m : BitVec 4) (z : Bool) (c : BitVec 3) (s : State),
    (∃ x ∈ s.cc.accs, x.pc = s.cc.pc ∧ ∃ y cmp mask v sc n nr nw, x.kind = .sync y (.watch cmp mask v) sc n nr nw) →
    ∃ t, exec (.watch d a b ta tb m z c) s = .next t ∧ Waits s t)

/-- R227, R230, R231, R234: HOME_OPERATION, and HOME_RETRY for one the home held (R228), performs the operation that arrived
first: the word takes the stated value, the old value, sign-extended, is the answer; every byte outside the word stays. R233:
an atomic routine gives the new value and the result. R231: ATOM at .fc, CAS (operation 9, which reads rd too) among its operations, does the same at once. Shown where nothing
watches the word. -/
def Obligations.AtomicsUpdateTheirWordOnce : Prop :=
  ∀ s : State, MemoryOk s →
    (∀ (z : Bool) (pa : Nat) (r : Run) (f : Flight) (kind : HomeKind) (new : BitVec (wordBits z)),
      Unwatched s pa (wordLen z) →
      ((∃ op v cmp c, kind = .atom op v cmp c ∧ new = atomValue op _ (wordAt s z pa) (v.setWidth _) (cmp.setWidth _)) ∨
        (∃ op v c, kind = .sigop op v c ∧ new = signalValue op _ (wordAt s z pa) (v.setWidth _))) →
      (FirstAtHome s z pa kind r f →
        ∃ t, exec .homeOperation s = .next t ∧ wordAt t z pa = new ∧ SameBytesOutside pa (wordLen z) s t ∧
          Answered s t r f (deliveredWord z (wordAt s z pa))) ∧
      (HeldAtHome s z pa kind r f →
        ∃ t, exec .homeRetry s = .next t ∧ wordAt t z pa = new ∧ SameBytesOutside pa (wordLen z) s t ∧
          t.homes = s.homes ∧ t.heldOps = [] ∧ Got t r f (deliveredWord z (wordAt s z pa)))) ∧
    (∀ (pa n ctx : Nat) (v : W64) (r : Run) (f : Flight),
      FirstAtHome s true pa (.atomr n ctx v) r f → Unwatched s pa 8 →
      ∃ t, exec .homeOperation s = .next t ∧
        memW64 t.mem pa = (atomrRun (SMap.get [] s.routines (64 * ctx + n)) (memW64 s.mem pa) v).1 ∧
        SameBytesOutside pa 8 s t ∧
        Answered s t r f (atomrRun (SMap.get [] s.routines (64 * ctx + n)) (memW64 s.mem pa) v).2) ∧
    (∀ (d a b : Reg) (ta tb : Bool) (o : BitVec 4) (z : Bool) (e : Extent) (pa : Nat) (attr : BitVec 8),
      Ready s [a, b] → Free s d → o.toNat ≤ 9 → s.cc.task ≠ 0#64 → (s.reg a).toNat % wordLen z = 0 →
      coveredRW s.cc.lease (s.reg a).toNat (wordLen z) true true = .ok e → e.place (s.reg a).toNat = .phys pa attr →
      ccBusy s = false → badIn s e (s.reg a).toNat (wordLen z) = none → Unwatched s pa (wordLen z) →
      (o.toNat = 9 → s.cc.full d = true) →
      ∃ t, exec (.atom d a b ta tb o z 1#3) s = .next t ∧
        wordAt t z pa = atomValue o.toNat _ (wordAt s z pa) ((s.reg b).setWidth _) ((s.reg d).setWidth _) ∧
        SameBytesOutside pa (wordLen z) s t ∧ Awaits s t d (some (deliveredWord z (wordAt s z pa))) ∧
        t.work = s.work ++ [.lateDelivery ⟨s.cc.task, s.cc.nextId⟩])

/-- R235, R241, at the home: BINIT writes V, the scope and EXPECT, PHASE 0, COUNT 0 and STATUS 0 and makes the object valid. R238:
ARRIVE counts one arrival for the open phase and answers its token; the last one expected opens the next phase. R237, R241:
TESTPH answers 1 when the phase has been left, 0 when not, 2 for an object that is not valid, 3 for a token out of range; WAITPH
does so once it is not 0, and waits until then. BINV clears V. Shown where nothing else watches the object. -/
def Obligations.BarrierObjectsCountAndAnswer : Prop :=
  ∀ (s : State) (pa : Nat) (r : Run) (f : Flight), MemoryOk s →
    (∀ (ex : W32) (c : Nat), FirstAtHome s true pa (.binit false ex c 0 0) r f → (∀ b ∈ s.bars, b.pa ≠ pa) →
      Unwatched s pa 40 → c < 8 →
      ∃ t, exec .homeOperation s = .next t ∧ t.bars = s.bars ++ [⟨pa, false, 0, 0⟩] ∧
        memW64 t.mem pa = keepN (2 ^ 63 + c * 2 ^ 59 + ex.toNat) ∧ memW64 t.mem (pa + 8) = 0#64 ∧
        memW64 t.mem (pa + 32) = 0#64 ∧ SameBytesOutside pa 40 s t) ∧
    (FirstAtHome s true pa .arrive r f → s.bars.find? (fun b => decide (b.pa = pa)) = some ⟨pa, false, 0, 0⟩ →
      s.barWaits = [] →
      (barCount s pa + 1 < barExpect s pa →
        ∃ t, exec .homeOperation s = .next t ∧ barPhase t pa = barPhase s pa ∧ barCount t pa = barCount s pa + 1 ∧
          SameBytesOutside pa 16 s t ∧ Answered s t r f ((barPhase s pa).setWidth 64)) ∧
      (barCount s pa + 1 = barExpect s pa → barAhead s pa < barExpect s pa →
        ∃ t, exec .homeOperation s = .next t ∧ barPhase t pa = barPhase s pa + 1#16 ∧ barCount t pa = barAhead s pa ∧
          barAhead t pa = 0 ∧ SameBytesOutside pa 16 s t ∧ Answered s t r f ((barPhase s pa).setWidth 64))) ∧
    (∀ tok v, PhaseAnswer s pa tok v →
      (FirstAtHome s true pa (.testph tok) r f →
        ∃ t, exec .homeOperation s = .next t ∧ Answered s t r f v ∧ SameBytes s t) ∧
      (FirstAtHome s true pa (.waitph tok) r f →
        ∃ t, exec .homeOperation s = .next t ∧ SameBytes s t ∧ (v ≠ 0#64 → Answered s t r f v) ∧
          (v = 0#64 → t.barWaits = s.barWaits ++ [⟨pa, tok, .cc r.task f.id⟩] ∧ t.work = s.work))) ∧
    (FirstAtHome s true pa .binv r f → (∃ b ∈ s.bars, b.pa = pa) → s.barWaits = [] → s.vigils = [] →
      ∃ t, exec .homeOperation s = .next t ∧ (∀ b ∈ t.bars, b.pa ≠ pa) ∧ bit (memW64 t.mem pa) 63 = false ∧
        SameBytesOutside pa 40 s t)

/-- R246, at the home: FUTRD of a word that is not all ones answers it at once; an empty word leaves a vigil entry; FUTWR
stores its value. R244: a write after which the condition of an entry holds removes the entry and delivers the word to the
waiting register. R245: WATCH arms an entry of the task when its condition does not hold yet, and retires. -/
def Obligations.FuturesAndVigilsWake : Prop :=
  ∀ (s : State) (z : Bool) (pa : Nat) (r : Run) (f : Flight), MemoryOk s →
    (FirstAtHome s z pa .futrd r f → wordAt s z pa ≠ BitVec.allOnes _ →
      ∃ t, exec .homeOperation s = .next t ∧ Answered s t r f (deliveredWord z (wordAt s z pa)) ∧ SameBytes s t) ∧
    (FirstAtHome s z pa .futrd r f → wordAt s z pa = BitVec.allOnes _ →
      ∃ t, exec .homeOperation s = .next t ∧ SameBytes s t ∧ t.work = s.work ∧
        t.vigils = s.vigils ++ [⟨1, z, pa, BitVec.allOnes 64, BitVec.allOnes 64, .ccReg r.task f.id⟩]) ∧
    (∀ v : W64, FirstAtHome s z pa (.futwr v) r f → Unwatched s pa (wordLen z) →
      ∃ t, exec .homeOperation s = .next t ∧ wordAt t z pa = v.setWidth _ ∧ SameBytesOutside pa (wordLen z) s t) ∧
    (∀ (v : W64) (q : Flight), FirstAtHome s z pa (.futwr v) r f → q ∈ r.flights → ClearOfBarriers s pa (wordLen z) →
      (∀ b ∈ s.bars, b.counting = false) → (v.setWidth (wordBits z)) ≠ BitVec.allOnes _ →
      s.vigils = [⟨1, z, pa, BitVec.allOnes 64, BitVec.allOnes 64, .ccReg r.task q.id⟩] → q.id ≠ f.id →
      ∃ t, exec .homeOperation s = .next t ∧ t.vigils = [] ∧ wordAt t z pa = v.setWidth _ ∧
        .lateDelivery ⟨r.task, q.id⟩ ∈ t.work ∧
        ∀ u, t.run? r.task = some u → { q with val := some (deliveredWord z (v.setWidth _)) } ∈ u.flights) ∧
    (∀ (m : Nat) (mask v : W64), FirstAtHome s z pa (.watch m mask v) r f → m ≤ 9 →
      (Vigil.holds ⟨m, z, pa, mask, v, .task r.task⟩ s = false) →
      ∃ t, exec .homeOperation s = .next t ∧ t.vigils = s.vigils ++ [⟨m, z, pa, mask, v, .task r.task⟩] ∧ SameBytes s t ∧
        ∀ u, t.run? r.task = some u → u.pc = r.retire.pc ∧ u.loops = r.retire.loops ∧ u.regs = r.regs)

/-! ## Encoding (R29 to R52) -/

/-- R29 to R40: for every well-formed scalar instruction, with every operand at every value its format admits, decoding
its word gives it back, and so does decoding its bytes, which leaves the bytes that follow. -/
def Obligations.ScalarEncodeThenDecode : Prop :=
  ∀ (i : Instr) (w : W32), i.wf = true → encodeWord i = some w →
    decodeWord w = .ok i ∧ ∀ rest, decode (encode i ++ rest) = .ok (i, rest)

/-- R32, R34: the decoder accepts a word only when it is the encoding of a well-formed instruction, unused fields zero and
sub-fields listed, so no word has two readings and no reserved word is taken for a neighbour. -/
def Obligations.ScalarDecodeIsExact : Prop :=
  ∀ (w : W32) (i : Instr), decodeWord w = .ok i → i.wf = true ∧ encodeWord i = some w

/-- R41 to R45, R47 to R50: a well-formed stream command decodes from its 128-bit template, a well-formed site operation from its
64-bit word; and a word that decodes is the word of what it decodes to, for the acceptance or the site it was read for. -/
def Obligations.CommandAndSiteEncodeThenDecode : Prop :=
  (∀ (i : Instr) (k : CmdRef) (x : CmdArgs) (w : W128), i.wf = true → i.cmdArgs = some (k, x) → encodeCmd i = some w →
    decodeCmd k w = some i) ∧
  (∀ (k : CmdRef) (w : W128) (i : Instr), decodeCmd k w = some i →
    i.wf = true ∧ encodeCmd i = some w ∧ i.cmdArgs = some (k, unpackCmd w)) ∧
  (∀ (i : Instr) (r : SiteRef) (x : SiteArgs) (w : W64), i.wf = true → i.siteArgs = some (r, x) → encodeSite i = some w →
    decodeSite r w = some i) ∧
  (∀ (r : SiteRef) (w : W64) (i : Instr), r.ok = true → decodeSite r w = some i →
    i.wf = true ∧ encodeSite i = some w ∧ i.siteArgs = some (r, unpackSite w))

/-- R30 to R40: SUB s7, s8, s9 with its second source bit set; BFX s3, s4 of 12 bits at position 8; TRAP 9; ERET; SRR s7, sr.cause;
SRW sr.tvec, s6; EXTEND s9, s8; JAL s6, +9; ADDI with a negative immediate. R34: a word of major opcode 0x3E, which is
reserved, is refused. -/
def Obligations.WordsOfTheManualDecode : Prop :=
  decodeWord 0x00E84A01#32 = .ok (.sub 7#5 8#5 9#5 false true) ∧
  decodeWord 0x346402C8#32 = .ok (.bfx 3#5 4#5 false 11#6 8#6) ∧
  decodeWord 0xFC009009#32 = .ok (.trap 9#12) ∧
  decodeWord 0xFC008000#32 = .ok .eret ∧
  decodeWord 0xFCE00009#32 = .ok (.srr 7#5 9#12) ∧
  decodeWord 0xFC064008#32 = .ok (.srw 6#5 8#12) ∧
  decodeWord 0xB5280000#32 = .ok (.extend 9#5 8#5 false) ∧
  decodeWord 0x78C00009#32 = .ok (.jal 6#5 9#21) ∧
  decodeWord 0x10227FFF#32 = .ok (.addi 1#5 2#5 false 0x7FFF#15) ∧
  (∀ i, decodeWord 0xF8000000#32 ≠ .ok i)

/-! ## Steps -/

/-- R254, R32, R34: in a turn of the control cores, with no input waiting, the step fetches four bytes at the pc through the
lease, with the right to execute, and is `exec` of the instruction they decode to, in the state in which time has passed and the
turn is taken; a word that decodes to none runs the illegal-instruction trap. R392: where a deferred trap is due, the instruction
runs only if it raises a precise trap, and the deferred trap is taken otherwise. The model's order of events is its own choice
(DESIGN CHOICE, log entry 7): an input comes first, an event being `exec` of it; otherwise, when the control cores have had their turn, the first pending
event is run and the turn is theirs again. R25: cycles pass with no event run; R421: a soft error leaves the sector it strikes
uncorrectable; R356: the EP writes a context entry, and no lease already made changes; R416, R417: an error that its stage corrects
changes the log of errors alone; R421: one that its stage only detects, and whose second attempt succeeds, is posted as 0x82; R411: a
save drains from its core's buffer, and preemptions that wait for room are tried again. While the EP authenticates its firmware
(STATE 1) nothing of this happens; what the step does then is a statement of its own. -/
def Obligations.StepRunsTheFetchedInstructionOrTheNextEvent : Prop :=
  (∀ (s u : State) (e : Extent) (pa : Nat) (attr : BitVec 8), s.dev.st ≠ 1 → s.dev.st ≠ 4 → s.inputs = [] →
    ((s.begin.turn = true ∧ u = { s.begin with turn := false }) ∨
      (s.begin.turn = false ∧ s.begin.work = [] ∧ u = s.begin.rotate)) →
    u.cc.task ≠ 0#64 → u.cc.active = true → u.cc.ending = none → u.cc.yields = false →
    u.paused u.cc = false → covered u.cc.lease u.cc.pc.toNat 4 .x = .ok e → e.place u.cc.pc.toNat = .phys pa attr → u.badAt pa 4 = none →
    ∃ i : Instr,
      ((∃ rest, decode (memBytes u.mem pa 4) = .ok (i, rest)) ∨
        ((∃ x, decode (memBytes u.mem pa 4) = .error x) ∧
          i = .illegalInstruction (BitVec.ofNat 32 (leNat (memBytes u.mem pa 4))))) ∧
      (u.cc.due = [] ∨ u.cc.sys.hmode = true ∨ u.cc.watching = true → step s = exec i u) ∧
      (u.cc.due ≠ [] → u.cc.sys.hmode = false → u.cc.watching = false → ∀ v, exec i u.probe = .next v →
        step s = if (v.run? u.cc.task).any fun r => r.sys.hmode then exec i u else exec .deferredTrapEntry u)) ∧
  (∀ s : State, s.dev.st ≠ 1 → s.dev.st ≠ 4 →
    (∀ i rest, s.inputs = .event i :: rest → step s = exec i { s with inputs := rest }) ∧
    (∀ i rest, s.inputs = [] → s.begin.turn = false → s.begin.work = i :: rest →
      step s = exec i { s.begin.rotate with work := rest, turn := true }) ∧
    (∀ n rest, s.inputs = .cycles n :: rest →
      ∃ t, step s = .next t ∧ t.cyc = s.cyc + n ∧ t.inputs = rest ∧ SameBytes s t ∧ t.cc = s.cc) ∧
    (∀ pa rest, s.inputs = .softError pa :: rest →
      ∃ t, step s = .next t ∧ pa / 32 * 32 ∈ t.err.bad ∧ SameBytes s t ∧ t.cc = s.cc) ∧
    (∀ c w0 w1 rest, s.inputs = .context c w0 w1 :: rest →
      ∃ t, step s = .next t ∧ t.inputs = rest ∧ SameBytes s t ∧ t.cc = s.cc ∧ t.tasks = s.tasks ∧
        (∀ k : Nat, SMap.risesFrom 0 s.ctxs = true → SMap.get? t.ctxs k =
          if k = c.toNat then some ⟨w0.getLsbD 63, w0.toNat / 2 ^ 21 % 2 ^ 28 * 2 ^ 21, w1⟩ else SMap.get? s.ctxs k)) ∧
    (∀ stage check n q pa use rest, s.inputs = .dataError ⟨stage, n, q, pa, use⟩ :: rest → Stage.check stage = some check →
      0 < n → n ≤ check.corrects → ∃ t, step s = .next t ∧
      t = { s with inputs := rest, work := t.work,
                   err := { s.err with corr := s.err.corr + 1, log := s.err.log ++ [(q, pa)] } } ∧
      t.work = s.work ++ if 64 ≤ s.err.corr + 1 then [.cerr] else []) ∧
    (∀ stage check n q pa h agent rest, s.inputs = .dataError ⟨stage, n, q, pa, .access h agent false⟩ :: rest →
      Stage.check stage = some check → check.corrects < n → n ≤ check.detects → s.mailRoom = false → s.mbox.events.length < 1024 →
      ∃ t, step s = .next t ∧ t = { s with inputs := rest, mbox := t.mbox } ∧
        EventWaits s t (mbEvent 0x82 0 (keepN pa) 0#64 0#64 0#64)) ∧
    (∀ fc e rest, s.inputs = .saveDrained fc :: rest → s.saveBuf.find? (fun e => e.fc == fc) = some e →
      (∀ r ∈ s.allRuns, r.fc = fc → r.preempt = true → r.ending = none → r.region.running = false) →
      ∃ t, step s = .next t ∧ t = { s with inputs := rest, saveBuf := s.saveBuf.erase e, work := t.work } ∧
        ∃ l, t.work = s.work ++ l ∧ ∀ r ∈ s.allRuns, r.fc = fc → r.preempt = true → r.ending = none → .preemption r.task ∈ l))

/-- Every instruction, command, operation and event of the table answers a next state in every state, and so does
every step but one: R447, after the thermal trip (STATE 4) the clocks stand still until power-good, which the model
shows as the fault of a step to which the outside world gives nothing. -/
def Obligations.EveryInstructionAnswersAState : Prop :=
  (∀ (i : Instr) (s : State), ∃ t, exec i s = .next t) ∧
  (∀ s : State, (∃ t, step s = .next t) ∨ (step s = .fault .clocksStopped ∧ s.dev.st = 4 ∧ s.inputs = [])) ∧
  (∀ s : State, s.dev.st = 4 → s.inputs = [] → step s = .fault .clocksStopped)

/-- Memory as data: addresses strictly rising and no entry equal to what an unlisted address reads as. From every state with
that form every step, of any instruction or event, gives a state with that form; so equal memories are equal data. -/
def Obligations.EveryStepKeepsTheFormOfMemory : Prop :=
  ∀ s t : State, MemoryOk s → step s = .next t → MemoryOk t

/-- R448: when power-good releases reset the counter of cycles is 0 and STATE is 0, memory reads as zero (bring-up step 5 writes
it so; host memory is the model's choice, DESIGN CHOICE, log entry 5), and no task, window, context table, queue, barrier object or
vigil entry exists. The model's own: memory has its canonical form, and the context in turn holds no task, with every register 0 and
full (DESIGN CHOICE, log entry 16: R81 gives registers a value at dispatch only). -/
def Obligations.ResetLeavesTheMachineAsTheManualSays : Prop :=
  State.reset.cyc = 0 ∧ State.reset.dev.st = 0 ∧ (∀ a, memByte State.reset.mem a = 0#8) ∧ MemoryOk State.reset ∧
  State.reset.tasks = [] ∧ State.reset.alm = [] ∧ State.reset.queues = [] ∧ State.reset.ctxs = [] ∧
  State.reset.bars = [] ∧ State.reset.vigils = [] ∧ State.reset.cc.task = 0#64 ∧
  (∀ k : Reg, State.reset.reg k = 0#64 ∧ State.reset.cc.full k = true)

/-! ## Tasks (R249 to R268) -/

/-- R263: with n = s[b][31:0], DEPADD makes the COUNT of the waiting or running task s[a] min(COUNT + n, 2^32 − 1), DEPDEC
max(COUNT − n, 0); a waiting task that reaches 0 becomes ready. A task in another state, a stale handle and 0: no effect. -/
def Obligations.CountsOfTasksAreMoved : Prop :=
  ∀ (a b : Reg) (ta tb : Bool) (s : State), Ready s [a, b] → ccBusy s = false →
    let n := (s.reg b).toNat % 2 ^ 32
    (∀ x, s.task? (s.reg a) = some x → x.st = .waiting ∨ x.st = .running →
      (∃ t, exec (.depadd a b ta tb) s = .next t ∧ Counted s t (s.reg a) x (min (x.count + n) (2 ^ 32 - 1)) ∧
        OnlyTasks s t ∧ SameRegs s t ∧ GoesOn s t) ∧
      (∃ t, exec (.depdec a b ta tb) s = .next t ∧ Counted s t (s.reg a) x (x.count - n) ∧
        OnlyTasks s t ∧ SameRegs s t ∧ GoesOn s t)) ∧
    ((∀ x, s.task? (s.reg a) = some x → x.st ≠ .waiting ∧ x.st ≠ .running) →
      ∀ i, i = .depadd a b ta tb ∨ i = .depdec a b ta tb →
        ∃ t, exec i s = .next t ∧ SameRegs s t ∧ OnlyRegsPc s t ∧ GoesOn s t)

/-- R260, R250: from a template in the lease that keeps R250, SPAWN makes a record in the first free record of the die of its
core: its own context, itself as parent, the priority of the field or of the template, the argument at s3; a child of COUNT 0
is ready, another waits; the handle is the value of a late producer. Off 64 bytes it is the misalignment trap, with a template
that breaks R250 the task argument trap, on a full die the spawn-full fault, with no record made. Which free record is taken is
the model's choice (DESIGN CHOICE, log entry 6). -/
def Obligations.SpawnMakesAChild : Prop :=
  ∀ (d a b : Reg) (ta tb p : Bool) (r : BitVec 3) (s : State) (e : Extent) (pa : Nat), Ready s [a, b] →
    let ea := s.reg a
    let ws := memWords s.mem pa 24
    (ea.toNat % 64 = 0 → covered s.cc.lease ea.toNat 192 .r = .ok e → FlatAt e ea.toNat 192 pa → ccBusy s = false →
      badIn s e ea.toNat 192 = none →
      (tmplOk ws = true → crecOk s ws = true → Free s d → s.cc.fc < 48 → s.cc.task ≠ 0#64 →
        ∀ i, freeRecord s (dieOf s.cc.fc) 0 recordsPerDie = some i →
        ∃ t y, exec (.spawn d a b ta tb p r) s = .next t ∧ TaskBecomes s t (nextHandle s (dieOf s.cc.fc) i) y ∧
          s.task? (nextHandle s (dieOf s.cc.fc) i) = none ∧
          y.parent = s.cc.task ∧ y.ctx = s.cc.ctx ∧ y.prio = (if p then r.toNat else bits (tw ws 0) 60 58) ∧
          y.count = bits (tw ws 0) 31 0 ∧ y.st = (if y.count = 0 then .ready else .waiting) ∧ y.pc = tw ws 1 ∧
          y.image = tw ws 2 ∧ y.decl = tw ws 3 ∧ y.crec = tw ws 7 ∧ y.cmds = tw ws 6 ∧
          y.ncmd = bits (tw ws 5) 31 20 ∧ y.extn = bits (tw ws 0) 48 44 ∧ y.fz = bit (tw ws 0) 54 ∧
          y.strict = bit (tw ws 0) 53 ∧ ChildRegs ws (s.reg b) y ∧
          OnlyTasks s t ∧ SameRegsBut d s t ∧ (d ≠ 0#5 → t.cc.awaited d = true) ∧ GoesOn s t ∧
          t.cc.flights = s.cc.flights ++ [⟨s.cc.nextId, d, d != 0#5, some (nextHandle s (dieOf s.cc.fc) i)⟩] ∧
          .lateDelivery ⟨s.cc.task, s.cc.nextId⟩ ∈ t.work) ∧
      (tmplOk ws = false → CanEnter s →
        ∃ t, exec (.spawn d a b ta tb p r) s = .next t ∧ Enters s t (causeWord 0x07 0 0) s.cc.pc ea) ∧
      (tmplOk ws = true → crecOk s ws = true → Free s d → CanEnter s →
        freeRecord s (dieOf s.cc.fc) 0 recordsPerDie = none →
        ∃ t, exec (.spawn d a b ta tb p r) s = .next t ∧ Enters s t (causeWord 0x09 0 0) s.cc.pc ea)) ∧
    (ea.toNat % 64 ≠ 0 → CanEnter s →
      ∃ t, exec (.spawn d a b ta tb p r) s = .next t ∧ Enters s t (causeWord 0x03 0 0) s.cc.pc ea)

/-- R264: ARM task and ARM child of a handle count one event of a task that has not ended; ARM copy counts the matching COPYs
not yet complete, up to s[b]; ARM vigil and ARM child of any count s[b] less what is pending, which is consumed; ARM phase
counts one while a valid object is in the phase, and waits at it (R228: where its home has room for the wait). A required value that
does not hold is the task argument trap. Shown where COUNT stays below 2^32. -/
def Obligations.ArmCountsEventsToCome : Prop :=
  ∀ (a b : Reg) (ta tb : Bool) (s : State) (x : TaskRec), Ready s [a, b] → s.task? s.cc.task = some x →
    let v := s.reg a
    let n := (s.reg b).toNat
    let raised (k : BitVec 4) (m : Nat) (y : TaskRec) : Prop :=
      ∃ t, exec (.arm a b ta tb k) s = .next t ∧ SameRegs s t ∧ OnlyTasks s t ∧ t.work = s.work ∧ GoesOn s t ∧
        TaskBecomes s t s.cc.task (if m = 0 then y else
          { y with count := y.count + m, arms := y.arms ++ [⟨k.toNat, v, BitVec.ofNat 64 m⟩] })
    let traps (k : BitVec 4) (w : W64) : Prop :=
      ∃ t, exec (.arm a b ta tb k) s = .next t ∧ Enters s t (causeWord 0x07 0 0) s.cc.pc w
    (∀ k, (k = 0#4 ∨ (k = 4#4 ∧ v ≠ 0#64)) → n = 1 → x.count + 1 < 2 ^ 32 →
      raised k (if (s.task? v).isSome then 1 else 0) x) ∧
    (∀ k, (k = 0#4 ∨ (k = 4#4 ∧ v ≠ 0#64)) → n ≠ 1 → CanEnter s → traps k (s.reg b)) ∧
    (∀ m, m = (s.cc.cmds.filter fun c => decide (opCmd c.word = 0x10) && decide (c.phase ≠ .done) &&
        (v == 0#64 || decide (c.prom.map (BitVec.ofNat 64) = some v))).length →
      x.count + min n m < 2 ^ 32 → raised 1#4 (min n m) x) ∧
    (v = 0#64 → x.count + (n - x.wakes) < 2 ^ 32 →
      raised 3#4 (n - x.wakes) { x with wakes := x.wakes - min n x.wakes }) ∧
    (v = 0#64 → x.count + (n - x.kids) < 2 ^ 32 →
      raised 4#4 (n - x.kids) { x with kids := x.kids - min n x.kids }) ∧
    (v ≠ 0#64 → CanEnter s → traps 3#4 v) ∧
    (v.toNat % 64 ≠ 0 → CanEnter s → traps 2#4 v) ∧
    (∀ (e : Extent) (pa : Nat) (attr : BitVec 8), v.toNat % 64 = 0 → ccBusy s = false → x.count + 1 < 2 ^ 32 →
      coveredRW s.cc.lease v.toNat 40 false false = .ok e → e.place v.toNat = .phys pa attr →
      badIn s e v.toNat 40 = none → s.badAt pa 40 = none → roomIn (homeDie pa) (s.entries (homeDie pa)) = true →
      (∀ o ∈ s.heldOps, o.pa ≠ pa) →
      ∃ t, exec (.arm a b ta tb 2#4) s = .next t ∧ SameRegs s t ∧ GoesOn s t ∧
        t = { s with cc := t.cc, tasks := t.tasks, barWaits := t.barWaits } ∧
        (PhaseAnswer s pa (s.reg b) 0#64 →
          TaskBecomes s t s.cc.task { x with count := x.count + 1 } ∧
          t.barWaits = s.barWaits ++ [⟨pa, s.reg b, .arm s.cc.task⟩]) ∧
        (∀ w, w ≠ 0#64 → PhaseAnswer s pa (s.reg b) w → t.tasks = s.tasks ∧ t.barWaits = s.barWaits))

/-- R265, R251, R252: DONE, once no command is accepted any more, ends the task: its record is free with the next generation, its
window is over, and its completion record holds s[a] with bit 63 clear, the start cycle, the cycle of the end and the handle.
SUSPEND ends the window and leaves in the record the next pc, the live mask and the live registers in ascending order; the
task waits, or is ready when COUNT is 0. R266: a mask above 32 bits or of more than 16 registers is the task argument trap, an
open loop the loop-range trap, and so is, in a handler, a loop set aside, which ends the task as any precise trap there does (R394).
That the mask is checked before the loop stack (DEDUCED, log entry 89), and that this trap has reason 2 and TVAL 0 (DEDUCED, log entry
81), is the model's reading. With a command accepted both stand still. -/
def Obligations.DoneEndsTheTaskAndSuspendKeepsIt : Prop :=
  ∀ (a : Reg) (ta : Bool) (s : State), Ready s [a] →
    (s.cc.cmds = [] → ccBusy s = false → EndsAlone s → SMap.risesFrom 0 s.taskGen = true →
      ∃ t, exec (.done a ta) s = .next t ∧ t.task? s.cc.task = none ∧ WindowOver s t s.cc.task ∧
        (∀ e ∈ t.alm, e.handle ≠ s.cc.task) ∧ SameBytes s t ∧
        SMap.get 1#16 t.taskGen (handleKey s.cc.task) = handleGen s.cc.task + 1#16) ∧
    (∀ (crec : W64) (x : TaskRec) (c0 pa : Nat), ccBusy s = false → EndsWithRecord s crec x → x.startC = some c0 →
      MemoryOk s → MappedFlat s (s.entryOf x) crec.toNat 64 pa → Unwatched s pa 64 →
      ∃ t, exec (.done a ta) s = .next t ∧ t.task? s.cc.task = none ∧
        memWords t.mem pa 8 = [(s.reg a) &&& 0x7FFFFFFFFFFFFFFF#64, keepN c0, keepN s.cyc, s.cc.task, 0#64, 0#64, 0#64, 0#64] ∧
        SameBytesOutside pa 64 s t) ∧
    (s.cc.cmds ≠ [] → (∃ t, exec (.done a ta) s = .next t ∧ Waits s t) ∧
      ∃ t, exec (.suspend a ta) s = .next t ∧ Waits s t) ∧
    (s.cc.cmds = [] →
      let live := (s.reg a).extractLsb' 0 32
      (bits (s.reg a) 63 32 ≠ 0 ∨ 16 < (liveRegs live).length → CanEnter s →
        ∃ t, exec (.suspend a ta) s = .next t ∧ Enters s t (causeWord 0x07 0 0) s.cc.pc (s.reg a)) ∧
      (bits (s.reg a) 63 32 = 0 → (liveRegs live).length ≤ 16 →
        (s.cc.loops ≠ [] → CanEnter s →
          ∃ t, exec (.suspend a ta) s = .next t ∧ Enters s t (causeWord 0x04 2 0) s.cc.pc 0#64) ∧
        (s.cc.loops ≠ [] ∨ s.cc.aside ≠ [] → s.cc.sys.hmode = true → EndsAlone s →
          ∃ t, exec (.suspend a ta) s = .next t ∧ TaskGone s t s.cc.task) ∧
        (∀ x, s.cc.loops = [] → s.cc.sys.hmode = false ∨ s.cc.aside = [] → (∀ k, k < 32 → live.getLsbD k = true → s.cc.full (BitVec.ofNat 5 k) = true) →
          ccBusy s = false → s.task? s.cc.task = some x → (∀ r ∈ s.runs, r.task ≠ s.cc.task) →
          ∃ t y, exec (.suspend a ta) s = .next t ∧ TaskBecomes s t s.cc.task y ∧ WindowOver s t s.cc.task ∧ SameBytes s t ∧
            y.pc = s.cc.pc + 4#64 ∧ y.res = true ∧ y.live = live ∧ y.count = x.count ∧
            y.regs = (liveRegs live).map (fun k => s.reg (BitVec.ofNat 5 k)) ∧
            y.st = (if x.count = 0 then .ready else .waiting) ∧
            (∀ e ∈ s.alm, e.handle = s.cc.task → e.st = 3 → e ∈ t.alm))))

/-- R287: EXTEND adds s[a] slots when it may and they fit, and answers the new LAST, else LAST as it is. R286: BOOK places the
running task's next window at once as R278 does, with floor max(s[b], n + 1) and ST 3, and answers its START, or all ones (a grant
of cells or tiles gives its task a save area, R411);
a descriptor that breaks R274 or a second held reservation is the task argument trap. R288: RELEASE of the current window,
which waits for the region's and tiles' commands, leaves the CC context only, of a held START frees that reservation, of 0 does both,
and of another value does nothing. -/
def Obligations.BookExtendAndReleaseActOnTheCalendar : Prop :=
  ∀ s : State,
    (∀ (d a : Reg) (ta : Bool) (e : AlmEnt), Ready s [a] → Free s d → Started s e →
      (CanExtend s e (s.reg a).toNat →
        ∃ t, exec (.extend d a ta) s = .next t ∧ Awaits s t d (some (keepN (e.last + (s.reg a).toNat))) ∧ OnlyCalendar s t ∧
          t.alm = s.alm.replace e { e with last := e.last + (s.reg a).toNat } ∧
          t.work = s.work ++ [.lateDelivery ⟨s.cc.task, s.cc.nextId⟩]) ∧
      (¬ CanExtend s e (s.reg a).toNat →
        ∃ t, exec (.extend d a ta) s = .next t ∧ Awaits s t d (some (keepN e.last)) ∧ OnlyCalendar s t ∧ t.alm = s.alm ∧
          t.work = s.work ++ [.lateDelivery ⟨s.cc.task, s.cc.nextId⟩])) ∧
    (∀ (d a b : Reg) (ta tb : Bool) (e : Extent) (pa : Nat), Ready s [a, b] → Free s d →
      Granted s (s.reg a) 64 .r e pa → FlatAt e (s.reg a).toNat 64 pa → badIn s e (s.reg a).toNat 64 = none →
      let desc := readDesc (memWords s.mem pa 8)
      let win := winOf desc (ownCycles s)
      let q : Req := ⟨s.cc.task, true, max (s.reg b).toNat (s.slot + 1), s.cyc, desc, win, s.cc.region.hdr⟩
      (descOk s (handleDie s.cc.task) desc s.cc.region.hdr win = true → heldEnt s s.cc.task = none →
        ∃ t, exec (.book d a b ta tb) s = .next t ∧ OnlyCalendar s { t with tasks := s.tasks } ∧ OnlyAreas s t ∧
          (∀ x, placeReq s q = some x → Awaits s t d (some (keepN x.start)) ∧ t.alm = s.alm ++ [x] ∧ AreaHeld t x) ∧
          (placeReq s q = none → Awaits s t d (some (BitVec.allOnes 64)) ∧ t.alm = s.alm ∧ t.tasks = s.tasks)) ∧
      (descOk s (handleDie s.cc.task) desc s.cc.region.hdr win = false ∨ heldEnt s s.cc.task ≠ none → CanEnter s →
        ∃ t, exec (.book d a b ta tb) s = .next t ∧ Enters s t (causeWord 0x07 0 0) s.cc.pc (s.reg a))) ∧
    (∀ (a : Reg) (ta : Bool), Ready s [a] →
      (∀ e, Started s e → heldEnt s s.cc.task = none → s.reg a = BitVec.allOnes 64 →
        (∀ c ∈ s.cc.cmds, c.queue.booked = false) →
        ∃ t, exec (.release a ta) s = .next t ∧ OnlyCalendar s t ∧ SameRegs s t ∧ GoesOn s t ∧ t.cc.relCur = true ∧
          t.alm = s.alm.replace e { e with rgn := false, tiles := 0, ports := 0, l2sh := 0, seamsh := 0, lsh := 0, gslot := 0 } ∧
          .placementPass ∈ t.work) ∧
      (∀ e, Started s e → s.reg a = 0#64 → (∀ c ∈ s.cc.cmds, c.queue.booked = false) →
        let alm := s.alm.replace e { e with rgn := false, tiles := 0, ports := 0, l2sh := 0, seamsh := 0, lsh := 0, gslot := 0 }
        ∃ t, exec (.release a ta) s = .next t ∧ OnlyCalendar s t ∧ SameRegs s t ∧ GoesOn s t ∧ t.cc.relCur = true ∧
          (heldEnt s s.cc.task = none → t.alm = alm) ∧ (∀ f, heldEnt s s.cc.task = some f → t.alm = alm.erase f) ∧
          .placementPass ∈ t.work) ∧
      (∀ e, heldEnt s s.cc.task = some e → s.reg a = keepN e.start → s.reg a ≠ 0#64 → s.reg a ≠ BitVec.allOnes 64 →
        ∃ t, exec (.release a ta) s = .next t ∧ OnlyCalendar s t ∧ SameRegs s t ∧ GoesOn s t ∧ t.alm = s.alm.erase e ∧
          .placementPass ∈ t.work) ∧
      (∀ c ∈ s.cc.cmds, c.queue.booked = true → s.reg a = 0#64 ∨ s.reg a = BitVec.allOnes 64 →
        ∃ t, exec (.release a ta) s = .next t ∧ Waits s t) ∧
      ((∀ e, heldEnt s s.cc.task = some e → s.reg a ≠ keepN e.start) → s.reg a ≠ 0#64 → s.reg a ≠ BitVec.allOnes 64 →
        ∃ t, exec (.release a ta) s = .next t ∧ SameRegs s t ∧ OnlyRegsPc s t ∧ GoesOn s t))

/-- R283: compaction moves an entered grant only earlier, never changes its core, rectangle, context, tiles, ports or length, and
never moves a started window or a held reservation; R278: the pass enters what fits, at the end of the list; a single request
that fits nowhere takes the claim (R279). No register and no byte of memory changes, and of the task records only whether a task holds a
save area (R411: that of a grant of cells or tiles does). -/
def Obligations.PassesMoveGrantsOnlyEarlier : Prop :=
  ∀ s : State, ∃ t, exec .placementPass s = .next t ∧
    t = { s with alm := t.alm, reqs := t.reqs, claim := t.claim, tasks := t.tasks } ∧ OnlyAreas s t ∧
    (∀ e ∈ s.alm, ∃ f ∈ t.alm, f = { e with start := f.start, last := f.last } ∧ f.start ≤ e.start ∧
      f.last - f.start = e.last - e.start ∧ (e.st ≠ 1 → f = e)) ∧
    (∀ q ∈ t.reqs, q ∈ s.reqs) ∧
    (∀ q, s.reqs = [q] → s.claim = none → (∀ e ∈ s.alm, e.st ≠ 1) →
      (∀ x, placeReq s q = some x → t.alm = s.alm ++ [x] ∧ t.reqs = [] ∧ t.claim = none ∧ AreaHeld t x) ∧
      (placeReq s q = none → t.alm = s.alm ∧ t.reqs = [q] ∧ t.claim = claimFor s q))

/-- R253: AGING sets EPRIO to min(7, PRIO + w / 4,096), w the whole slots since the task became ready. R361, R252: LEASE_WALK takes
the next task; a walk that finds every extent gives it its lease and it asks the Almanac for a window (shown for a task without
an image), an invalid context ends it with a lease error. R254, R255, R280: at its start slot the first entered grant starts and
its task runs with registers from LIVE and REGS, the others 0 and full, an empty loop stack and the tables at zero. -/
def Obligations.TasksAgeAreLeasedAndDispatched : Prop :=
  ∀ s : State,
    (∃ t, exec .aging s = .next t ∧ t = { s with tasks := t.tasks } ∧
      ∀ k, SMap.get? t.tasks k = (SMap.get? s.tasks k).map fun x =>
        if x.st = .ready ∨ x.st = .leasing ∨ x.st = .booking then
          { x with eprio := min 7 (x.prio + (s.cyc - x.readyAt) / 64 / 4096) } else x) ∧
    (∀ (x : TaskRec) (c : CtxEnt) (decl : List Extent) (lease : List Extent) (ws : List W64),
      let u := { s with ctxs := SMap.ins s.ctxs x.ctx c }
      [0, 1, 2, 3].findSome? (nextWalk s) = some x → s.task? x.handle = some x → SMap.get? s.ctxs x.ctx = some c →
      c.valid = true → x.image = 0#64 → x.st = .ready → s.mbox.taking = none → heldEnt s x.handle = none →
      ctxWords u x.ctx (x.decl.toNat + 64) (2 * x.extn) = some ws →
      decl = (List.range x.extn).map (fun k => readExtent k (tw ws (2 * k)) (tw ws (2 * k + 1))) →
      ctxMapped u x.ctx x.cmds.toNat .r (16 * x.ncmd) = true → s.err.bad = [] →
      walkRest s.mem c.root x.pcNow decl [] = .ok lease → ∀ ws, ctxWords u x.ctx x.decl.toNat 8 = some ws →
      descOk s (handleDie x.handle) (readDesc ws) none (readDesc ws).win = true →
      ∃ t y, exec .leaseWalk s = .next t ∧ TaskBecomes s t x.handle y ∧ y.st = .booking ∧ y.lease = lease ∧
        t.reqs = s.reqs ++ [⟨x.handle, false, s.slot + 1, s.cyc, readDesc ws, (readDesc ws).win, none⟩] ∧
        y.cent = c ∧ .placementPass ∈ t.work ∧ .leaseWalk ∈ t.work ∧ t = { s with tasks := t.tasks, reqs := t.reqs, work := t.work, turn := t.turn }) ∧
    (∀ (x : TaskRec), [0, 1, 2, 3].findSome? (nextWalk s) = some x → s.task? x.handle = some x → x.st = .ready →
      (∀ c, SMap.get? s.ctxs x.ctx = some c → c.valid = false) → x.crec = 0#64 → SMap.risesFrom 0 s.tasks = true →
      (∀ e ∈ s.tasks, e.2.arms = []) → x.parent = 0#64 →
      ∃ t, exec .leaseWalk s = .next t ∧ t.task? x.handle = none ∧ SameBytes s t ∧ .leaseWalk ∈ t.work) ∧
    (∀ (e : AlmEnt) (x : TaskRec),
      s.alm.find? (fun e => decide (e.st = 1 ∧ e.start ≤ s.slot) && (residentAt s e.fc e.ctxn).isNone) = some e →
      s.task? e.handle = some x → s.run? e.handle = none → x.save = none → x.image = 0#64 →
      SMap.risesFrom 0 s.allow = true →
      ∃ t r, exec .dispatch s = .next t ∧ t.run? e.handle = some r ∧ FreshContext s r x e ∧ r.region.hdr = none ∧
        TaskBecomes s t e.handle { x with st := .running, save := none, lease := [], startC := some (x.startC.getD (64 * e.start)) } ∧
        t.alm = s.alm.replace e { e with st := 2 } ∧ SMap.get 0 t.allow (handleKey e.handle) = e.xlim ∧
        (t.work = s.work ++ [.contextSwitch] ∨ t.work = s.work ++ [.contextSwitch, .dispatch]) ∧ SameBytes s t)

/-- R281: at the end of its last slot a window grows by min(64, allowance) slots when they fit; otherwise the overrun fault is
raised and the task is to be preempted. R286: a held reservation whose START has come is freed. R409 to R411: a preemption where
no stage runs and nothing is accepted takes the context away, keeps it in the record, and makes the task ready; nothing of its
registers is lost, the header of the save area it holds says that a save is in it (R412), and the save stands in its core's buffer
until it drains, an input of the model, which keeps the save in the task's record (DESIGN CHOICE, log entry 73). Without room there the
preemption waits, unless it settles an overrun, which then ends the task as a strict one. -/
def Obligations.WindowsEndAndContextsAreSaved : Prop :=
  ∀ s : State,
    (∀ e, s.alm.find? (fun e => decide (e.st = 2 ∧ e.last < s.slot) && !s.overrun.contains e.handle) = some e →
      let a := SMap.get 0 s.allow (handleKey e.handle)
      let x := min 64 a
      let ok := 0 < x ∧ fits s (s.alm.erase e) (s.claim.map (·.ent)) e (e.last + 2) (e.last + x + 1) = true
      ∃ t, exec .windowEnd s = .next t ∧ SameBytes s t ∧
        (ok → SMap.risesFrom 0 s.allow = true → t = { s with alm := t.alm, allow := t.allow } ∧
          t.alm = s.alm.replace e { e with last := e.last + x } ∧ SMap.get 0 t.allow (handleKey e.handle) = a - x) ∧
        (¬ ok → t.alm = s.alm ∧ t.overrun = s.overrun ++ [e.handle] ∧
          ∀ r, s.run? e.handle = some r → ∃ u, t.run? e.handle = some u ∧ u.preempt = true ∧
            u = { r with preempt := true, region := u.region } ∧
            (r.region.running = false → t.work = s.work ++ [.preemption e.handle]))) ∧
    (∀ e, s.alm.find? (fun e => decide (e.st = 3 ∧ e.start ≤ s.slot)) = some e →
      ∃ t, exec .reservationLapse s = .next t ∧ t = { s with alm := s.alm.erase e, work := .placementPass :: s.work, turn := false }) ∧
    (∀ (h : W64) (r : Run) (x : TaskRec), s.run? h = some r → s.task? h = some x → r.preempt = true → r.ending = none →
      r.region.running = false → r.cmds = [] → h ∉ s.overrun → s.cc.task = h → (∀ q ∈ s.runs, q.task ≠ h) →
      let held := (s.saveBuf.filter fun e => e.fc = r.fc).map (·.bytes)
      (held ≠ [] → 2097152 < held.sum + saveBytes r → exec (.preemption h) s = .next s) ∧
      (held = [] ∨ held.sum + saveBytes r ≤ 2097152 →
      ∃ t u, exec (.preemption h) s = .next t ∧ t.saveBuf = s.saveBuf ++ [⟨r.fc, h, saveBytes r⟩] ∧ t.run? h = none ∧ SameBytes s t ∧
        (∃ y, TaskBecomes s t h y ∧ y = { x with st := .ready, readyAt := s.cyc, eprio := x.prio, save := some u, area := y.area } ∧
          (x.area = none → y.area = none) ∧
          (x.area ≠ none → ∃ v, y.area = some v ∧ v.toList.take 2 = [v[0] ||| 0x8000000000000000#64, r.place])) ∧
        u.regs = r.regs ∧ u.pc = r.pc ∧ u.loops = r.loops ∧ u.aside = r.aside ∧ u.sys = r.sys ∧ u.flights = r.flights ∧
        u.cmdMem = r.cmdMem ∧ u.tids = r.tids ∧ u.tiles = r.tiles ∧ u.region = r.region ∧ u.coll = r.coll)) ∧
    (s.cc.preempt = true → s.cc.region.running = false → s.cc.task ∈ s.overrun → EndsAlone s →
      let held := (s.saveBuf.filter fun e => e.fc = s.cc.fc).map (·.bytes)
      s.cc.strict = true ∨ (held ≠ [] ∧ 2097152 < held.sum + saveBytes s.cc) →
      ∃ t, exec (.preemption s.cc.task) s = .next t ∧ TaskGone s t s.cc.task)

/-! ## Stream commands (R41 to R46, R202 to R226) -/

/-- R42, R203, R205: with its sources full and rd not awaited, an ISSUE whose patched word, with or without S, passes every check puts
the command behind those of its context, with the registers and TID entries read now, marks rd empty and awaited until the token, and
goes on; its start is a pending event. R304: a PMARK asks for an early edge at its acceptance while a stage runs. R218: a COPY that no W
wait, no CBAR and no earlier copy holds has its token at its acceptance, with its promise P. R138: with F the follow-on is accepted
behind its carrier. R381: a GQPOST to an absent site is the guest-absent trap, before every other check, and to a wired site whose image
is not authenticated too (DEDUCED, log entry 49). R46: another word whose opcode, flags or fields are wrong is the illegal command trap, precise, with the index. R203, R208: a full queue, or a TID that an earlier TIDSET still changes, holds
the ISSUE (shown for words without F). -/
def Obligations.IssueAcceptsPatchedCommands : Prop :=
  ∀ (d a b : Reg) (n : BitVec 11) (s : State), Ready s [a, b] → Free s d →
    let w := patchedWord s a b n
    let x := unpackCmd w
    (Accepted s n w → atAcceptance (opCmd w) x = false → opCmd w ≠ 0x07 → opCmd w ≠ 0x10 →
      ∃ t c, exec (.issue d a b n) s = .next t ∧ FreshCmd s w c ∧ t.cc.cmds = s.cc.cmds ++ [c] ∧
        SameRegsBut d s t ∧ (d ≠ 0#5 → t.cc.awaited d = true) ∧ GoesOn s t ∧ SameBytes s t ∧
        t.cc.flights = s.cc.flights ++ [⟨s.cc.nextId, d, d != 0#5, none⟩] ∧
        t.work = s.work ++ [.commandStart ⟨s.cc.task, s.cc.nextId⟩] ∧ t = { s with cc := t.cc, work := t.work } ∧
        t.cc.tids = s.cc.tids ∧ t.cc.ports = s.cc.ports ∧ t.cc.region = s.cc.region ∧ t.cc.sys = s.cc.sys ∧
        t.cc.lease = s.cc.lease) ∧
    (Accepted s n w → opCmd w = 0x07 → s.cc.task ≠ 0#64 →
      ∃ t c, exec (.issue d a b n) s = .next t ∧ FreshCmd s w c ∧ t.cc.cmds = s.cc.cmds ++ [c] ∧
        SameRegsBut d s t ∧ (d ≠ 0#5 → t.cc.awaited d = true) ∧ GoesOn s t ∧ SameBytes s t ∧
        t.cc.flights = s.cc.flights ++ [⟨s.cc.nextId, d, d != 0#5, none⟩] ∧ t = { s with cc := t.cc, work := t.work } ∧
        (s.cc.region.running = false → t.cc.region = s.cc.region ∧ t.work = s.work ++ [.commandStart ⟨s.cc.task, s.cc.nextId⟩]) ∧
        (s.cc.region.running = true → t.cc.region = { s.cc.region with early := true, edgeDue := true } ∧
          t.work = s.work ++ [.earlyEdge, .commandStart ⟨s.cc.task, s.cc.nextId⟩])) ∧
    (Accepted s n w → opCmd w = 0x10 → atAcceptance (opCmd w) x = false → x.fw = false → s.cc.task ≠ 0#64 → ccBusy s = false →
      (∀ f ∈ s.cc.flights, f.id < s.cc.nextId) → (∀ d ∈ s.cc.cmds, d.id < s.cc.nextId) →
      (∀ d ∈ s.cc.cmds, (d.op = 0x0A → cbarMasks d.args .copy = false) ∧ (d.queue = .copy → d.phase ≠ .waiting)) →
      let ta := s.cc.tid x.ta.toNat
      let tc := s.cc.tid x.tc.toNat
      let bytes := x.p1.toNat
      let g := copyEngine s.cc (tidOffset ta + x.p0.toNat) (tidOffset tc + x.fixed.toNat) bytes ta tc
      let p := max s.cyc (SMap.get 0 s.cc.prevP g.1) + g.2.1 + (bytes + g.2.2 - 1) / g.2.2
      ∃ t c, exec (.issue d a b n) s = .next t ∧ FreshCmd s w c ∧ t.cc.cmds = s.cc.cmds ++ [{ c with ce := g.1, prom := some p }] ∧
        SameRegsBut d s t ∧ (d ≠ 0#5 → t.cc.awaited d = true) ∧ GoesOn s t ∧ SameBytes s t ∧
        t.cc.flights = s.cc.flights ++ [⟨s.cc.nextId, d, d != 0#5, some (keepN (p % 2 ^ 62))⟩] ∧
        t.work = s.work ++ [.lateDelivery ⟨s.cc.task, s.cc.nextId⟩, .commandStart ⟨s.cc.task, s.cc.nextId⟩] ∧
        t = { s with cc := t.cc, work := t.work }) ∧
    (∀ f, AcceptedPair s n w f →
      ∃ t c y, exec (.issue d a b n) s = .next t ∧ FreshCmd s w c ∧ t.cc.cmds = s.cc.cmds ++ [c, y] ∧
        y.id = s.cc.nextId + 1 ∧ y.word = f ∧ y.carrier = some s.cc.nextId ∧ y.held = true ∧ y.phase = .waiting ∧
        SameRegsBut d s t ∧ (d ≠ 0#5 → t.cc.awaited d = true) ∧ GoesOn s t ∧ SameBytes s t ∧
        t.cc.flights = s.cc.flights ++ [⟨s.cc.nextId, d, d != 0#5, none⟩] ∧
        t.work = s.work ++ [.commandStart ⟨s.cc.task, s.cc.nextId⟩, .commandStart ⟨s.cc.task, s.cc.nextId + 1⟩] ∧
        t = { s with cc := t.cc, work := t.work }) ∧
    (opCmd w = 0x48 → (s.guest (x.fld 90 90)).present = false → CanEnter s →
      ∃ t, exec (.issue d a b n) s = .next t ∧ Enters s t (causeWord 0x000D 0 0) s.cc.pc (keepN (x.fld 90 90))) ∧
    ((opCmd w = 0x48 → (s.guest (x.fld 90 90)).present = true) → cmdStaticOk (opCmd w) x = false → CanEnter s →
      ∃ t, exec (.issue d a b n) s = .next t ∧ Enters s t (causeWord 0x0008 0 0) s.cc.pc (n.setWidth 64)) ∧
    (cmdStaticOk (opCmd w) x = true → x.ff = false → flagRegsOk s.cc x = true → s.cc.relCur = false → opCmd w ≠ 0x48 →
      s.cc.tidBusy (tidsNamed (opCmd w) x) = true → ∃ t, exec (.issue d a b n) s = .next t ∧ Waits s t) ∧
    (cmdStaticOk (opCmd w) x = true → x.ff = false → x.fs = false → flagRegsOk s.cc x = true → s.cc.relCur = false →
      opCmd w ≠ 0x48 → s.cc.tidBusy (tidsNamed (opCmd w) x) = false → entryOk s (opCmd w) x = true →
      16 ≤ (s.cc.inQueue (queueOf (opCmd w) x)).length → ∃ t, exec (.issue d a b n) s = .next t ∧ Waits s t)

/-- R204: COMMAND_START of a waiting command that heads its queue, that no CBAR holds, before which the context's accesses have been
performed (R175) and whose own entry lets it start, starts it and its effect is the next event. R205: COMMAND_COMPLETE delivers the token, the status in bits [63:62] and the cycle below, and the
command is gone. R138: FOLLOW_ON_ISSUE after the carrier's landing releases its follow-on. R284, R382: a promise that has passed makes
the trap due with TVAL P, once. -/
def Obligations.CommandsStartCompleteAndFollow : Prop :=
  ∀ (s : State) (k : CmdRef) (r : Run) (c : Cmd), s.run? k.task = some r → r.cmd? k.id = some c →
    (∀ d ∈ r.cmds, d.id = k.id → d = c) →
    (c.phase = .waiting → r.ending = none → r.heads c = true → r.barred c c.queue = false → startGuard s r c = true →
      (∀ a ∈ r.accs, c.id < a.id) → c.args.fw = false → c.op ≠ 0x10 → c.op ≠ 0x48 → ∀ i, decodeCmd k c.word = some i →
      ∃ t u w, exec (.commandStart k) s = .next t ∧ t.run? k.task = some u ∧ t.work = s.work ++ i :: w ∧
        u.cmds = (r.cmds.map fun d => if d.id = k.id then { d with phase := .started } else d) ∧
        u = { r with cmds := u.cmds } ∧ OnlyRuns s t) ∧
    (c.phase = .done → c.args.fs = false → r.ending = none → (∀ d ∈ r.cmds, d.carrier ≠ some c.id ∧ c.carrier ≠ some d.id) →
      c.op ≠ 0x10 → c.queue = .sync → ∀ f ∈ r.flights, f.id = k.id → f.val = none → (∀ g ∈ r.flights, g.id = k.id → g = f) →
      ∃ t u, exec (.commandComplete k) s = .next t ∧ t.run? k.task = some u ∧ OnlyRuns s t ∧
        u.cmds = (r.cmds.filter fun d => !decide (d.id = k.id)) ∧ .lateDelivery k ∈ t.work ∧
        { f with val := some (keepN (c.status.toNat * 2 ^ 62 + s.cyc % 2 ^ 62)) } ∈ u.flights) ∧
    (c.step = 1 → ∃ t u, exec (.followOnIssue k) s = .next t ∧ t.run? k.task = some u ∧ OnlyRuns s t ∧
      u.cmds = (r.cmds.map fun d => if d.carrier = some k.id then { d with held := false } else d)) ∧
    (∀ g : Bool, ∃ t u, exec (if g then .guestPromiseMissed else .promiseMissed) s = .next t ∧ t.run? k.task = some u ∧
      OnlyRuns s t ∧ u = { r with cmds := u.cmds, due := u.due } ∧
      (∀ p, r.ending = none → (c.queue = .guest ↔ g = true) → c.prom = some p → c.phase ≠ .done → c.missed = false →
        (p < s.cyc → (∃ d ∈ u.due, d.region = false ∧ d.prom = p ∧ d.tval = keepN p ∧
            d.cause = causeWord 0x000A 0 (if g then 1 else 0)) ∧ { c with missed := true } ∈ u.cmds) ∧
        (s.cyc ≤ p → c ∈ u.cmds)))

/-- R299: PBIND binds the port to its mode, entry, count, key, bytes and scope. R300: AGAFF loads the affine generator from the
64-byte descriptor. R301: AGIND loads the indirect generator. R302: PSTART sets the started mark; PSTOP of a port of no running
stage clears it, of a writing port of a running stage stops it. R211: CBAR completes once no earlier command on a masked queue
is left, and waits until then. Other ports, registers and memory stay. -/
def Obligations.PortCommandsSetUpStreams : Prop :=
  ∀ (s : State) (k : CmdRef) (x : CmdArgs) (r : Run) (c : Cmd), s.running? k = some (r, c) → r.ending = none → NoReceivers s →
    let n := x.tc.toNat
    let p := r.port n
    (∃ t u, exec (.pbind k x) s = .next t ∧ Ran s t k r u 0#2 ∧ OnlyRuns s t ∧ u = { r with ports := u.ports, cmds := u.cmds } ∧
      PortBecomes r u n { p with mode := x.fld 94 92, tid := c.tidA, e := x.fld 91 87 + 1, key := x.fld 86 71,
                                 bytes := x.p0.toNat, scope := x.scope.toNat, psz := boundPage r c.tidA, pushed := [], kept := [] }) ∧
    (∀ pa, InExt s r (x.fld 94 91) x.off48 64 .r pa →
      ∃ t u, exec (.agaff k x) s = .next t ∧ Ran s t k r u 0#2 ∧ OnlyRuns s t ∧ u = { r with ports := u.ports, cmds := u.cmds } ∧
        PortBecomes r u n { p with gen := readGen p.tid (memWords s.mem pa 8) }) ∧
    (∃ t u, exec (.agind k x) s = .next t ∧ Ran s t k r u 0#2 ∧ OnlyRuns s t ∧ u = { r with ports := u.ports, cmds := u.cmds } ∧
      PortBecomes r u n { p with gen := .indirect ((x.off48 : Int).bmod (2 ^ 48)) (x.fld 94 89) }) ∧
    (∃ t u, exec (.pstart k x) s = .next t ∧ Ran s t k r u 0#2 ∧ OnlyRuns s t ∧ u = { r with ports := u.ports, cmds := u.cmds } ∧
      PortBecomes r u n { p with started := true }) ∧
    (r.region.running = false ∨ p.started = false →
      ∃ t u, exec (.pstop k x) s = .next t ∧ Ran s t k r u 0#2 ∧ OnlyRuns s t ∧ u = { r with ports := u.ports, cmds := u.cmds } ∧
        PortBecomes r u n { p with started := false, stopped := false }) ∧
    (r.region.running = true → p.started = true → p.mode = 2 →
      ∃ t u, exec (.pstop k x) s = .next t ∧ Ran s t k r u 0#2 ∧ OnlyRuns s t ∧ u = { r with ports := u.ports, cmds := u.cmds } ∧
        PortBecomes r u n { p with stopped := true, landed := [], pushed := [] }) ∧
    ((∀ d ∈ r.cmds, d.id < c.id → cbarMasks x d.queue = false) →
      ∃ t u, exec (.cbar k x) s = .next t ∧ Ran s t k r u 0#2 ∧ OnlyRuns s t ∧ u = { r with cmds := u.cmds }) ∧
    ((∃ d ∈ r.cmds, d.id < c.id ∧ cbarMasks x d.queue = true) → exec (.cbar k x) s = .next s)

/-- R209: TIDSET loads the 64 bytes of an entry; one that breaks R79 leaves the entry zero, status 10. R210: TIDCLR makes it zero.
R298: CFG loads every site of the image's rectangle, checks the routes and the stage; a stage that may run runs, one with a
count of 0 completes at once, one that is refused raises the region fault 0x0015 and completes with status 11. R304: PMARK completes at
its start where no stage runs; that it does so without an S signal of its own, and where a stage runs, is log entry 35 (DEDUCED). -/
def Obligations.TensorEntriesAndStagesAreLoaded : Prop :=
  ∀ (s : State) (k : CmdRef) (x : CmdArgs) (r : Run) (c : Cmd), s.running? k = some (r, c) → r.ending = none →
    (∀ pa, InExt s r (x.fld 94 91) x.off48 64 .r pa → SMap.risesFrom 0 r.tids = true →
      ∃ t u, exec (.tidset k x) s = .next t ∧ OnlyRuns s t ∧ u = { r with tids := u.tids, cmds := u.cmds } ∧
        (tidOk (entryAt s pa) = true → Ran s t k r u 0#2 ∧ u.tid x.ta.toNat = entryAt s pa) ∧
        (tidOk (entryAt s pa) = false → Ran s t k r u 2#2 ∧ u.tid x.ta.toNat = Vector.replicate 8 0#64) ∧
        ∀ j, j ≠ x.ta.toNat → u.tid j = r.tid j) ∧
    (SMap.risesFrom 0 r.tids = true →
      ∃ t u, exec (.tidclr k x) s = .next t ∧ Ran s t k r u 0#2 ∧ OnlyRuns s t ∧ u = { r with tids := u.tids, cmds := u.cmds } ∧
        u.tid x.ta.toNat = Vector.replicate 8 0#64 ∧ ∀ j, j ≠ x.ta.toNat → u.tid j = r.tid j) ∧
    (c.args = x → r.region.running = false → ∃ t u, exec (.pmark k x) s = .next t ∧ Ran s t k r u 0#2 ∧ OnlyRuns s t ∧ u = { r with cmds := u.cmds }) ∧
    (∀ hd' stages, r.region.hdr = some hd' → stages = siteList s r.ctx hd' → hd'.width ≤ 4 →
      r.region.resume = false → c.queue = .region → NoReceivers s →
      let l := loadedRun k c r hd' stages
      let v := linesAwaitedByNone s k.task
      (firstBadRoute l hd' = none → stageOk l = true → c.args.p0 = 0#32 ∨ c.args.p1 = 0#32 ∨ c.args.fld 79 64 = 0 →
        ∃ t u, exec (.cfg k x) s = .next t ∧ Ran s t k r u 0#2 ∧ OnlyRuns v t ∧ u.region.running = false ∧
          LoadedRegion r u c hd' stages) ∧
      (firstBadRoute l hd' = none → stageOk l = true → c.args.p0 ≠ 0#32 → c.args.p1 ≠ 0#32 → c.args.fld 79 64 ≠ 0 →
        ∃ t u, exec (.cfg k x) s = .next t ∧ t.run? k.task = some u ∧ OnlyRuns (owedByOthers v k.task) t ∧ u.region.running = true ∧
          u.region.cfg = some k.id ∧ u.region.j0 = 0 ∧ u.region.j1 = 0 ∧ u.region.j2 = 0 ∧ LoadedRegion r u c hd' stages) ∧
      (firstBadRoute l hd' = none → stageOk l = false →
        ∃ t u, exec (.cfg k x) s = .next t ∧ t.run? k.task = some u ∧ SameBytes s t ∧ u.region.running = false ∧
          (∃ d ∈ u.cmds, d.id = k.id ∧ d.phase = .done ∧ d.status = 3#2) ∧ .commandComplete k ∈ t.work ∧
          ∃ d ∈ u.due, d.region = true ∧ d.cause = causeWord 0x0015 0 0 ∧ d.tval = keepN (c.args.fld 85 80)))

/-! ## Sites (R96 to R129, R188 to R201, R289 to R310) -/

/-- R114, R115, R118, R119 over the integers: when one of IADD ISUB IMUL IMULH IMAD IMIN IMAX IABS AND OR XOR NOT SHL SHR SAR ICMP SEL
POPC CLZ HASH SHUF BCAST IOTA CONST is the next word of an arithmetic site (type i32 or n32; CONST, SEL, SHUF and BCAST in any), on the work in hand
or on a bundle that joins now (R96), every lane that is valid and present gets the value at its destination (R97, R98: a field of an
output, a chain register, a field of the record), generators and accumulators stay; other lanes stay (R100). With words to come the
work stays in hand, else the bundles are sent. Nothing else changes. -/
def Obligations.IntegerSiteWordsGiveTheManualsValues : Prop :=
  ∀ e ∈ laneInts, ∀ (a : SiteRef) (x : SiteArgs) (s : State) (r : Run) (st st0 : Site) (w : AlWork),
    AlTakes s (e.1 a x) a r st st0 w →
    x.tyN = 2 ∨ x.tyN = 6 ∨ e.1 a x = .const a x ∨ e.1 a x = .sel a x ∨ e.1 a x = .shuf a x ∨ e.1 a x = .bcast a x →
    ∃ t, exec (e.1 a x) s = .next t ∧
      AlDoes s t a r st0 w x fun l q => plainLane (e.2 x (seenIn st0 w x) l q) q

/-- R103 to R113, R116, R117: when one of FADD FSUB FMUL FMA FMIN FMAX FABS FNEG FRCP FRSQ FEXP2 FLOG2 FCMP FCLASS FCVT HADD2 HMUL2
HFMA2 HDOT2 Q8DOT4 LMUL LACC LCVT RSUM RMAX SCANL is the next word of an arithmetic site, every lane that is valid and present gets the
value at its destination: the exact result rounded by R71 under the word's mode and the task's flush mode, with one draw of the lane's
generator for each rounding under mode 4 (R75; that each valid lane of SCANL draws, the last one too, is log entry 52, and when FCVT and
LCVT draw log entry 28, both DEDUCED; the sign of an exact zero of HDOT2 and Q8DOT4 is log entry 105, DESIGN CHOICE); LACC adds to the lane's accumulator, LCVT may clear it; RSUM and RMAX give every lane
the pairwise tree over the lanes, SCANL the prefix. Packed pairs are f16 or bf16. Other lanes stay (R100). -/
def Obligations.NumberSiteWordsGiveTheManualsValues : Prop :=
  ∀ e ∈ laneNums, ∀ (a : SiteRef) (x : SiteArgs) (s : State) (r : Run) (st st0 : Site) (w : AlWork),
    AlTakes s (e.1 a x) a r st st0 w →
    (e.1 a x = .hadd2 a x ∨ e.1 a x = .hmul2 a x ∨ e.1 a x = .hfma2 a x → x.tyN = 9 ∨ x.tyN = 10) →
    ∃ t, exec (e.1 a x) s = .next t ∧ AlDoes s t a r st0 w x fun l q => e.2 x r.fz (seenIn st0 w x) l q

/-- R126 to R129, for the bundle that joins at the site of a SCAN REPEAT COORD REDUCE TOPK SPVAL ISECT UNION word. SCAN and REPEAT: lanes
are served in order, at most 16 results leave, a lane not served whole leaves on o3 with its remainder. COORD: pairs (and the linear
index) leave; out of order or out of bounds is a fault of the first such lane. REDUCE: runs that are over leave, the open run stays; a
falling key is a fault. TOPK: the list stays the best k + 1, equal scores in order of arrival. SPVAL: sixteen bundles for one tile, a
fault when the row masks do not add up. ISECT and UNION: decided keys leave in order, at most two bundles of them at once (R125), others stay in the windows. Absent records leave
on o3 (R297). The model's readings: late records keep their lanes (DEDUCED, log entry 25), the order state is cleared at CFG alone (DEDUCED, log
entry 26); its choices (DESIGN CHOICE): the windows are measured after the pair is decided (log entry 55), reason 1 where order and bound
both fail (log entry 56), what leaves late where the sources of SCAN and REPEAT name different inputs (log entry 106), whose c and LANE a
length mismatch of SPVAL gives (log entry 107). -/
def Obligations.SparseSitesServeOrderAndReduce : Prop :=
  ∀ (a : SiteRef) (x : SiteArgs) (s : State) (r : Run) (st st0 : Site) (ls : List SpLane) (gone : List (Nat × Rec)),
    let A (l : SpLane) := linkVal l.2 x.selA
    let B (l : SpLane) := linkVal l.2 x.selB
    let C (l : SpLane) := linkVal l.2 x.selC
    let c := st0.core.sp
    (SpTakes s (.scan a x) a r st st0 ls gone →
      let n (l : SpLane) := (B l).toNat - (A l).toNat
      ∃ t, exec (.scan a x) s = .next t ∧ SpSends s t a st0 gone c
        ((ls.flatMap fun l => (List.range (n l)).map fun j => spRec [A l + BitVec.ofNat 32 j, C l, B l - A l - BitVec.ofNat 32 j]).take 16)
        (restOf ls n x.selA fun l j => A l + BitVec.ofNat 32 j)) ∧
    (SpTakes s (.repeat a x) a r st st0 ls gone →
      let n (l : SpLane) := (B l).toNat
      ∃ t, exec (.repeat a x) s = .next t ∧ SpSends s t a st0 gone c
        ((ls.flatMap fun l => (List.range (n l)).map fun j => spRec [A l, B l - BitVec.ofNat 32 j, C l]).take 16)
        (restOf ls n x.selB fun l j => B l - BitVec.ofNat 32 j)) ∧
    (SpTakes s (.coord a x) a r st st0 ls gone →
      let k (i : Nat) := st0.consts.getD i 0#32
      let outside (l : SpLane) : Prop := x.m 1 1 = 1 ∧ ((k (x.m 4 2)).toNat ≤ (A l).toNat ∨ (k (x.m 7 5)).toNat ≤ (B l).toNat)
      let sorted (l : List SpLane) : Prop := x.m 0 0 = 0 ∨
        List.Pairwise (fun p q => pairLt p q = true) (c.prev.toList ++ l.map fun l => (A l, B l))
      (sorted ls → (∀ l ∈ ls, ¬ outside l) → ∃ t, exec (.coord a x) s = .next t ∧ SpSends s t a st0 gone
        { c with prev := if x.m 0 0 = 1 then (ls.getLast?.map fun l => (A l, B l)).or c.prev else c.prev }
        (ls.map fun l => spRec [A l, B l, if x.m 8 8 = 1 then A l * k (x.m 7 5) + B l else C l]) []) ∧
      (∀ pre l post, ls = pre ++ l :: post → sorted pre → (∀ e ∈ pre, ¬ outside e) →
        let tval := keepN ((A l).toNat * 2 ^ 32 + (B l).toNat)
        (¬ sorted (pre ++ [l]) → ∃ t, exec (.coord a x) s = .next t ∧ SpFaults s t a st0 0x11 1 l.1 tval 0) ∧
        (sorted (pre ++ [l]) → outside l → ∃ t, exec (.coord a x) s = .next t ∧ SpFaults s t a st0 0x11 2 l.1 tval 0))) ∧
    (SpTakes s (.reduce a x) a r st st0 ls gone →
      let rises (l : List SpLane) : Prop := List.Pairwise (fun p q : W32 => p.toNat ≤ q.toNat) (c.lastK.toList ++ l.map A)
      let f := (ls.map fun l => (A l, B l)).foldl (foldRun x r.fz) ([], c.run)
      (rises ls → ∃ t, exec (.reduce a x) s = .next t ∧ SpSends s t a st0 gone
        { c with run := f.2, lastK := (ls.getLast?.map A).or c.lastK }
        (f.1.map fun e => spRec [e.1, e.2.1, BitVec.ofNat 32 e.2.2]) []) ∧
      (∀ pre l post, ls = pre ++ l :: post → rises pre → ¬ rises (pre ++ [l]) →
        ∃ t, exec (.reduce a x) s = .next t ∧ SpFaults s t a st0 0x11 1 l.1 ((A l).setWidth 64) 0)) ∧
    (SpTakes s (.topk a x) a r st st0 ls gone →
      let le (p q : W32 × W32) : Bool := !ahead x.tyN (x.m 6 6 == 1) q.1 p.1
      List.Pairwise (fun p q => le p q = true) c.top → c.top.length ≤ x.m 5 0 + 1 →
      ∃ t, exec (.topk a x) s = .next t ∧ SpSends s t a st0 gone
        { c with top := ((c.top ++ ls.map fun l => (readAs x r.fz (A l), B l)).mergeSort le).take (x.m 5 0 + 1) } [] []) ∧
    (SpTakes s (.spval a x) a r st st0 ls gone → ls = [] →
      ∃ t, exec (.spval a x) s = .next t ∧
        t = (((List.range 16).foldl (fun u _ => u.emit a.task st0 st0.args.dstN (.data (st0.bundle (List.replicate 16 none))))
          (s.putSite a.task st0)).emitPlaced a.task st0 3 gone).wakeSite a.task (siteKey a.row a.col)) ∧
    (SpTakes s (.spval a x) a r st st0 ls gone → ∀ l0 rest, ls = l0 :: rest →
      let els := ls.flatMap fun l => ((List.range 16).filter (A l).getLsbD).map fun j => (16 * l.1 + j, C l)
      let st1 := { st0 with core := { st0.core with sp := c } }
      (els.length = (B l0).toNat → els.length ≤ 256 → (∀ l ∈ rest, B l = B l0) →
        ∃ t, exec (.spval a x) s = .next t ∧
          let out := els.zipIdx.map fun e => spRec [BitVec.ofNat 32 e.1.1, BitVec.ofNat 32 e.2, e.1.2]
          t = (((List.range 16).foldl (fun u k => u.emit a.task st1 st1.args.dstN
              (.data (st1.bundle ((List.range 16).map fun l => out[16 * k + l]?)))) (s.putSite a.task st1)).emitPlaced a.task st1 3
            gone).wakeSite a.task (siteKey a.row a.col)) ∧
      (els.length ≠ (B l0).toNat ∨ 256 < els.length ∨ (∃ l ∈ rest, B l ≠ B l0) →
        ∃ t, exec (.spval a x) s = .next t ∧ SpFaults s t a st0 0x10 0 l0.1 ((B l0).setWidth 64) (C l0).toNat)) ∧
    (∀ union : Bool,
      let i := if union then Instr.union a x else Instr.isect a x
      SiteAt s i a r st → (st.joined = true ∨ st.pairWork = true ∨ r.quietFor st.key = true) → st0 = st.takeHeads.2 →
      let got (i : Nat) := (st.takeHeads.1.find? fun e => decide (e.1 = i)).map (·.2)
      let pay (sel : Sel) (q : Rec) := match sel with | .link _ f => q.flds.getD f 0#32 | _ => 0#32
      let as := keysOf (got 0) (selField x.selA) (pay x.selC)
      let bs := keysOf (got 1) (selField x.selB) fun q => if x.m 3 3 = 1 then q.flds.getD (x.m 2 0) 0#32 else 0#32
      let key (e : Nat × W32 × W32) := e.2.1
      let la := ((as.map key).getLast?).or c.lastA
      let lb := ((bs.map key).getLast?).or c.lastB
      RisesAfter c.lastA (as.map key) → RisesAfter c.lastB (bs.map key) → ∀ out ka kb,
      Decides union la lb (hasDusk (st0.q 0)) (hasDusk (st0.q 1)) (c.winA ++ as.map fun e => spHeld e.2.1 e.2.2)
        (c.winB ++ bs.map fun e => spHeld e.2.1 e.2.2) out ka kb → ka.length ≤ 64 → kb.length ≤ 64 →
      ∃ t, exec i s = .next t ∧ t = (s.spDone a.task st0 (sideAbsent st.takeHeads.1) false
        ⟨{ c with winA := ka, winB := kb, lastA := la, lastB := lb, todo := (c.todo ++ out).drop 32 }, (c.todo ++ out).take 32, [], none⟩).wakeSite a.task (siteKey a.row a.col))

/-- R305, R306: a FORK RETIRE FILTER STEER DUSK GATE word sends each record of the bundle it takes unchanged, in its lane, on the outputs
its rule names (absent ones on o3 where o3 is routed); MARK does so too and counts a bundle that holds a lane (R296); TAGSET replaces
hidden tags by a counter or a source. R310: COMPACT sends full bundles and holds the rest; ORDER holds records until their tag comes, a
tag 256 or more ahead leaves late (shown for one record). R307: MERGE sends the records of both inputs packed, the excess on its overflow output; RECIRC sends
i1's, then held, then i0's records (shown without absent records and with room for all). That ORDER packs what it releases from lane 0,
and that MARK passes a bundle of bubbles uncounted, is log entry 27, and that late records keep their lanes log entry 25 (both
DEDUCED). -/
def Obligations.FlowSitesRouteHoldAndMerge : Prop :=
  ∀ (a : SiteRef) (x : SiteArgs) (s : State) (r : Run) (st st0 : Site) (ls : List (Nat × Rec)),
    let h := a.task
    let key := siteKey a.row a.col
    let fl := st0.core.fl
    let pass (e : Nat × Rec) := if isLate r st0 e then [3] else [x.dstN]
    let stay := ls.filter fun e => !isLate r st0 e
    (∀ e ∈ flowForms, FlTakes s (e.1 a x) a r st st0 ls →
      ∃ t, exec (e.1 a x) s = .next t ∧
        t = (SendsLanes (s.putSite h st0) h st0 (e.2.1 x) (e.2.2 r st0 x) ls).wakeSite h key) ∧
    (FlTakes s (.mark a x) a r st st0 ls →
      let st1 := withFl st0 { fl with count := fl.count + if ls = [] then 0 else 1 }
      ∃ t, exec (.mark a x) s = .next t ∧ t = (SendsLanes (s.putSite h st1) h st1 [x.dstN] pass ls).wakeSite h key) ∧
    (FlTakes s (.tagset a x) a r st st0 ls →
      let st1 := withFl st0 { fl with ctr := if x.m 0 0 = 1 then fl.ctr + BitVec.ofNat 16 stay.length else fl.ctr }
      let newTag (e : (Nat × Rec) × Nat) : BitVec 16 := if x.m 0 0 = 1
        then fl.ctr + BitVec.ofNat 16 ((ls.take e.2).filter fun k => !isLate r st0 k).length else (flSource st0 x e.1.2).setWidth 16
      let tagged := ls.zipIdx.map fun e => if isLate r st0 e.1 then e.1 else (e.1.1, { e.1.2 with tag := newTag e })
      ∃ t, exec (.tagset a x) s = .next t ∧ t = (SendsLanes (s.putSite h st1) h st1 [x.dstN] pass tagged).wakeSite h key) ∧
    (FlTakes s (.compact a x) a r st st0 ls →
      ∃ t out keep st1, exec (.compact a x) s = .next t ∧ out ++ keep = fl.compact ++ stay.map (·.2) ∧ keep.length < 16 ∧
        out.length % 16 = 0 ∧ st1 = withFl st0 { fl with compact := keep } ∧
        t = (((s.putSite h st1).emitPacked h st1 x.dstN out).emitPlaced h st1 3 (ls.filter (isLate r st0))).wakeSite h key) ∧
    (FlTakes s (.order a x) a r st st0 ls → ∀ (l : Nat) (q : Rec), ls = [(l, q)] → isLate r st0 (l, q) = false →
      let late := if (r.outs st0).contains 3 then 3 else x.dstN
      (256 ≤ (q.tag - fl.nextTag).toNat ∨ 256 ≤ fl.order.length →
        ∃ t, exec (.order a x) s = .next t ∧ t = ((s.putSite h st0).emitPlaced h st0 late [(l, q)]).wakeSite h key) ∧
      ((q.tag - fl.nextTag).toNat < 256 → fl.order.length < 256 →
        ∃ t n out keep st1, exec (.order a x) s = .next t ∧ out.map (·.tag) = (List.range n).map (fun j => fl.nextTag + BitVec.ofNat 16 j) ∧
          (out ++ keep).Perm (fl.order ++ [q]) ∧ (∀ p ∈ keep, p.tag ≠ fl.nextTag + BitVec.ofNat 16 n) ∧
          st1 = withFl st0 { fl with nextTag := fl.nextTag + BitVec.ofNat 16 n, order := keep } ∧
          t = ((s.putSite h st1).emitPacked h st1 x.dstN out).wakeSite h key)) ∧
    (FlTakes s (.merge a x) a r st st0 ls →
      let n := (ls.map fun e => e.2.flds.length).foldl Nat.max 0
      let recs := ls.map fun e => { e.2 with flds := e.2.flds ++ List.replicate (n - e.2.flds.length) 0#32 }
      ∃ t, exec (.merge a x) s = .next t ∧
        t = (((s.putSite h st0).emit h st0 x.dstN (.data (st0.bundle ((List.range 16).map fun l => recs[l]?)))).emitPacked h st0
          (x.m 1 0) (recs.drop 16)).wakeSite h key) ∧
    (FlTakes s (.recirc a x) a r st st0 ls →
      let of (i : Nat) := ((headData (st.q i)).map lanesOf).getD []
      let all := (of 1).map (·.2) ++ fl.hold ++ (of 0).map (·.2)
      let n := (all.map fun q => q.flds.length).foldl Nat.max 0
      (∀ q ∈ all, q.absent = none) → all.length ≤ 16 →
      ∃ t st1 s1, exec (.recirc a x) s = .next t ∧
        st1 = { withFl st0 { fl with hold := [], clean := fl.clean && (of 1).isEmpty } with snaps := st1.snaps } ∧
        s1 = (s.modRun h fun u => ((u.putSite st1).putPort (x.m 3 0) ((r.port (x.m 3 0)).consumed [])).trimWindow (x.m 3 0)) ∧
        (let u := s1.emit h st1 x.dstN (.data (st1.bundle ((List.range 16).map fun l =>
            (all[l]?).map fun q => { q with flds := q.flds ++ List.replicate (n - q.flds.length) 0#32 })))
         t = (if fl.hold = [] then u else u.pushNew (.portRunAhead ⟨h, x.m 3 0⟩)).wakeSite h key))

/-- R196, R197: SPLD and SPLDI put scratchpad words, newest value, into the record; SPST and SPATOM store through a shadow line (R194),
SPATOM putting the old word into the record; out of range and misaligned offsets are region faults (R201). R198, R192: L1LD of a held
line reads memory through the shadow lines, a missing line parks the record; L1ST stores through a shadow line. R199: TLD and TST read
and store one tensor element, nothing outside the tensor. R200: PARK of a full word fills the record, of an empty one parks it in the
vigil table. Shown for one request of a service cycle. R191: a service cycle grants requests oldest first, the window before the new
lanes, each one whose banks are free; a new lane that must wait goes into the window, and on o3 only where that is full. R192: a
line's arrival sends its records on o3 in order; which line of a full partition gives way to it is log entry 33 (DESIGN CHOICE): the
first that nothing holds, and where all are held the line waits. -/
def Obligations.MemoryBankWordsReadStoreAndPark : Prop :=
  ∀ (a : SiteRef) (x : SiteArgs) (s : State) (r : Run) (st : Site) (lane : Nat) (e : WinEnt) (q : Rec),
    let m := r.mb st.key
    let key := siteKey a.row a.col
    let A := (reqVal e x.selA 0).toNat
    let n := 2 ^ x.m 23 22
    let badScratch (i : Instr) (o c : Nat) : Prop :=
      (m.size < o + 4 * c → ∃ t, exec i s = .next t ∧ t = ((taken s a st).regionFault a.task 0x12 1
        (siteInfo (afterTake st) e.lane (keepN o) (o % 2 ^ 32))).wakeSite a.task key) ∧
      (o + 4 * c ≤ m.size → o % (4 * c) ≠ 0 → ∃ t, exec i s = .next t ∧ t = ((taken s a st).regionFault a.task 0x12 2
        (siteInfo (afterTake st) e.lane (keepN o) (o % 2 ^ 32))).wakeSite a.task key)
    let loads (i : Instr) (o : Nat) : Prop := badScratch i o n ∧ (o + 4 * n ≤ m.size → o % (4 * n) = 0 →
      ∃ t p, exec i s = .next t ∧ Filled q p x ((List.range n).map fun j => word4 (newestScratch m) (o + 4 * j)) ∧
        MbSends (taken s a st) t a r st [(lane, p)] [])
    let words := (List.range n).flatMap fun j => leBytes 4 (reqVal e x.selB j).toNat
    (MbTakes s (.spld a x) a r st lane e q → loads (.spld a x) (A + x.m 18 0)) ∧
    (MbTakes s (.spldi a x) a r st lane e q →
      loads (.spldi a x) (A + (reqVal e x.selB 0).toNat * 2 ^ x.m 21 19 + x.m 18 0)) ∧
    (MbTakes s (.spst a x) a r st lane e q → let o := A + x.m 18 0
      badScratch (.spst a x) o n ∧ (o + 4 * n ≤ m.size → o % (4 * n) = 0 →
        ∃ t, exec (.spst a x) s = .next t ∧ Shadows s t a r st lane .scratch o words q q)) ∧
    (MbTakes s (.spatom a x) a r st lane e q → let o := A + x.m 18 0
      badScratch (.spatom a x) o 1 ∧ (o + 4 ≤ m.size → o % 4 = 0 →
        let old := word4 (newestScratch m) o
        let b := reqVal e x.selB 0
        let c := reqVal e x.selC 0
        ∃ t p new, exec (.spatom a x) s = .next t ∧ Filled q p x [old] ∧
          (x.tyN ≠ 8 → new = spatomValue (x.m 23 20) (x.tyN == 2) old b c) ∧
          (x.tyN = 8 → new = spatomNew (x.m 23 20) 8 old b c) ∧
          Shadows s t a r st lane .scratch o (leBytes 4 new.toNat) p q)) ∧
    (∀ y pa, let off := A * 2 ^ x.m 21 19 + x.m 14 0
      (MbTakes s (.l1ld a x) a r st lane e q → MbReaches r (x.m 18 15) off (4 * n) .r y pa →
        (∀ e0, extentOf r.lease r.extn (x.m 18 15) = some e0 → (e0.base + off) % (4 * n) = 0 ∧ badIn s y (e0.base + off) (4 * n) = none) →
        let lines := [pa / 128, (pa + 4 * n - 1) / 128]
        ((∀ k ∈ lines, lineHeld s a st k = true) → ∃ t p, exec (.l1ld a x) s = .next t ∧
          Filled q p x ((List.range n).map fun j => word4 (newestByte s m) (pa + 4 * j)) ∧
          MbSends (shownAgain (taken s a st) a st lines q) t a r st [(lane, p)] []) ∧
        (∀ k, lines.find? (fun k => !lineHeld s a st k) = some k →
          ∃ t, exec (.l1ld a x) s = .next t ∧ Misses s t a r st lane q k)) ∧
      (MbTakes s (.l1st a x) a r st lane e q → MbReaches r (x.m 18 15) off (4 * n) .w y pa →
        (∀ e0, extentOf r.lease r.extn (x.m 18 15) = some e0 → (e0.base + off) % (4 * n) = 0) →
        ∃ t, exec (.l1st a x) s = .next t ∧ Shadows s t a r st lane .phys pa words q q)) ∧
    (let T := SMap.get Tid.zero r.region.tids (x.m 23 18)
     let f := tidFmt T
     let j := if x.selB = .none then 0 else (reqVal e x.selB 0).toNat
     let j' := if x.selC = .none then 0 else (reqVal e x.selC 0).toNat
     let off (j : Nat) := rowOff T j 0 0 + (elemPos f A).1
     f ≠ 15 →
      (MbTakes s (.tld a x) a r st lane e q →
        (tidDim T 0 ≤ A ∨ tidDim T 1 ≤ j → ∃ t p, exec (.tld a x) s = .next t ∧ Filled q p x [0#32] ∧
          MbSends (taken s a st) t a r st [(lane, p)] []) ∧
        (A < tidDim T 0 → j < tidDim T 1 → ∀ y pa v, MbReaches r (tidExt T) (off j) (contBytes f) .r y pa →
          tldScaleFault r x e = none →
          let lines := [pa / 128, (pa + contBytes f - 1) / 128] ++ scaleLines r x e
          let u := shownAgain (taken s a st) a st lines q
          readValue u r.lease r.extn T false A j = (.ok v, u) →
          ((∀ k ∈ lines, lineHeld s a st k = true) → ∃ t p, exec (.tld a x) s = .next t ∧
            Filled q p x [BitVec.ofNat 32 (convertG f x.tyN x.rndN false false 0#32 v).1] ∧
            MbSends u t a r st [(lane, p)] []) ∧
          (∀ k, lines.find? (fun k => !lineHeld s a st k) = some k →
            ∃ t, exec (.tld a x) s = .next t ∧ Misses s t a r st lane q k))) ∧
      (MbTakes s (.tst a x) a r st lane e q →
        (tidDim T 0 ≤ A ∨ tidDim T 1 ≤ j' → ∃ t, exec (.tst a x) s = .next t ∧ MbSends (taken s a st) t a r st [(lane, q)] []) ∧
        (A < tidDim T 0 → j' < tidDim T 1 → ∀ y pa, MbReaches r (tidExt T) (off j') (contBytes f) .w y pa →
          let code := (convertG x.tyN f x.rndN (x.m 17 17 == 1) false 0#32 (decodeNum x.tyN false (reqVal e x.selB 0).toNat)).1
          ∃ t, exec (.tst a x) s = .next t ∧ Shadows s t a r st lane .phys pa (leBytes (contBytes f) code) q q))) ∧
    (MbTakes s (.park a x) a r st lane e q → ∀ y pa, let big := x.m 23 23 = 1
      let c := if big then 8 else 4
      let off := A * 2 ^ x.m 18 16
      MbReaches r (x.m 22 19) off c .r y pa →
      ∀ e0, extentOf r.lease r.extn (x.m 22 19) = some e0 → (e0.base + off) % c = 0 → badIn s y (e0.base + off) c = none →
      (∃ z attr, r.lease.find? (fun z => z.idx != 16 && z.holds (e0.base + off) c) = some z ∧
        z.place (e0.base + off) = .phys pa attr) →
      let w := leNat (memBytes s.mem pa c)
      (w ≠ 2 ^ (8 * c) - 1 → ∃ t p, exec (.park a x) s = .next t ∧
        Filled q p x (BitVec.ofNat 32 w :: if big then [BitVec.ofNat 32 (w / 2 ^ 32)] else []) ∧
        MbSends (taken s a st) t a r st [(lane, p)] []) ∧
      (w = 2 ^ (8 * c) - 1 → s.badAt pa c = none → roomIn (homeDie pa) (s.entries (homeDie pa)) = true → (∀ o ∈ s.heldOps, o.pa ≠ pa) →
        ∃ t, exec (.park a x) s = .next t ∧
        t = ((({ taken s a st with free := s.free + 1 }).putSite a.task { afterTake st with core := { (afterTake st).core with
            parked := st.core.parked ++ [(⟨s.free, q, e0.base + off, decide big, x.dstN - 8, none⟩ : ParkEnt)] } }).armVigil
          ⟨1, decide big, pa, BitVec.allOnes 64, BitVec.allOnes 64, .parked a.task st.key s.free⟩).wakeSite a.task key)) ∧
    (SiteAt s (.mbServiceCycle a) a r st → st.joined = true ∨ r.quietFor st.key = true → st.core.win.length ≤ 32 →
      let st0 := st.takeHeads.2
      let got := st.takeHeads.1
      let new := if got.isEmpty then [] else (List.range 16).filterMap fun l => (joinLane st.used got l).map fun recs => WinEnt.mk l recs
      let gone := (new.filter fun e => (absentIn e.recs).isSome).filterMap fun e => (startRec e.recs).map fun q => (e.lane, q)
      ∃ t old lanes back busy wait busy1 win late, exec (.mbServiceCycle a) s = .next t ∧
        Grants (mbBanks r st) [] st.core.win old back busy ∧
        Grants (mbBanks r st) busy (new.filter fun e => (absentIn e.recs).isNone) lanes wait busy1 ∧
        (let reqs := old.map (fun e => (1, e)) ++ lanes.map fun e => (0, e)
         (reqs ≠ [] → win = st.core.win ∧ late = []) ∧
         (reqs = [] → win = (st.core.win ++ wait).take 32 ∧ late = (st.core.win ++ wait).drop 32) ∧
         let st1 := { st0 with
            core := { st.core with win := win, parked := st.core.parked.filter fun p => p.val.isNone }
            mb := if reqs.isEmpty then none else some ⟨reqs, wait⟩ }
         t = (((s.putSite a.task st1).emitPacked a.task st1 3
              ((st.core.parked.filter fun p => p.val.isSome).filterMap ParkEnt.woken)).emitPlaced a.task st1 3
            (gone ++ late.filterMap fun e => (startRec e.recs).map fun q => (e.lane, q))).wakeSite a.task key)) ∧
    (∀ line, s.live? a.task = some r → r.site? key = some st → st.key = key → st.isMb = true →
      (∃ z ∈ st.core.missq, z.line = line) →
      let st1 := { st with core := { st.core with missq := st.core.missq.filter fun z => z.line != line } }
      let recs := (st.core.missq.filter fun z => z.line == line).map (·.rec_)
      let mine (c : L1Copy) : Bool := decide (c.task = a.task ∧ c.mb = key)
      lineHeld s a st line = true ∨ (s.l1.filter mine).length < m.room ∨ (∃ c ∈ s.l1, mine c = true ∧ c.wait = []) →
      ∃ t l, exec (.l1LineArrival a line) s = .next t ∧
        t = (({ s with l1 := l }.modRun a.task fun u => u.putSite st1).emitPacked a.task st1 3 recs).wakeSite a.task key ∧
        (lineHeld s a st line = true → l = s.l1.map fun c =>
          if mine c && decide (c.line = line) then { c with wait := c.wait ++ recs } else c) ∧
        (lineHeld s a st line = false → (s.l1.filter mine).length < m.room → l = s.l1 ++ [⟨a.task, key, line, recs⟩]) ∧
        (lineHeld s a st line = false → m.room ≤ (s.l1.filter mine).length →
          ∀ c, (s.l1.filter mine).find? (fun c => c.wait.isEmpty) = some c →
            l = (s.l1.filter fun d => !decide (c = d)) ++ [⟨a.task, key, line, recs⟩])) ∧
    (∀ line, s.live? a.task = some r → r.site? key = some st → st.key = key → st.isMb = true →
      (∃ z ∈ st.core.missq, z.line = line) → lineHeld s a st line = false →
      let there := s.l1.filter fun c => decide (c.task = a.task ∧ c.mb = key)
      m.room ≤ there.length → (∀ c ∈ there, c.wait ≠ []) →
      ∃ t, exec (.l1LineArrival a line) s = .next t ∧ t = (s.push (.l1LineArrival a line)).wakeSite a.task key)

/-- R296: ROUND_COUNT_EXPIRY and EARLY_EDGE make a MARK's next marker. R18: ROUND_MARKER of a site on whose used inputs the marker has
arrived takes it from each and sends it on every routed output; what the site holds packed (R310, R128) leaves before it. R309: a
RECIRC sends i0's marker at once, opening its loop set, and absorbs i1's, closing it. R308: DUSK_TOKEN sends dusk on, final only if
every input's is; a DUSK site keeps trial dusk; a RECIRC answers with trial dusk until a clean turn and sends final dusk once. R403:
ROUND_COMMIT at the marker lands the round's stores, replaces the edge record, opens the next round; shown too: one buffered store's
bytes are then in memory, no other byte is changed. That a MARK passes another MARK's marker as its own (log entry 60), and that dusk
and a marker at the head of a queue are taken in their order (log entry 24), are the model's readings (DEDUCED). -/
def Obligations.RoundsAndDuskPassSitesAndCommit : Prop :=
  ∀ (a : SiteRef) (s : State) (r : Run) (st : Site),
    let h := a.task
    let key := siteKey a.row a.col
    let fl := st.core.fl
    (SiteAt s (.roundCountExpiry a) a r st →
      ∃ t u, exec (.roundCountExpiry a) s = .next t ∧ MarkMade s u h r st fl.nextMark ∧ t = u.wakeSite h key) ∧
    ((∀ p ∈ s.allRuns, p.region.edgeDue = false) → exec .earlyEdge s = .next s) ∧
    (s.allRuns = [r] → s.live? r.task = some r → r.region.edgeDue = true → ∀ k,
      (r.region.sites.filter fun e => e.2.isMark && !e.2.fin) = [(k, st)] → SMap.risesFrom 0 r.region.sites = true → st.key = k →
      ∃ t, exec .earlyEdge s = .next t ∧
        MarkMade (s.modRun r.task fun q => { q with region := { q.region with edgeDue := false } }) t r.task r st fl.nextMark) ∧
    (SiteAt s (.roundMarker a) a r st → st.isRecirc = false → ∀ n, st.markable = some n → ∃ t st2,
      let g := r.region.roundOf n
      exec (.roundMarker a) s = .next t ∧ st2 = { st with ins := st2.ins } ∧ (∀ i, i ∉ st.used → st2.q i = st.q i) ∧
      (st.ins.length = 4 → ∀ i ∈ st.used, st2.q i = if headMarker (st.q i) = some n then popBody (st.q i) else st.q i) ∧
      (st.isMark = false →
        let st1 := { st2 with core := (flushAtMarker st).2, snaps := st.snaps ++ [(g, (flushAtMarker st).2)], rnd := g + 1 }
        t = ((((s.putSite h st1).emitPacked h st2 st.args.dstN (flushAtMarker st).1).forward h r st1 (.marker n)).checkCommit
          h).wakeSite h key) ∧
      (st.isMark = true → g < fl.nextMark → t = (s.putSite h st2).wakeSite h key) ∧
      (st.isMark = true → fl.nextMark ≤ g → ∃ u, MarkMade s u h r st2 g ∧ t = u.wakeSite h key)) ∧
    (SiteAt s (.roundMarker a) a r st → st.isRecirc = true → ∀ (n : BitVec 8) m b,
      let g := r.region.roundOf n
      (st.q 1 = .marker n :: m → ∃ t, exec (.roundMarker a) s = .next t ∧
        t = ((s.putSite h (withFl (st.setQ 1 m) { fl with capture := fl.capture.filter (· != g) })).checkCommit h).wakeSite h key) ∧
      ((∀ k, (st.q 1).head? ≠ some (.marker k)) → st.q 0 = .marker n :: b → ∃ t st1, exec (.roundMarker a) s = .next t ∧
        st1 = { withFl (st.setQ 0 b) { fl with capture := fl.capture ++ [g] } with snaps := st1.snaps, rnd := g + 1 } ∧
        st1.snaps = st.snaps ++ [(g, { st.core with fl := { fl with capture := [], loopSet := [] } })] ∧
        t = (((s.putSite h st1).forward h r st1 (.marker n)).checkCommit h).wakeSite h key)) ∧
    (SiteAt s (.duskToken a) a r st → st.isRecirc = false → ∃ t st1 u,
      let final := st.used.all fun i => finalFirst (st.q i)
      exec (.duskToken a) s = .next t ∧ st1 = { st.mapQ popLead with core := (flushAtDusk st final).2, fin := final } ∧
      u = (s.putSite h st1).emitExact h st1 st.args.dstN
        (if st.runs 2 7 then (st.args.m 5 0 + 16) / 16 else ((flushAtDusk st final).1.length + 15) / 16)
        (flushAtDusk st final).1 ∧
      (final = true → t = ((u.forward h r st1 (.dusk true)).checkCommit h).wakeSite h key) ∧
      (final = false → t = (if st.runs 3 9 then u else u.forward h r st1 (.dusk false)).wakeSite h key)) ∧
    (SiteAt s (.duskToken a) a r st → st.isRecirc = true → ∀ k m,
      (st.q 1 = .dusk k :: m → ∃ t, exec (.duskToken a) s = .next t ∧
        let put (f : FlCore) := withFl (st.setQ 1 m) f
        let quiet (f : FlCore) := ((s.putSite h (put f)).emit h (put f) st.args.dstN (.dusk false)).wakeSite h key
        (k = true → t = ((s.putSite h (put { fl with capture := [] })).checkCommit h).wakeSite h key) ∧
        (k = false → fl.pend = none → t = (s.putSite h (put fl)).wakeSite h key) ∧
        (k = false → fl.pend ≠ none → fl.clean = false → t = quiet { fl with clean := true }) ∧
        (k = false → fl.pend = some false → fl.clean = true → t = quiet { fl with pend := none }) ∧
        (k = false → fl.pend = some true → fl.clean = true →
          let st1 := { put { fl with done := true, pend := none, capture := [] } with fin := true }
          t = (((s.putSite h st1).forward h r st1 (.dusk true)).checkCommit h).wakeSite h key)) ∧
      ((∀ j, (st.q 1).head? ≠ some (.dusk j)) → st.q 0 = .dusk k :: m → ∃ t, exec (.duskToken a) s = .next t ∧
        (fl.pend = none → let st1 := withFl (st.setQ 0 m) { fl with pend := some k, clean := true }
          t = ((s.putSite h st1).emit h st1 st.args.dstN (.dusk false)).wakeSite h key) ∧
        (∀ p, fl.pend = some p → t = (s.putSite h (withFl (st.setQ 0 m) { fl with pend := some (p || k) })).wakeSite h key))) ∧
    (s.live? h = some r → r.canMark r.region.committed = true →
      let n := r.region.committed
      (∃ t, exec (.roundCommit h) s = .next t ∧
        t = ((((s.commitStores h n).modRun h fun u => (u.setEdge (some n)).edgeDone n).edgeNews h).checkCommit h)) ∧
      ∀ k va pa bs, r.region.mbs = [] → (r.region.stores.filter fun z => decide (z.rnd = n)) = [⟨n, k, va, pa, none, bs⟩] →
        Unwatched s pa bs.length → MemoryOk s → ∃ t u, exec (.roundCommit h) s = .next t ∧ BytesAt t pa bs ∧ SameBytesOutside pa bs.length s t ∧
          t.run? h = some u ∧ u.region.committed = n + 1 ∧ (∀ z ∈ u.region.stores, z.rnd ≠ n) ∧ u.region.edge.held = true) ∧
    (s.live? h = some r → r.canMark r.region.committed = false → r.canEnd = false → exec (.roundCommit h) s = .next s) ∧
    (s.live? h = some r → r.canMark r.region.committed = false → r.canEnd = true →
      ∃ t, exec (.roundCommit h) s = .next t ∧ t = s.endPass h)

/-- R214: PORT_RUN_AHEAD requests the elements up to the end of the window, each landing a pending event. R215: PORT_ELEMENT_LANDED
takes the element's bytes from memory; an uncorrectable error rolls the round back (R418). R215, R299: PORT_EMIT of an affine port
sends the next records, at most 16, with their ordinals as hidden tags, absent where an element has not landed, and final dusk after
the last. R301: PORT_INDEX_RECORD answers an index with the elements it addresses; dusk ends the stream. R299, R403: PORT_RECORD_WRITE
puts the containers of an affine port's record into the round's store buffer; a marker notes the position, final dusk ends the port. -/
def Obligations.PortsStreamIndexAndWriteRecords : Prop :=
  ∀ (p : PortRef) (s : State) (r : Run) (q : Port), PortAt s p r q →
    let h := p.task
    let k := p.port
    let c := contBytes (tidFmt q.tid)
    (q.reads = true → q.stopAt = none → q.owed = [] →
      let stop := Nat.min q.gen.total (r.windowEnd k q)
      q.req ≤ stop → (∀ j, q.req ≤ j → j < stop → ∃ va, r.portVa q (r.affineOff q j) .r = .ok va) →
      ∃ t, exec (.portRunAhead p) s = .next t ∧
        t = (((List.range (stop - q.req)).map fun i => q.req + i).foldl (fun u j => u.pushNew (.portElementLanded p j .none))
          (s.putPort h k { q with req := stop })).pushNew (.portEmit p)) ∧
    (∀ j pa, q.reads = true → q.awaits j = true →
      (ElementAt s r q j pa → 0 < c →
        let w := { q with landed := q.landed ++ [(j, leNat (memBytes s.mem pa c))] }
        (∃ t, exec (.portElementLanded p j .none) s = .next t ∧ t = s.putPort h k w) ∧
        ∀ x, ∃ t, exec (.portElementLanded p j (.corrected x)) s = .next t ∧ t = (s.correctable 0 x).putPort h k w) ∧
      ∃ t, exec (.portElementLanded p j (.uncorrectable pa)) s = .next t ∧ t = s.roundError h pa (portInfo k (q.laneOf j))) ∧
    (q.reads = true → q.dusked = false → q.stopAt = none →
      let all := (q.gen.total + q.per - 1) / q.per
      (all ≤ q.next → ∃ t, exec (.portEmit p) s = .next t ∧
        t = (s.putPort h k { q with dusked := true }).toInput h (r.siteOfPort k) 3 (.dusk true)) ∧
      (q.next < all → ∀ (lanes : List Rec), lanes.length = Nat.min 16 (all - q.next) →
        (∀ l x, lanes[l]? = some x → let j := (q.next + l) * q.per
          x.tag = BitVec.ofNat 16 j ∧
          (∀ cs, q.recordAt j = some cs → x.flds = packConts (tidFmt q.tid) cs ∧ x.absent = none) ∧
          (q.recordAt j = none → x.absent = some (k, j) ∧
            x.flds = (packConts (tidFmt q.tid) (List.replicate q.per 0)).map fun _ => 0#32)) →
        ∃ t w, exec (.portEmit p) s = .next t ∧ w = { q with next := q.next + lanes.length, owed := w.owed, landed := w.landed } ∧
          w.owed = q.owed ++ lanes.filterMap (fun x => x.absent.map (·.2)) ∧
          (∀ e ∈ q.landed, w.next * q.per ≤ e.1 → e ∈ w.landed) ∧ (∀ e ∈ w.landed, e ∈ q.landed) ∧
          t = ((s.putPort h k w).toInput h (r.siteOfPort k) 3
            (.data ⟨(List.range 16).map fun l => lanes[l]?, BitVec.ofNat 8 q.rnd, [(k, w.next)]⟩)).pushNew (.portRunAhead p))) ∧
    (q.mode = 1 → q.gen.isIndirect = true → q.stopped = false → q.dusked = false →
      (∀ ms, q.ins = .dusk true :: ms → ∃ t, exec (.portIndexRecord p) s = .next t ∧
        let w := { q with ins := ms, dusked := true }
        let u := ((s.putPort h k { q with ins := ms }).putPort h k w).toInput h (r.siteOfPort k) 3 (.dusk true)
        t = if ms = [] then u else u.pushNew (.portIndexRecord p)) ∧
      (∀ b ms l x, ∀ va : Nat → Nat × Nat, q.ins = .data b :: ms → l < 16 → (b.lanes[l]?).join = some x → x.absent = none →
        (∀ j, j < 16 → j ≠ l → (b.lanes[j]?).join = none) → 0 < c →
        (∀ i, i < q.per → ∃ y, r.portVa { q with ins := ms } (indirectOff q (x.flds.getD 0 0#32) i) .r = .ok (va i).1 ∧
          covered r.lease (va i).1 c .r = .ok y ∧ FlatAt y (va i).1 c (va i).2 ∧ badIn s y (va i).1 c = none) →
        ∃ t, exec (.portIndexRecord p) s = .next t ∧
          let cs := (List.range q.per).map fun i => leNat (memBytes s.mem (va i).2 c)
          let ans := { x with flds := (packConts (tidFmt q.tid) cs ++ x.flds.drop 1).take 8 }
          let u := (s.putPort h k { q with ins := ms }).toInput h (r.siteOfPort k) 3
            (.data { b with lanes := (List.range 16).map fun j => if j = l then some ans else none })
          t = if ms = [] then u else u.pushNew (.portIndexRecord p))) ∧
    (q.mode = 2 → ∀ ms,
      let w := { q with ins := ms }
      let goesOn (u : State) : State := if ms = [] then u else u.pushNew (.portRecordWrite p)
      (∀ n, q.ins = .marker n :: ms → ∃ t, exec (.portRecordWrite p) s = .next t ∧
        t = goesOn (((s.putPort h k w).putPort h k { w with snaps := q.snaps ++ [(r.region.roundOf n, q.next)], rnd := r.region.roundOf n + 1 }).checkCommit h)) ∧
      (q.ins = .dusk true :: ms → ∃ t, exec (.portRecordWrite p) s = .next t ∧
        t = goesOn (((s.putPort h k w).putPort h k { w with dusked := true }).checkCommit h)) ∧
      (∀ b l x, ∀ ls : Nat → List RoundStore, q.ins = .data b :: ms → q.stopped = false → q.gen.isIndirect = false →
        (b.lanes.zipIdx.filterMap fun z => z.1.map fun y => (z.2, y)) = [(l, x)] → x.absent = none →
        let n := Nat.min q.per (q.gen.total - q.next)
        (∀ i, i < n → ∃ va, r.portVa w (r.affineOff w (q.next + i)) .w = .ok va ∧
          storesOf r k q.rnd va (leBytes c ((unpackConts (tidFmt q.tid) q.per x.flds).getD i 0)) = .ok (ls i)) →
        (((r.region.stores ++ (List.range n).flatMap ls).filter fun z => decide (z.port = k)).map fun z => z.bytes.length).sum ≤ 24576 →
        ∃ t, exec (.portRecordWrite p) s = .next t ∧
          t = goesOn (((s.putPort h k w).putPort h k { w with next := q.next + n }).modRun h fun u =>
            { u with region := { u.region with stores := u.region.stores ++ (List.range n).flatMap ls } })))

/-- R216, R217: a COPY whose ranges do not overlap, or coincide, leaves the source's old bytes at the destination, every other byte as
before, and completes with status 00; one of 0 bytes completes at once. R220: COPYM lands the bytes in one side of a tile's operand
store, in its place among the fetches of the tile (R202), and waits while an earlier MMA still reads them; one of 0 bytes has landed at
once. R221, R222: a GATHER of one index copies the row it names, or writes zeros
for an index past the rows; a SCATTER of one copies to the row named, or nothing. R223: L2PUSH sends a row to its receivers' windows,
completes when all is sent, and with status 10 when none is left. R226: UNPIN removes the pins of the named sides. -/
def Obligations.CopiesAndRowsMoveBytes : Prop :=
  ∀ (s : State) (k : CmdRef) (x : CmdArgs) (r : Run) (c : Cmd), s.running? k = some (r, c) → c.args = x →
    let n := x.p1.toNat
    (n = 0 → ∀ i ∈ [Instr.copy k x, .gather k x, .scatter k x], ∃ t u, exec i s = .next t ∧ Ran s t k r u 0#2 ∧ OnlyRuns s t ∧
      u = { r with cmds := u.cmds }) ∧
    (∀ e0 e1 pa qa, n ≠ 0 → extentOf r.lease r.extn (tidExt c.tidA) = some e0 → extentOf r.lease r.extn (tidExt c.tidC) = some e1 →
      let src := tidOffset c.tidA + x.p0.toNat
      let dst := tidOffset c.tidC + x.fixed.toNat
      e0.base + src = e1.base + dst ∨ e0.base + src + n ≤ e1.base + dst ∨ e1.base + dst + n ≤ e0.base + src →
      InExt s r (tidExt c.tidA) src n .r pa → InExt s r (tidExt c.tidC) dst n .w qa → Unwatched s qa n → MemoryOk s →
      ∃ t u, exec (.copy k x) s = .next t ∧ Ran s t k r u 0#2 ∧ u = { r with cmds := u.cmds } ∧ StoredRun s t ∧
        BytesAt t qa (memBytes s.mem pa n) ∧ SameBytesOutside qa n s t) ∧
    (n = 0 → r.ending = none → ∃ t u, exec (.copym k x) s = .next t ∧ FillLanded s t k r u c ∧ OnlyRuns s t ∧ u = { r with cmds := u.cmds }) ∧
    (n ≠ 0 → r.ending = none → MayLand r c → (∀ d ∈ r.cmds, d.id < c.id → d.args.tc = x.tc →
        (d.op = 0x11 → d.step ≠ 0) ∧ (d.op = 0x15 ∨ d.op = 0x16 → d.phase ≠ .waiting)) →
      ∀ pa, InExt s r (tidExt c.tidA) (tidOffset c.tidA + x.p0.toNat) n .r pa →
        SMap.risesFrom 0 ((r.tile x.tc.toNat).side (x.fld 94 94)) = true →
      ∃ t u y, exec (.copym k x) s = .next t ∧ FillLanded s t k r u c ∧ OnlyRuns s t ∧ OnlyTile r u x.tc.toNat y ∧
        SideFilled (r.tile x.tc.toNat) y (x.fld 94 94) (128 * x.fld 93 82) (memBytes s.mem pa n) ⟨c.word, c.tidA⟩ ∧
        y.pins = (r.tile x.tc.toNat).pins) ∧
    (n ≠ 0 → (∃ d ∈ r.cmds, d.id < c.id ∧ d.args.tc = x.tc ∧ fillMeets c d = true) → exec (.copym k x) s = .next s) ∧
    (∀ y, n = 1 → readElem s r.lease r.extn c.tidB x.p0.toNat 0 = (.ok y, s) → MemoryOk s →
      let bytes (t : Tid) := tidDim t 0 / contElems (tidFmt t) * contBytes (tidFmt t)
      (∀ pa qa, y < tidDim c.tidA 1 → RowAt s r c.tidA y .r pa → RowAt s r c.tidC 0 .w qa → bytes c.tidC = bytes c.tidA →
        Unwatched s qa (bytes c.tidC) →
        ∃ t u, exec (.gather k x) s = .next t ∧ Ran s t k r u 0#2 ∧ u = { r with cmds := u.cmds } ∧ StoredRun s t ∧
          BytesAt t qa (memBytes s.mem pa (bytes c.tidA)) ∧ SameBytesOutside qa (bytes c.tidC) s t) ∧
      (∀ qa, tidDim c.tidA 1 ≤ y → RowAt s r c.tidC 0 .w qa → Unwatched s qa (bytes c.tidC) →
        ∃ t u, exec (.gather k x) s = .next t ∧ Ran s t k r u 0#2 ∧ u = { r with cmds := u.cmds } ∧ StoredRun s t ∧
          BytesAt t qa (List.replicate (bytes c.tidC) 0#8) ∧ SameBytesOutside qa (bytes c.tidC) s t) ∧
      (∀ pa qa, y < tidDim c.tidC 1 → RowAt s r c.tidA 0 .r pa → RowAt s r c.tidC y .w qa → bytes c.tidC = bytes c.tidA →
        Unwatched s qa (bytes c.tidC) →
        ∃ t u, exec (.scatter k x) s = .next t ∧ Ran s t k r u 0#2 ∧ u = { r with cmds := u.cmds } ∧ StoredRun s t ∧
          BytesAt t qa (memBytes s.mem pa (bytes c.tidA)) ∧ SameBytesOutside qa (bytes c.tidC) s t) ∧
      (tidDim c.tidC 1 ≤ y → ∃ t u, exec (.scatter k x) s = .next t ∧ Ran s t k r u 0#2 ∧ OnlyRuns s t ∧ u = { r with cmds := u.cmds })) ∧
    (∀ (h : W64) (m : Nat) (p : Port) (pa : Nat), n = 1 → c.sent = 0 → c.recv = [(h, m)] → c.bad = false →
      takesPush s (x.fld 94 79) (h, m) = some p → p.pushed = [] →
      let rb := tidDim c.tidA 0 / contElems (tidFmt c.tidA) * contBytes (tidFmt c.tidA)
      0 < rb → rb ≤ 16384 → RowAt s r c.tidA x.p0.toNat .r pa →
      ∃ t v, exec (.l2push k x) s = .next t ∧ OnlyRuns s t ∧ t.work = s.work ++ [.portEmit ⟨h, m⟩, .l2push k x] ∧
        t.run? h = some v ∧ SMap.get? v.ports m = some { p with pushed := memBytes s.mem pa rb } ∧
        ∃ w, t.running? k = some (w, { c with sent := rb })) ∧
    (tidDim c.tidA 0 / contElems (tidFmt c.tidA) * contBytes (tidFmt c.tidA) * n ≤ c.sent → c.sent ≠ 0 → c.bad = false →
      (∀ d ∈ r.cmds, d.id = k.id → d = c) → (∀ q ∈ c.recv, takesPush s (x.fld 94 79) q ≠ none) → c.recv ≠ [] →
      ∃ t u, exec (.l2push k x) s = .next t ∧ Ran s t k r u 0#2 ∧ OnlyRuns s t ∧ u = { r with cmds := u.cmds }) ∧
    (c.sent ≠ 0 → (∀ q ∈ c.recv, takesPush s (x.fld 94 79) q = none) →
      ∃ t u, exec (.l2push k x) s = .next t ∧ t.run? k.task = some u ∧ OnlyRuns s t ∧ .commandComplete k ∈ t.work ∧
        ∃ d ∈ u.cmds, d.id = k.id ∧ d.phase = .done ∧ d.status = 2#2) ∧
    (∃ t u y, exec (.unpin k x) s = .next t ∧ Ran s t k r u 0#2 ∧ OnlyRuns s t ∧ OnlyTile r u x.tc.toNat y ∧
      y = { r.tile x.tc.toNat with pins := y.pins } ∧
      ∀ p, p ∈ y.pins ↔ p ∈ (r.tile x.tc.toNat).pins ∧ ¬(p.side = 0 ∧ x.bit 93 = true) ∧ ¬(p.side ≠ 0 ∧ x.bit 94 = true))

/-- R134, R135: after any of the twelve MMA forms every cell of the bank is what the chain of group sums gives, each group's sum
rounded, then added and rounded, from the old cell, or +0 for MMAZ; the other bank and the stores stay. R141: MLOAD gives a cell the
rounded value of its element, +0 past the tensor. R142: MSTORE of one row converts each element in bounds and clears the bank when
asked. R143: each conversion draws from its column's generator. R144: MSCALE multiplies each cell by its two factors, rounded once.
R224: TFETCH lands a panel, each element at its column and row, the zero code out of bounds, with the scale bytes behind. -/
def Obligations.MatrixTilesMultiplyLoadStoreAndScale : Prop :=
  ∀ (s : State) (k : CmdRef) (x : CmdArgs) (r : Run) (c : Cmd), s.running? k = some (r, c) → c.args = x →
    let tl := r.tile x.tc.toNat
    let b := x.fld 88 88
    let fmt := tidFmt c.tidA
    let done (t : State) (u : Run) (y : Tile) : Prop := Ran s t k r u 0#2 ∧ OnlyTile r u x.tc.toNat y ∧ OnlyBank tl y b
    (∀ p ∈ mmaForms, ∃ t u y, exec (p.1 k x) s = .next t ∧ done t u y ∧ OnlyRuns s t ∧ y.gens = tl.gens ∧
      ∀ e, e < 16384 → ∃ acc, acc 0 = (if p.2 then 0#32 else cellOf tl b e) ∧ CellChain tl c r.fz (e / 128) (e % 128) acc ∧
        cellOf y b e = acc (x.fld 87 79 + 1)) ∧
    (∀ v : Nat → Machine.Num,
      let inside (e : Nat) : Prop := x.p1.toNat + e % 128 < tidDim c.tidA 0 ∧ x.p0.toNat + e / 128 < tidDim c.tidA 1
      (∀ e, e < 16384 → inside e →
        readValue s r.lease r.extn c.tidA r.fz (x.p1.toNat + e % 128) (x.p0.toNat + e / 128) = (.ok (v e), s)) →
      ∃ t u y, exec (.mload k x) s = .next t ∧ done t u y ∧ OnlyRuns s t ∧ y.gens = tl.gens ∧
        ∀ e, e < 16384 → (inside e → cellOf y b e = BitVec.ofNat 32 (roundN 8 0 false r.fz (v e))) ∧
          (¬ inside e → cellOf y b e = 0#32)) ∧
    (∀ pa, tl.gens.length = 128 → contElems fmt = 1 → tidSfmt c.tidA = 0 → tidDim c.tidA 1 ≤ x.p0.toNat + 1 → MemoryOk s →
      let w := fmtBits fmt / 8
      let n := if tidDim c.tidA 1 ≤ x.p0.toNat then 0 else min 128 (tidDim c.tidA 0 - x.p1.toNat)
      let conv (j : Nat) := roundG fmt (x.fld 91 89) (x.bit 87) r.fz (tl.gens.getD j 0#32) (f32Of r.fz (cellOf tl b j))
      (∀ j, j < n → InExt s r (tidExt c.tidA) (rowOff c.tidA x.p0.toNat 0 0 + w * (x.p1.toNat + j)) w .w (pa + w * j)) →
      Unwatched s pa (w * n) →
      ∃ t u y, exec (.mstore k x) s = .next t ∧ done t u y ∧ StoredRun s t ∧
        BytesAt t pa ((List.range n).flatMap fun j => leBytes w (conv j).1) ∧ SameBytesOutside pa (w * n) s t ∧
        (∀ j, j < 128 → y.gens.getD j 0#32 = if j < n then (conv j).2 else tl.gens.getD j 0#32) ∧
        ∀ e, e < 16384 → cellOf y b e = if x.bit 86 then 0#32 else cellOf tl b e) ∧
    (∀ rf cf : Nat → Nat, tl.gens.length = 128 →
      (x.bit 87 = true → ∀ i, i < 128 → readElem s r.lease r.extn c.tidA (x.p0.toNat + i) 0 = (.ok (rf i), s)) →
      (x.bit 86 = true → ∀ j, j < 128 → readElem s r.lease r.extn c.tidB (x.p1.toNat + j) 0 = (.ok (cf j), s)) →
      let row (i : Nat) : Machine.Num := if x.bit 87 then decodeNum 8 r.fz (rf i) else intNum 1
      let col (j : Nat) : Machine.Num := if x.bit 86 then decodeNum 8 r.fz (cf j) else intNum 1
      ∃ t u y, exec (.mscale k x) s = .next t ∧ done t u y ∧ OnlyRuns s t ∧
        ∀ j, j < 128 → ∃ g : Nat → W32, g 0 = tl.gens.getD j 0#32 ∧ g 128 = y.gens.getD j 0#32 ∧
          ∀ i, i < 128 →
            let q := roundG 8 (x.fld 91 89) false r.fz (g i) (mulNum (mulNum (f32Of r.fz (cellOf tl b (128 * i + j))) (row i)) (col j))
            cellOf y b (128 * i + j) = BitVec.ofNat 32 q.1 ∧ g (i + 1) = q.2) ∧
    (MayLand r c → r.ending = none →
      ∀ v sc : Nat → Nat → Nat, 9 ≤ fmt → fmt ≤ 14 →
      let kk := 32 * (x.fld 81 73 + 1)
      let inside (m j : Nat) : Prop := x.p1.toNat + j < tidDim c.tidA 0 ∧ x.p0.toNat + m < tidDim c.tidA 1
      (∀ m j, m < 128 → j < kk → inside m j →
        readElem s r.lease r.extn c.tidA (x.p1.toNat + j) (x.p0.toNat + m) = (.ok (v m j), s)) →
      (tidSfmt c.tidA = 1 → ∀ m g, m < 128 → g < kk / 32 → inside m (32 * g) →
        readScale s r.lease r.extn c.tidA (x.p1.toNat + 32 * g) (x.p0.toNat + m) = (.ok (sc m g), s)) →
      SMap.risesFrom 0 (tl.side (x.fld 94 94)) = true →
      ∃ t u y bs, exec (.tfetch k x) s = .next t ∧ FillLanded s t k r u c ∧ OnlyRuns s t ∧ OnlyTile r u x.tc.toNat y ∧
        SideFilled tl y (x.fld 94 94) (128 * x.fld 93 82) bs ⟨c.word, c.tidA⟩ ∧
        bs.length = panelBytes fmt kk (tidSfmt c.tidA == 1) ∧ (∃ l, y.pins = tl.pins ++ l) ∧
        (∀ m j, m < 128 → j < kk → (inside m j → codeIn y (x.fld 94 94) (128 * x.fld 93 82) fmt j m = v m j) ∧
          (¬ inside m j → codeIn y (x.fld 94 94) (128 * x.fld 93 82) fmt j m = zeroCode fmt false)) ∧
        (tidSfmt c.tidA = 1 → ∀ m g, m < 128 → g < kk / 32 →
          (inside m (32 * g) → panelScale (y.side (x.fld 94 94)) c.tidA (128 * x.fld 93 82) kk g m = sc m g) ∧
          (¬ inside m (32 * g) → panelScale (y.side (x.fld 94 94)) c.tidA (128 * x.fld 93 82) kk g m = 0x7F)))

/-! ## Collectives, other devices, hosts, queues, the mailbox, guests, the package -/

/-- R145, R146: CRED of one element gives the word at the home the stated value and completes; a refused path gives status 10;
with no element at all it completes at once (that the update needs the right W alone is log entry 112, DESIGN CHOICE).
R148, R149: CONTRIB of at most 256 bytes to a switch sends one message with the rounded elements and awaits its acknowledgement; n = 0
completes at once. R247, R248: SIGNAL, ARRIVEC and WAITC send their operation to the home of their word; ARRIVEC waits for the earlier
commands of other queues. R380, R381: GQPOST sends the packet with a free tag, which is the lowest one (DEDUCED, log entry 69), its save area and promise, or
waits while its site is absent or has no free tag. -/
def Obligations.CollectiveAndSignalCommandsSend : Prop :=
  ∀ (s : State) (k : CmdRef) (x : CmdArgs) (r : Run) (c : Cmd), s.running? k = some (r, c) → c.args = x →
    let row := tidOffset c.tidC + x.p0.toNat * tidStride c.tidC 1
    let w := fmtBits (tidFmt c.tidC) / 8
    let credRan (t : State) (u : Run) (refused : Bool) : Prop :=
      t.run? k.task = some u ∧ (∃ w, t.work = s.work ++ w ∧ .commandComplete k ∈ w) ∧ u = { r with cmds := u.cmds } ∧
      u.cmds = (r.cmds.map fun d => if d.id = k.id then
        { d with phase := .done, status := (if refused then 2#2 else 0#2), step := 1, bad := refused } else d) ∧
      ∀ h, h ≠ k.task → t.run? h = s.run? h
    let alone : Prop := ∀ w ∈ s.peers, w.owner ≠ .elem k
    (x.p1 = 0#32 → ∃ t u, exec (.contrib k x) s = .next t ∧ Ran s t k r u 0#2 ∧ OnlyRuns s t ∧ u = { r with cmds := u.cmds }) ∧
    (x.p1 = 0#32 → alone → ∃ t u, exec (.cred k x) s = .next t ∧ credRan t u false ∧ OnlyRuns s t) ∧
    (∀ (v : Nat) (e0 e : Extent) (pa : Nat) (attr : BitVec 8), x.p1 = 1#32 → alone → tidFmt c.tidA ∈ [2, 6, 8] →
      readElem s r.lease r.extn c.tidA x.p0.toNat 0 = (.ok v, s) → extentOf r.lease r.extn (tidExt c.tidC) = some e0 →
      let va := e0.base + (tidOffset c.tidC + 4 * x.p0.toNat)
      covered r.lease va 4 .w = .ok e → e.place va = .phys pa attr →
      (pathRefuses s (.phys pa attr) x.scope.toNat false = none → s.badAt pa 4 = none → Unwatched s pa 4 → MemoryOk s →
        ∃ t u, exec (.cred k x) s = .next t ∧ credRan t u false ∧ StoredRun s t ∧
          memW32 t.mem pa = credValue (x.fld 94 92) (tidFmt c.tidA) (x.fld 91 89) (x.bit 88) r.fz (memW32 s.mem pa) (BitVec.ofNat 32 v) ∧
          SameBytesOutside pa 4 s t) ∧
      (pathRefuses s (.phys pa attr) x.scope.toNat false ≠ none →
        ∃ t u, exec (.cred k x) s = .next t ∧ credRan t u true ∧ OnlyRuns s t)) ∧
    (∀ (v : Nat → Machine.Num) (e0 : Extent) (p : PeerWin),
      let n := x.p1.toNat
      let g := SMap.get 0#64 s.groups (x.fld 87 80)
      let fmt := if x.fld 94 92 = 0 then 11 else if x.fld 94 92 = 1 then 12 else 10
      0 < n → fmtBits fmt / 8 * n ≤ 256 → x.fc = false → bit g 62 = false →
      extentOf r.lease r.extn (tidExt c.tidC) = some e0 →
      let va := e0.base + (tidOffset c.tidC + 4 * x.p0.toNat)
      e0.peer = some p → (∀ i, i < n → ∃ e, covered r.lease (va + 4 * i) 4 .w = .ok e) →
      (∀ i, i < n → readValue s r.lease r.extn c.tidA r.fz (x.p0.toNat + i) 0 = (.ok (v i), s)) →
      let code (i : Nat) : Nat := (roundG fmt (x.fld 91 89) (x.bit 88) r.fz
        (SMap.get 0#32 r.coll.gens ((x.p0.toNat + i) % 512)) (addNum 0 (v i) (zeroNum false))).1
      let codes := (List.range n).map code
      let off := va % 2 ^ 42
      ∃ t u, exec (.contrib k x) s = .next t ∧ t.run? k.task = some u ∧ u = { r with cmds := u.cmds, coll := u.coll } ∧
        u.cmds = (r.cmds.map fun d => if d.id = k.id then { d with step := 1 } else d) ∧
        t = { s with cc := t.cc, runs := t.runs, out := s.out ++ [contribMsg k x g p off codes],
                     contribs := s.contribs ++ [⟨k, ⟨BitVec.ofNat 8 (x.fld 87 80), BitVec.ofNat 16 (x.fld 79 64),
                       keepN (p.dev * 2 ^ 50 + p.win * 2 ^ 42 + off), keepN x.p0.toNat⟩, BitVec.ofNat 2 (x.fld 94 92),
                       codes.map fun q => BitVec.ofNat 32 q, 0, [], p⟩] } ∧ SameBytes s t) ∧
    (∀ pa attr, ReachableWord s r c (tidOffset c.tidC + w * x.p0.toNat) w (decide (x.fld 94 92 ≤ 2)) pa attr →
      ∃ t u, exec (.signal k x) s = .next t ∧ SentHome s t k r u pa attr (w == 8)
        (.sigop (x.fld 94 92) (if tidFmt c.tidC < 4 then x.p1.signExtend 64 else x.p1.setWidth 64) x.scope.toNat)) ∧
    (∀ (e0 e : Extent) (pa : Nat) (attr : BitVec 8), extentOf r.lease r.extn (tidExt c.tidC) = some e0 →
      coveredRW r.lease (e0.base + (tidOffset c.tidC + w * x.p0.toNat)) w true true = .ok e →
      e.place (e0.base + (tidOffset c.tidC + w * x.p0.toNat)) = .phys pa attr →
      pathRefuses s (.phys pa attr) x.scope.toNat (decide (x.fld 94 92 ≤ 2)) ≠ none →
      ∃ t u, exec (.signal k x) s = .next t ∧ Ran s t k r u 2#2 ∧ OnlyRuns s t ∧ u = { r with cmds := u.cmds }) ∧
    ((∃ d ∈ r.cmds, d.id < c.id ∧ d.queue ≠ .sync ∧ d.queue ≠ .guest) → r.ending = none → exec (.arrivec k x) s = .next s) ∧
    (∀ pa attr, (∀ d ∈ r.cmds, d.id < c.id → d.queue = .sync ∨ d.queue = .guest) → r.ending = none →
      ReachableWord s r c row 40 false pa attr →
      ∃ t u, exec (.arrivec k x) s = .next t ∧ SentHome s t k r u pa attr true
        (.arrivec (if x.p1.getLsbD 24 then some (x.p1.extractLsb' 0 16) else none) (x.p1.extractLsb' 16 8) c.bad)) ∧
    (∀ pa attr, ReachableWord s r c row 40 false pa attr →
      ∃ t u, exec (.waitc k x) s = .next t ∧ SentHome s t k r u pa attr true (.waitc ((x.p1.extractLsb' 0 16).setWidth 64))) ∧
    (∀ tag,
      let site := x.fld 90 90
      let ws := c.words
      let waits : Prop := ∃ t u, exec (.gqpost k x) s = .next t ∧ t.run? k.task = some u ∧ OnlyRuns s t ∧
        u = { r with cmds := r.cmds.map fun d => if d.id = k.id then { d with phase := .waiting } else d }
      r.ending = none → ((s.guest site).present = false → waits) ∧
      ((s.guest site).present = true → (∀ e ∈ (s.guest site).tags, e.2.saved = false) → bits (tw ws 0) 31 0 ≠ 0 →
       ((∀ j, j < 256 → SMap.get? (s.guest site).tags j ≠ none) → waits) ∧
       (LowestFree (s.guest site) tag →
      ∃ t u words, exec (.gqpost k x) s = .next t ∧ t.run? k.task = some u ∧ u = { r with cmds := u.cmds } ∧
        u.cmds = (r.cmds.map fun d => if d.id = k.id then
          { d with step := 1, prom := some (s.cyc + bits (tw ws 0) 31 0), missed := false } else d) ∧
        t.out = s.out ++ [.guestPacket site words] ∧ SentWords ws words site tag s.cyc false ∧
        SMap.get? (t.guest site).tags tag = some ⟨.cmd k, words, none, none, false, false, [], 0, false⟩ ∧
        (∀ j, j ≠ tag → SMap.get? (t.guest site).tags j = SMap.get? (s.guest site).tags j) ∧
        t = { s with cc := t.cc, runs := t.runs, guests := t.guests, out := t.out } ∧ SameBytes s t)))

/-- R247: the home performs the operation of a SIGNAL command, which then completes. R148: CONTRIB_ACK completes the CONTRIB with
its status and writes the residual of an accepted one. R149 to R151: RING_PARTIAL waits for its CONTRIB in the hold of 64 of its I/O die's engine, or meets
it: this rank adds its elements, rounded, and forwards the sums, or, as the last rank, sends them to the destination; a partial of
a rank the group has not is dropped, and one that does not agree with the CONTRIB ends it with status 10. The model's readings (DEDUCED):
those two (log entry 58), that one CONTRIB_ACK ends a CONTRIB of any number of messages (log entry 82), and that a retraining link ends
the tasks whose contributions it carried (log entry 79). R374: PEER_INGRESS of a message the import table lets through is performed, or asked of the engine of the word's home;
another is answered as refused. R418, R374: LINK_RETRAIN and IMPORT_REFUSAL end the task of what is refused. R182: HOST_WRITE puts
bytes into memory. -/
def Obligations.MessagesOfOtherDevicesAndHostsAreServed : Prop :=
  ∀ s : State,
    (∀ (k : CmdRef) (r : Run) (z sa : Bool) (pa op : Nat) (v : W64) (sc : Nat) (rest : List HomeOp), s.run? k.task = some r →
      s.homes = ⟨homeDie pa, pa, z, sa, .sigop op v sc, .cmd k⟩ :: rest → (∀ y ∈ s.heldOps, y.pa ≠ pa) →
      s.badAt pa (wordLen z) = none → Unwatched s pa (wordLen z) → MemoryOk s →
      ∃ t u, exec .homeOperation s = .next t ∧ Ran s t k r u 0#2 ∧ u = { r with cmds := u.cmds } ∧ t.homes = rest ∧
        wordAt t z pa = signalValue op _ (wordAt s z pa) (v.setWidth _) ∧ SameBytesOutside pa (wordLen z) s t) ∧
    (∀ (k : CmdRef) (st : BitVec 2), s.contribs.find? (fun d => decide (d.k = k)) = none →
      exec (.contribAck k st) s = .next s) ∧
    (∀ (k : CmdRef) (st : BitVec 2) (q : Contrib) (r : Run) (c : Cmd), s.contribs.find? (fun d => decide (d.k = k)) = some q →
      s.run? k.task = some r → r.cmd? k.id = some c →
      (st ≠ 0#2 ∨ q.resid = [] → ∃ t u, exec (.contribAck k st) s = .next t ∧ Ran s t k r u st ∧ u = { r with cmds := u.cmds } ∧
        t = { s with cc := t.cc, runs := t.runs, work := t.work, contribs := s.contribs.filter fun d => !decide (d.k = k) } ∧
        SameBytes s t) ∧
      (∀ va v e pa, st = 0#2 → q.resid = [(va, v)] → covered r.lease va 4 .w = .ok e → FlatAt e va 4 pa → Unwatched s pa 4 →
        MemoryOk s → ∃ t u, exec (.contribAck k st) s = .next t ∧ Ran s t k r u 0#2 ∧ memW32 t.mem pa = v ∧
          SameBytesOutside pa 4 s t ∧ t.contribs = s.contribs.filter fun d => !decide (d.k = k))) ∧
    (∀ m : RingMsg,
      let grp := SMap.get 0#64 s.groups m.group.toNat
      let stray : Prop := bit grp 63 = true ∧ bits grp 47 36 < m.rank.toNat
      (stray → exec (partialOf m) s = .next s) ∧
      (¬ stray → (∀ q ∈ s.contribs, ¬ RingPair q m) →
        (64 ≤ (holdOf s m).length → ∃ t, exec (partialOf m) s = .next t ∧ t = { s with work := s.work ++ [partialOf m] }) ∧
        ((holdOf s m).length < 64 → ∃ t, exec (partialOf m) s = .next t ∧ t = { s with rings := s.rings ++ [m] })) ∧
      (∀ (q : Contrib) (r : Run) (c : Cmd), ¬ stray → s.contribs = [q] → RingPair q m → q.resid = [] →
        s.run? q.k.task = some r → r.cmd? q.k.id = some c →
        (¬ RingSame q m → ∃ t u, exec (partialOf m) s = .next t ∧ Ran s t q.k r u 2#2 ∧ u = { r with cmds := u.cmds } ∧
          t = { s with cc := t.cc, runs := t.runs, work := t.work, contribs := [] } ∧ SameBytes s t) ∧
        (RingSame q m → ∃ sums, RingSums q m sums ∧
          let m' : RingMsg := { m with vals := sums }
          let bs := sums.flatMap fun v => leBytes 4 v.toNat
          let whole (t : State) (out : List OutMsg) : Prop :=
            t = { s with cc := t.cc, runs := t.runs, work := t.work, contribs := [], ringDone := s.ringDone ++ [q.key],
                         out := s.out ++ out } ∧ SameBytes s t ∧ ∃ u, Ran s t q.k r u 0#2 ∧ u = { r with cmds := u.cmds }
          let part (t : State) (out : List OutMsg) : Prop :=
            t = { s with contribs := [{ q with sent := q.sent + m.vals.length }], out := s.out ++ out }
          let sends (out : List OutMsg) : Prop := ∃ t, exec (partialOf m) s = .next t ∧
            (q.q.length ≤ q.sent + m.vals.length → whole t out) ∧ (q.sent + m.vals.length < q.q.length → part t out)
          (bits grp 35 24 ≠ bits grp 47 36 →
            sends [.ring (bits grp 23 10) (ringHead 1 (bits grp 35 24) m') bs]) ∧
          (bits grp 35 24 = bits grp 47 36 → bits m.dest 63 50 ≠ s.dev.devno.toNat →
            sends [.ringResult (bits m.dest 63 50) q.win.key (ringHead 2 (bits grp 35 24) m') bs]) ∧
          (∀ pa, bits grp 35 24 = bits grp 47 36 → bits m.dest 63 50 = s.dev.devno.toNat →
            ImportLets s s.dev.devno.toNat (bits m.dest 49 42) (bits m.dest 41 0) bs.length false true false q.win.key pa →
            Unwatched s pa bs.length → MemoryOk s →
            ∃ t, exec (partialOf m) s = .next t ∧ BytesAt t pa bs ∧ SameBytesOutside pa bs.length s t ∧
              t.out = s.out)))) ∧
    (∀ m : PeerMsg,
      let need := peerNeed m.op
      let atomic : Bool := match m.op with | .read _ => false | .write _ => false | .merge _ _ => false | _ => true
      let lets (pa : Nat) : Prop := ImportLets s m.src m.win m.off need.1 need.2.1 need.2.2 (m.sys && atomic) m.key pa
      let refused : Prop := ∃ t z, exec (.peerIngress m) s = .next t ∧ OnlySends s t [.peerAnswer m.src m.tag z []] ∧ z ≠ 0
      let sc := if m.sys then 5 else 4
      let asks (pa : Nat) (z : Bool) (kind : HomeKind) : Prop := ∃ t, exec (.peerIngress m) s = .next t ∧
        t = { s with homes := s.homes ++ [⟨homeDie pa, pa, z, (readImport s m.win).sa, kind, .peer m.src m.tag⟩],
                     work := s.work ++ [.homeOperation] }
      (s.dev.linken = false ∨ s.dev.st ≠ 2 → exec (.peerIngress m) s = .next s) ∧
      (s.dev.linken = true → s.dev.st = 2 →
        ((∀ pa, ¬ lets pa) → refused) ∧
        (∀ pa, lets pa →
          (∀ n, m.op = .read n → s.badAt pa n = none → ∃ t, exec (.peerIngress m) s = .next t ∧
            OnlySends s t [.peerAnswer m.src m.tag 0 (memBytes s.mem pa n)]) ∧
          (∀ bs, m.op = .write bs → Unwatched s pa bs.length → MemoryOk s →
            ∃ t, exec (.peerIngress m) s = .next t ∧ StoredOnly s t ∧ BytesAt t pa bs ∧ SameBytesOutside pa bs.length s t) ∧
          (∀ op z v cmp, m.op = .atom op z v cmp → asks pa z (.atom op v cmp sc)) ∧
          (∀ n ctx v, m.op = .atomr n ctx v → asks pa true (.atomr n ctx v)) ∧
          (∀ op z v, m.op = .sig op z v → asks pa z (.sigop op v sc)) ∧
          (∀ ex off len, m.op = .binit false ex off len → asks pa true (.binit false ex sc 0 0)) ∧
          (∀ ex off len,
            let range (ra : Nat) : Prop := ImportLets s m.src m.win off len false true false m.key ra
            m.op = .binit true ex off len →
            (∀ ra, range ra → asks pa true (.binit true ex sc ra len)) ∧ ((∀ ra, ¬ range ra) → refused)) ∧
          (m.op = .binv → asks pa true .binv) ∧ (m.op = .arrive → asks pa true .arrive) ∧
          (∀ tok, m.op = .testph tok → asks pa true (.testph tok)) ∧ (∀ tok, m.op = .waitph tok → asks pa true (.waitph tok)) ∧
          (∀ cmp z mask v, m.op = .watch cmp z mask v → asks pa z (.watch cmp mask v)) ∧
          (∀ z, m.op = .futrd z → asks pa z .futrd) ∧ (∀ z v, m.op = .futwr z v → asks pa z (.futwr v)) ∧
          (∀ ph u f, m.op = .arrivec ph u f → asks pa true (.arrivec ph u f)) ∧
          (∀ tok, m.op = .waitc tok → asks pa true (.waitc tok)) ∧
          (∀ op ty mode sat fz v, m.op = .cred op ty mode sat fz v → asks pa false (.cred op ty mode sat fz v))))) ∧
    (∀ (h va : W64) (reason : RefusedAccess),
      (s.run? h = none → s.task? h = none → exec (.importRefusal h va reason) s = .next s) ∧
      (h = s.cc.task → EndsAlone s → ∃ t, exec (.importRefusal h va reason) s = .next t ∧ TaskGone s t h)) ∧
    (∀ port : Nat,
      let lost (q : Contrib) : Prop := bit (SMap.get 0#64 s.groups q.key.group.toNat) 62 = false ∧
        bits (SMap.get 0#64 s.groups q.key.group.toNat) 61 54 = port
      ((∀ q ∈ s.contribs, ¬ lost q) → exec (.linkRetrain port) s = .next s) ∧
      (∀ (q : Contrib) (c : Cmd), s.contribs = [q] → lost q → q.k = ⟨s.cc.task, c.id⟩ → opCmd c.word = 0x38 →
        c.queue = .coll → c.phase = .started → c.step = 1 → c.carrier = none → EndsAloneBut s c →
        ∃ t, exec (.linkRetrain port) s = .next t ∧ TaskGone s t s.cc.task ∧ t.contribs = [])) ∧
    (∀ (pa : Nat) (bs : List Byte),
      let inside : Prop := pa + bs.length ≤ hbmSize ∨ (farBase ≤ pa ∧ pa + bs.length ≤ farEnd)
      (bs = [] ∨ ¬ inside → exec (.hostWrite pa bs) s = .next s) ∧
      (bs ≠ [] → inside → Unwatched s pa bs.length → MemoryOk s →
        ∃ t, exec (.hostWrite pa bs) s = .next t ∧ StoredOnly s t ∧ BytesAt t pa bs ∧ SameBytesOutside pa bs.length s t))

/-- R311, R324: DOORBELL_WRITE moves WR within the ring, a bad index is the queue error, a lower one nothing. R313 to R315: PACKET_FETCH
and LAP_RETRY take the unit at RD whose lap mark is right, move RD, write RDPTR and start the packet; otherwise nothing moves. R319,
R322: a NOP ends; a LAUNCH makes a task that the packet runs as; a COPY moves its bytes; a BARRIER waits for its signals, 0 ending it
well and less in error; a SIGNAL sends a SIGOP; a GUEST packet goes to a site, or waits in its queue for one (R388). R320: a wrong
form, address or template ends the packet in error; so does a SIGNAL that its path refuses, whose page need not have SA (R354; DEDUCED,
log entry 66). The die and the free record of a LAUNCH are log entries 40 and 6 (DESIGN CHOICE), the lowest free tag of a GUEST packet and
the packet error of a BUDGET of 0 log entry 69 (DEDUCED). R321, R323: PACKET_COMPLETE removes it, signals, and aborts the queue when asked. -/
def Obligations.QueuesFetchAndRunPackets : Prop :=
  ∀ s : State,
    (∀ (n : Nat) (v : W64), SMap.get? s.queues n = none → exec (.doorbellWrite n v) s = .next s) ∧
    (∀ (n : Nat) (v : W64) (q : Queue), SMap.get? s.queues n = some q → s.dev.st = 2 → s.dev.mbcmd ≠ 0#64 → s.dev.mbidx ≠ 0#64 →
      (q.st = .error ∨ q.st = .disabled ∨ v.toNat < q.wr.toNat → exec (.doorbellWrite n v) s = .next s) ∧
      (q.st = .active ∨ q.st = .aborted → q.wr.toNat ≤ v.toNat →
        (v.toNat % 64 = 0 → v.toNat ≤ q.rd.toNat + 2 ^ q.log2n → ∃ t, exec (.doorbellWrite n v) s = .next t ∧
          QueueBecomes s t n { q with wr := v, stale := false } ∧ t = { s with queues := t.queues, work := s.work ++ [.packetFetch n] }) ∧
        (v.toNat % 64 ≠ 0 ∨ q.rd.toNat + 2 ^ q.log2n < v.toNat → s.mailRoom = false → s.mbox.events.length < 1024 →
          ∃ t, exec (.doorbellWrite n v) s = .next t ∧ QueueBecomes s t n { q with st := .error } ∧
            t = { s with queues := t.queues, mbox := t.mbox } ∧ EventWaits s t (mbEvent 0x80 n q.rd 0#64 0#64 0#64)))) ∧
    (∀ (n : Nat) (q : Queue) (e : Extent) (pa : Nat) (attr : BitVec 8), SMap.get? s.queues n = some q → q.pins[0]? = some e →
      e.place (q.base + q.rd.toNat % 2 ^ q.log2n) = .phys pa attr → e.grants (q.base + q.rd.toNat % 2 ^ q.log2n) 64 .r = true → badIn s e (q.base + q.rd.toNat % 2 ^ q.log2n) 64 = none →
      let ws := memWords s.mem pa 8
      let lap := q.rd.toNat / 2 ^ q.log2n % 65535 + 1
      let r : PktRef := ⟨n, q.rd.toNat⟩
      let still : Prop := ∀ y ∈ s.queues, startable s y.2 = none
      let onlyQueues (t : State) : Prop := t = { s with queues := t.queues }
      (still → q.wr.toNat ≤ q.rd.toNat ∨ q.stale = true → exec (.packetFetch n) s = .next s) ∧
      (still → q.wr.toNat ≤ q.rd.toNat → ∃ t, exec (.lapRetry n) s = .next t ∧ onlyQueues t ∧
        QueueBecomes s t n { q with stale := false }) ∧
      ∀ i ∈ [Instr.packetFetch n, .lapRetry n], i = .lapRetry n ∨ q.stale = false →
      (still → q.st = .active ∨ q.st = .aborted → q.rd.toNat < q.wr.toNat → bits (tw ws 0) 63 48 ≠ lap →
        ∃ t, exec i s = .next t ∧ onlyQueues t ∧ QueueBecomes s t n { q with stale := true }) ∧
      (∀ (e1 : Extent) (ra : Nat) (attr1 : BitVec 8) (j : Instr), s.queues = [(n, q)] → q.st = .active → q.packets = [] →
        0 < q.weight → q.rd.toNat < q.wr.toNat → bits (tw ws 0) 63 48 = lap → bits (tw ws 0) 37 32 = 0 → 64 ≤ 2 ^ q.log2n →
        (bits (tw ws 0) 47 44 = 0 ∧ j = .pktNop r) ∨ (bits (tw ws 0) 47 44 = 3 ∧ j = .pktBarrier r) ∨
          (bits (tw ws 0) 47 44 = 4 ∧ j = .pktSignal r) →
        q.pins[1]? = some e1 → e1.place q.rdptr = .phys ra attr1 → Unwatched s ra 8 → MemoryOk s →
        ∃ t, exec i s = .next t ∧
          t.queues = [(n, { q with
            rd := q.rd + 64#64
            stale := false
            packets := [⟨q.rd.toNat, ws, true, [], 0#64, none⟩]
            credit := 0 })] ∧
          memW64 t.mem ra = q.rd + 64#64 ∧ SameBytesOutside ra 8 s t ∧
          t = { s with queues := t.queues, mem := t.mem, err := { s.err with bad := t.err.bad }, hostHeld := t.hostHeld,
                       l1 := t.l1, work := s.work ++ [.packetFetch n, j] } ∧ CopiesFewer s t) ∧
      (s.queues = [(n, q)] → q.st = .active ∨ q.st = .aborted → q.rd.toNat < q.wr.toNat → bits (tw ws 0) 63 48 = lap →
        2 ^ q.log2n < 64 * (bits (tw ws 0) 37 32 + 1) → s.mailRoom = false → s.mbox.events.length < 1024 →
        ∃ t, exec i s = .next t ∧ t.queues = [(n, { q with st := .error, stale := false })] ∧ t = { s with queues := t.queues, mbox := t.mbox } ∧
          EventWaits s t (mbEvent 0x80 n q.rd 0#64 0#64 0#64))) ∧
    (∀ (r : PktRef) (q : Queue) (p : Packet), PacketAt s r q p → p.started = true → p.ended = none →
      let c := ctxEnt s q.ctx
      let fails (i : Instr) : Prop := ∃ t, exec i s = .next t ∧ PacketEnded s t r q false
      (p.formOk = false ∨ sigOk s q.ctx p = false →
        ∀ i ∈ [Instr.pktNop r, .pktLaunch r, .pktCopy r, .pktBarrier r, .pktSignal r, .pktGuest r], fails i) ∧
      (p.formOk = true → sigOk s q.ctx p = true →
        (∃ t, exec (.pktNop r) s = .next t ∧ PacketEnded s t r q true) ∧
        (launchTemplate s q p = none → s.err.bad = [] → fails (.pktLaunch r)) ∧
        (∀ ws, launchTemplate s q p = some (ws, s) → p.w 2 = 0#64 ∨ ctxBad s c (p.w 2).toNat 192 = none →
          (p.w 2 = 0#64 → ws = (p.words.drop 8).take 24) ∧
          (launchOk s q ws = false → fails (.pktLaunch r)) ∧
          (launchOk s q ws = true → freeRecord s (launchDie s p) 0 recordsPerDie = none →
            ∃ t, exec (.pktLaunch r) s = .next t ∧ Unstarted s t r q p) ∧
          (launchOk s q ws = true → ∀ j, freeRecord s (launchDie s p) 0 recordsPerDie = some j →
            let h := nextHandle s (launchDie s p) j
            ∃ t y, exec (.pktLaunch r) s = .next t ∧ TaskBecomes s t h y ∧ s.task? h = none ∧ y.parent = 0#64 ∧ y.ctx = q.ctx ∧
              y.prio = bits (tw ws 0) 60 58 ∧ y.count = bits (tw ws 0) 31 0 ∧ y.st = (if y.count = 0 then .ready else .waiting) ∧
              y.pc = tw ws 1 ∧ y.image = tw ws 2 ∧ y.decl = tw ws 3 ∧ y.crec = tw ws 7 ∧ ChildRegs ws (p.w 3) y ∧
              PacketBecomes s t r q (fun x => { x with task := h }) ∧
              t = { s with tasks := t.tasks, queues := t.queues, work := t.work })) ∧
        (let src := (p.w 2).toNat
         let dst := (p.w 3).toNat
         let n := (p.w 4).toNat
         let inScope : Prop := bits (p.w 5) 2 0 = 3 ∨ bits (p.w 5) 2 0 = 5
         (¬ inScope ∨ (∃ i, i < n ∧ ctxPlace s.mem c (dst / 8 * 8 + 8 * i) .w = none ∧ dst ≤ dst / 8 * 8 + 8 * i ∧
            dst / 8 * 8 + 8 * i < dst + n) → fails (.pktCopy r)) ∧
         ∀ qa pa, inScope → MappedFlat s c dst n qa → ReadFlat s c src n pa →
          src = dst ∨ src + n ≤ dst ∨ dst + n ≤ src → Unwatched s qa n → MemoryOk s →
          ∃ t u, exec (.pktCopy r) s = .next t ∧ PacketEnded u t r q true ∧ StoredOnly s u ∧ BytesAt t qa (memBytes s.mem pa n) ∧
            SameBytesOutside qa n s t) ∧
        (let slots := ((List.range 6).map fun i => (i, (p.w (i + 2)).toNat)).filter fun y => y.2 ≠ 0
         (slots = [] → ∃ t, exec (.pktBarrier r) s = .next t ∧ PacketEnded s t r q true) ∧
         ((∃ y ∈ slots, y.2 % 8 ≠ 0 ∨ ctxPlace s.mem c y.2 .r = none) → fails (.pktBarrier r)) ∧
         ∀ i a pa attr, slots = [(i, a)] → a % 8 = 0 → ctxPlace s.mem c a .r = some (.phys pa attr) →
            (∀ x ∈ q.packets, x.unit = p.unit → x = p) → s.badAt pa 8 = none →
            roomIn (homeDie pa) (s.entries (homeDie pa)) = true → (∀ o ∈ s.heldOps, o.pa ≠ pa) →
            let v := (memW64 s.mem pa).toInt
            (0 < v → ∃ t, exec (.pktBarrier r) s = .next t ∧ PacketBecomes s t r q (fun x => { x with slots := [(i, pa)] }) ∧
              t = { s with queues := t.queues, vigils := s.vigils ++ [⟨3, true, pa, BitVec.allOnes 64, 0#64, .packet r.q p.unit i⟩] }) ∧
            (v ≤ 0 → ∃ t, exec (.pktBarrier r) s = .next t ∧
              PacketBecomes s t r q (fun x => { x with slots := [], ended := some (decide (v = 0)) }) ∧
              t = { s with queues := t.queues, work := s.work ++ [.packetComplete r] })) ∧
        (let z := bit (p.w 3) 3
         let va := (p.w 2).toNat
         let op := bits (p.w 3) 2 0
         (5 ≤ op ∨ va % wordLen z ≠ 0 ∨ NoWord s c va → fails (.pktSignal r)) ∧
         ∀ pa attr, op < 5 → va % wordLen z = 0 → WordAt s c va pa attr →
            (pathRefuses s (.phys pa attr) 4 (decide (op ≤ 2)) ≠ none → fails (.pktSignal r)) ∧
            (pathRefuses s (.phys pa attr) 4 (decide (op ≤ 2)) = none → ∃ t, exec (.pktSignal r) s = .next t ∧
              t = { s with homes := s.homes ++ [⟨homeDie pa, pa, z, recalls pa attr, .sigop op (p.w 4) 5, .pkt r⟩],
                           work := s.work ++ [.homeOperation] })) ∧
        (let site := bits (p.w 2) 0 0
         let ws := (p.words.drop 8).take 8
         (s.dev.part.wired = false ∨ bits (tw ws 0) 31 0 = 0 → fails (.pktGuest r)) ∧
         (s.dev.part.wired = true → bits (tw ws 0) 31 0 ≠ 0 → (s.guest site).present = false ∨ guestSlotFree s site 0 = false ∨
            (∀ j, j < 256 → SMap.get? (s.guest site).tags j ≠ none) →
            ∃ t, exec (.pktGuest r) s = .next t ∧ Unstarted s t r q p) ∧
         ∀ tag, s.dev.part.wired = true → bits (tw ws 0) 31 0 ≠ 0 → (s.guest site).present = true → guestSlotFree s site 0 = true →
            LowestFree (s.guest site) tag →
            ∃ t u words, exec (.pktGuest r) s = .next t ∧ PacketEnded u t r q true ∧ SentWords ws words site tag s.cyc false ∧
              u = { s with guests := u.guests, out := s.out ++ [.guestPacket site words] } ∧
              SMap.get? (u.guest site).tags tag = some ⟨.pkt r, words, none, none, false, false, [], q.ctx, bit (p.w 0) 42⟩))) ∧
    (∀ (r : PktRef) (q : Queue) (p : Packet), PacketAt s r q p →
      (p.ended = none → exec (.packetComplete r) s = .next s) ∧
      (∀ ok, s.queues = [(r.q, q)] → q.packets = [p] → p.ended = some ok →
        let c := ctxEnt s q.ctx
        let st := if ok = false ∧ bit (p.w 0) 42 = true ∧ q.st = .active then QSt.aborted else q.st
        let sig := 8 * bits (p.w 1) 56 3
        let op : HomeKind := if ok then .sigop 2 1#64 5 else .sigop 0 (BitVec.allOnes 64) 5
        let gone (t : State) (homes : List HomeOp) (work : List Instr) : Prop :=
          exec (.packetComplete r) s = .next t ∧ SlotsGone s t r p ∧
          t = { s with queues := [(r.q, { q with st := st, packets := [] })], vigils := t.vigils, peers := t.peers,
                       heldOps := t.heldOps, homes := homes, work := work }
        (sig = 0 ∨ NoWord s c sig → ∃ t, gone t s.homes s.work) ∧
        (∀ pa attr, sig ≠ 0 → WordAt s c sig pa attr →
          ∃ t, gone t (s.homes ++ [⟨homeDie pa, pa, true, recalls pa attr, op, .none⟩]) (s.work ++ [.homeOperation]))))

/-- R327: MBCDB_WRITE and MBRDB_WRITE move the counts of written commands and read responses when they are in range. R328: each command
is consumed and answered with its code, sequence number, argument and status, 0 when done, 1 when refused, 2 when unknown: REGQ, UNREGQ,
RESETQ and SETW act on a queue, PAGEIN lets walks go on (R367), RECALL answers once nothing of the range is held and preempts until then
(R368), ENDTASK ends a task (R395), LOADRTN and GROUPSET load a routine and a group, READALM answers an entry (R275), POWER sets the
limit, ATTEST writes the report, signed with the identity key (R451). R417: CERR posts the count of corrected errors. The model's own: LOADRTN
takes up to 16 words, to a word of 0, through the context's tables (DEDUCED, log entry 12), the index of READALM and that ATTEST
takes addresses of host memory (DEDUCED, log entry 94), that CERR posts once 2^30 cycles have passed without a new error too (DESIGN
CHOICE, log entry 95), and the SHA-512 and Ed25519 of their standards (PRESUMED, log entry 115). -/
def Obligations.MailboxCommandsAnswerAndAct : Prop :=
  ∀ s : State,
    (∀ v : W64, s.bellsOn = false ∨ v.toNat < s.mbox.written ∨ s.mbox.consumed + 256 < v.toNat → exec (.mbcdbWrite v) s = .next s) ∧
    (∀ v : W64, s.bellsOn = true → s.mbox.written ≤ v.toNat → v.toNat ≤ s.mbox.consumed + 256 →
      ∃ t, exec (.mbcdbWrite v) s = .next t ∧ t = { s with mbox := { s.mbox with written := v.toNat }, work := t.work } ∧
        (s.mailRoom = true → s.mbox.consumed < v.toNat → t.work = s.work ++ [mailInstr (mbOp (mailEntry s))]) ∧
        (s.mailRoom = false ∨ v.toNat ≤ s.mbox.consumed → t.work = s.work)) ∧
    (∀ v : W64, s.bellsOn = false ∨ v.toNat < s.mbox.respRead ∨ s.mbox.resp < v.toNat → exec (.mbrdbWrite v) s = .next s) ∧
    (∀ v : W64, s.bellsOn = true → s.mbox.respRead ≤ v.toNat → v.toNat ≤ s.mbox.resp → s.mbox.events = [] →
      ∃ t, exec (.mbrdbWrite v) s = .next t ∧ t = { s with mbox := { s.mbox with respRead := v.toNat }, work := t.work } ∧
        (s.mailUp = true → s.mbox.resp < v.toNat + 256 → s.mbox.consumed < s.mbox.written →
          t.work = s.work ++ [mailInstr (mbOp (mailEntry s))])) ∧
    (s.mailRoom = false ∨ s.mbox.written ≤ s.mbox.consumed →
      ∀ i ∈ [Instr.regq, .unregq, .resetq, .setw, .pagein, .recall, .endtask, .loadrtn, .groupset, .readalm, .power, .attest,
        .unknownCommand], exec i s = .next s) ∧
    (∀ m : MbCmd,
      let arg := bits m.w0 31 0
      let one : Option Queue := SMap.get? s.queues arg
      let no (i : Instr) : Prop := ∃ t, exec i s = .next t ∧ Replies s t m 1
      (MailAt s .regq m →
        (131072 ≤ arg ∨ one ≠ none ∨ readQueue s m = none → no .regq) ∧
        (∀ q, arg < 131072 → one = none → readQueue s m = some q → ∃ t u, exec .regq s = .next t ∧ QueueBecomes s u arg q ∧
          u = { s with queues := u.queues } ∧ Replies u t m 0 ∧ q.base = bits m.w1 56 0 ∧ q.log2n = bits m.w2 61 57 ∧
          q.ctx = bits m.w2 56 45 ∧ q.weight = bits m.w2 44 37 ∧ q.guest = bits m.w2 36 35 ∧ q.rdptr = bits m.w3 56 0 ∧
          q.st = .active ∧ q.rd = 0#64 ∧ q.wr = 0#64 ∧ q.packets = [] ∧ 10 ≤ q.log2n ∧ q.log2n ≤ 24 ∧ q.base % 2 ^ q.log2n = 0)) ∧
      (MailAt s .unregq m →
        (one = none ∨ (∃ q p, one = some q ∧ p ∈ q.packets ∧ p.started = true) → no .unregq) ∧
        (∀ q, one = some q → (∀ p ∈ q.packets, p.started = false) → SMap.risesFrom 0 s.queues = true →
          ∃ t u, exec .unregq s = .next t ∧ u = { s with queues := u.queues, guests := u.guests } ∧ AbortsForgotten s u arg ∧
            Replies u t m 0 ∧ SMap.get? u.queues arg = none ∧ ∀ j, j ≠ arg → SMap.get? u.queues j = SMap.get? s.queues j)) ∧
      (MailAt s .resetq m →
        (one = none ∨ (∃ q p, one = some q ∧ p ∈ q.packets ∧ p.started = true) → no .resetq) ∧
        (∀ q, one = some q → (∀ p ∈ q.packets, p.started = false) →
          ∃ t u, exec .resetq s = .next t ∧ u = { s with queues := u.queues, guests := u.guests } ∧ AbortsForgotten s u arg ∧
            Replies u t m 0 ∧
            QueueBecomes s u arg { q with st := .active, rd := m.w1, wr := m.w1, credit := 0, stale := false, packets := [] })) ∧
      (MailAt s .setw m →
        (one = none ∨ bits m.w1 7 0 = 0 → no .setw) ∧
        (∀ q, one = some q → bits m.w1 7 0 ≠ 0 → ∃ t u, exec .setw s = .next t ∧ u = { s with queues := u.queues } ∧ Replies u t m 0 ∧
          QueueBecomes s u arg { q with weight := bits m.w1 7 0 })) ∧
      (MailAt s .pagein m → ∃ t u, exec .pagein s = .next t ∧ Replies u t m 0 ∧
        u = { s with tasks := u.tasks, work := s.work ++ [.leaseWalk] } ∧
        ∀ k, SMap.get? u.tasks k = (SMap.get? s.tasks k).map fun x =>
          match x.walk.part with
          | some (_, a) =>
            if x.st = .leasing ∧ x.ctx = arg ∧ m.w1.toNat / 4096 * 4096 ≤ a ∧ a < m.w1.toNat / 4096 * 4096 + 4096 * m.w2.toNat
            then { x with walk := { x.walk with waits := false } } else x
          | none => x) ∧
      (MailAt s .recall m → (∀ e ∈ s.tasks, e.2.ctx ≠ arg) → (∀ g ∈ s.guests, ∀ e ∈ g.2.tags, e.2.inval = none ∧ e.2.hosted = false) →
        let va := m.w1.toNat / 4096 * 4096
        let n := 4096 * m.w2.toNat
        ((∀ r ∈ s.allRuns, r.ctx = arg → leaseMeets r.lease va n = false) → ∃ t u, exec .recall s = .next t ∧ Replies u t m 0 ∧
          u = { s with mbox := { s.mbox with taking := none }, work := s.work ++ [.leaseWalk] }) ∧
        (s.runs = [] → s.cc.task ≠ 0#64 → s.cc.ctx = arg → leaseMeets s.cc.lease va n = true → s.cc.preempt = false →
          s.cc.ending = none → s.cc.region.running = false → s.guests = [] → ∃ t, exec .recall s = .next t ∧
          t = { s with cc := { s.cc with preempt := true }, mbox := { s.mbox with taking := some (arg, va, n) },
                       work := s.work ++ [.preemption s.cc.task, .recall] })) ∧
      (MailAt s .endtask m →
        (s.task? m.w1 = none ∨ arg ≠ bits m.w1 31 0 → no .endtask) ∧
        (arg = bits m.w1 31 0 →
          ((m.w1 = s.cc.task ∧ EndsAlone s) ∨ (s.run? m.w1 = none ∧ SMap.risesFrom 0 s.tasks = true ∧ s.queues = [] ∧
            (∀ e ∈ s.tasks, e.2.arms = []) ∧ ∃ x, s.task? m.w1 = some x ∧ x.crec = 0#64 ∧ x.parent = 0#64 ∧ SaveSilent x)) →
          ∃ t u, exec .endtask s = .next t ∧ TaskGone s u m.w1 ∧ u.dev = s.dev ∧ u.mbox = s.mbox ∧ Replies u t m 0)) ∧
      (MailAt s .loadrtn m → SMap.risesFrom 0 s.routines = true →
        (4096 ≤ arg → no .loadrtn) ∧
        (∀ pa, arg < 4096 → ReadFlat s (ctxEnt s arg) m.w2.toNat 64 pa →
          let code := ((List.range 16).map fun i => memW32 s.mem (pa + 4 * i)).takeWhile (· != 0#32)
          ((∃ i, ∃ h : i < code.length, rvOk code[i] i code.length = false) → no .loadrtn) ∧
          ((∀ i, ∀ h : i < code.length, rvOk code[i] i code.length = true) → ∃ t u, exec .loadrtn s = .next t ∧ Replies u t m 0 ∧
            u = { s with routines := u.routines } ∧ SMap.get [] u.routines (64 * arg + bits m.w1 5 0) = code ∧
            ∀ j, j ≠ 64 * arg + bits m.w1 5 0 → SMap.get [] u.routines j = SMap.get [] s.routines j))) ∧
      (MailAt s .groupset m → SMap.risesFrom 0 s.groups = true →
        (256 ≤ arg → no .groupset) ∧
        (arg < 256 → ∃ t u, exec .groupset s = .next t ∧ Replies u t m 0 ∧ u = { s with groups := u.groups } ∧
          SMap.get 0#64 u.groups arg = m.w1 &&& 0xFFC0FFFFFFFFFC00#64 ∧ ∀ j, j ≠ arg → SMap.get 0#64 u.groups j = SMap.get 0#64 s.groups j)) ∧
      (MailAt s .readalm m →
        let here := s.alm.filter fun e => e.almanacs.contains arg
        (4 < arg → no .readalm) ∧
        (arg ≤ 4 → here.length ≤ m.w1.toNat → ∃ t, exec .readalm s = .next t ∧ Replies s t m 0) ∧
        (∀ e, arg ≤ 4 → here[m.w1.toNat]? = some e → ∃ t ws, exec .readalm s = .next t ∧ ws = almWords arg e ∧
          Responds s t m 0 (tw ws 0) (tw ws 1) (tw ws 2) (tw ws 3))) ∧
      (MailAt s .power m →
        (m.w1.toNat < 1800 ∨ 3400 < m.w1.toNat → no .power) ∧
        (1800 ≤ m.w1.toNat → m.w1.toNat ≤ 3400 → ∃ t u, exec .power s = .next t ∧ Replies u t m 0 ∧
          u = { s with dev := { s.dev with watts := m.w1.toNat } })) ∧
      (MailAt s .attest m →
        let a := farBase + m.w1.toNat
        (farEnd ≤ a + 383 → no .attest) ∧
        (a + 383 < farEnd → Unwatched s (a + 64) 320 → ∃ t u body, exec .attest s = .next t ∧ Replies u t m 0 ∧ StoredOnly s u ∧
          SameBytesOutside (a + 64) 320 s u ∧
          BytesAt u (a + 64) (body ++ leBytes 64 (edSign (Config.identityKey s.dev.secret) (leBytes 64 (sha512 body).toNat)).toNat) ∧
          body = memBytes s.mem a 32 ++ leBytes 64 s.dev.fwDigest.toNat ++
            (if (s.guest 0).present then leBytes 64 s.dev.gsDigest[0].toNat else List.replicate 64 0#8) ++
            (if (s.guest 1).present then leBytes 64 s.dev.gsDigest[1].toNat else List.replicate 64 0#8) ++
            leBytes 8 (s.dev.st * 2 ^ 60 + s.dev.gsp * 2 ^ 48 + s.dev.enfc.toNat) ++ List.replicate 24 0#8)) ∧
      (MailAt s .unknownCommand m → ∃ t, exec .unknownCommand s = .next t ∧ Replies s t m 2)) ∧
    (s.err.corr < 64 → s.cyc < s.err.last + 2 ^ 30 → exec .cerr s = .next s) ∧
    (64 ≤ s.err.corr ∨ s.err.last + 2 ^ 30 ≤ s.cyc → s.mailRoom = false → s.mbox.events.length < 1024 →
      ∃ t, exec .cerr s = .next t ∧ t = { s with err := { s.err with corr := 0, last := s.cyc }, mbox := t.mbox } ∧
        EventWaits s t (mbEvent 0x83 0 (keepN s.err.corr) 0#64 0#64 0#64))

/-- R383, R384: GUEST_ACCESS under a live tag reads or writes through the task's lease where GV = 1, or its save area; a refused one is
answered as an error, and the task that posted the tag takes the lease fault of it, with a window or without one; reason 1 for what
is not a breach of the lease itself (DEDUCED, log entry 68). R381: GUEST_COMPLETION completes the command and frees the tag; R385:
GUEST_FAULT_MESSAGE ends the task. R387: an answer to a preempt request is a completion, a fault, or saved work that waits for the next
dispatch. R384: INVALIDATION_ACK gives a freed tag back. R384, R387: a missed deadline resets the site, ends the tasks whose work it
held and posts 0x84. R389, R450: an image whose key has the fused hash and whose signature verifies over its digest makes an absent
site present; another posts 0x85. That a tag is a command's or a host packet's, and the lowest free one, is log entry 69 (DEDUCED). -/
def Obligations.GuestSitesCompleteFaultSaveAndReset : Prop :=
  ∀ (s : State) (site tag : Nat) (g : GTag),
    (∀ a : GuestAcc, a.site = site → a.tag = tag →
      let n := a.size
      let va := a.va.toNat
      let inLine : Prop := 0 < n ∧ va % 128 + n ≤ 128
      ((∀ y, SMap.get? (s.guest site).tags tag = some y → y.owner = .none ∧ (y.inval = none ∨ a.save = true)) →
        ∃ t, exec (.guestAccess a) s = .next t ∧ OnlyAnswers s t (.guestAnswer site tag false [])) ∧
      (a.save = true → (s.guest site).present = false ∨ (∃ p, g.owner = .pkt p ∧ SMap.get? (s.guest site).tags tag = some g ∧
        (g.saved = true ∨ ¬ SavesTag a)) →
        ∃ t, exec (.guestAccess a) s = .next t ∧ OnlyAnswers s t (.guestAnswer site tag false [])) ∧
      (∀ own bs, LiveTag s site tag g own → a.save = true → a.right = .write bs → bs.length = n → inLine → saveArea site tag ≤ va →
        va + n ≤ saveArea site tag + 65536 → (∀ c, g.inval = some c → s.cyc ≤ c + 6000) → Unwatched s va n → MemoryOk s →
        ∃ t, exec (.guestAccess a) s = .next t ∧ BytesAt t va bs ∧ SameBytesOutside va n s t ∧
          StoresAndAnswers s t (.guestAnswer site tag true [])) ∧
      (∀ k r e pa attr right, LiveTag s site tag g (.cmd k) → a.save = false → g.inval = none → (a.stale = false ∨ g.acked = false) →
        s.run? k.task = some r → inLine → covered r.lease va n right = .ok e → e.gvOk va n = true → e.place va = .phys pa attr →
        (a.right = .read → right = .r → s.badAt pa n = none → ∃ t, exec (.guestAccess a) s = .next t ∧
          OnlyAnswers s t (.guestAnswer site tag true (memBytes s.mem pa n))) ∧
        (∀ bs, a.right = .write bs → right = .w → bs.length = n → Unwatched s pa n → MemoryOk s →
          ∃ t, exec (.guestAccess a) s = .next t ∧ BytesAt t pa bs ∧ SameBytesOutside pa n s t ∧
            StoresAndAnswers s t (.guestAnswer site tag true []))) ∧
      (∀ k z, SMap.get? (s.guest site).tags tag = some g → (s.guest site).present = true → g.owner = .cmd k →
        (a.save = true ∧ (g.saved = true ∨ ¬ SavesTag a) ∧ z = 1) ∨
        (a.save = false ∧ g.inval = none ∧ (g.saved = true ∨ (a.stale = true ∧ g.acked = true) ∨ ¬ inLine) ∧ z = 1) ∨
        (a.save = false ∧ g.inval = none ∧ g.saved = false ∧ (a.stale = false ∨ g.acked = false) ∧ inLine ∧ ∃ r right,
          s.run? k.task = some r ∧ ((a.right = .read ∧ right = .r) ∨ ∃ bs, a.right = .write bs ∧ bs.length = n ∧ right = .w) ∧
          (covered r.lease va n right = .error z ∨ ∃ e, covered r.lease va n right = .ok e ∧ e.gvOk va n = false ∧ z = 2)) →
        (∀ r c, s.run? k.task = some r → r.ending = none → r.cmds = [c] → opCmd c.word = 0x48 → c.queue = .guest →
          c.phase = .started → c.carrier = none → AloneOnCore s r →
          ∃ t u rec_, exec (.guestAccess a) s = .next t ∧ t.run? k.task = some u ∧ u.cmds = [c] ∧
            u.ending = some (.fault (causeWord 0x21 z 0) rec_) ∧ .guestAnswer site tag false [] ∈ t.out ∧ SameBytes s t) ∧
        (s.run? k.task = none → SMap.risesFrom 0 s.tasks = true → s.queues = [] → (∀ e ∈ s.tasks, e.2.arms = []) →
          (∃ x, s.task? k.task = some x ∧ x.crec = 0#64 ∧ x.parent = 0#64 ∧ SaveSilent x) →
          ∃ t, exec (.guestAccess a) s = .next t ∧ TaskGone s t k.task ∧ .guestAnswer site tag false [] ∈ t.out))) ∧
    ((∀ y own, ¬ LiveTag s site tag y own) →
      ∀ i ∈ [Instr.guestCompletion site tag, .guestFaultMessage site tag, .guestPreemptAnswer site tag .saved], exec i s = .next s) ∧
    (∀ k r, LiveTag s site tag g (.cmd k) → s.run? k.task = some r → ∃ t u, exec (.guestCompletion site tag) s = .next t ∧
      Ran s t k r u 0#2 ∧ u = { r with cmds := u.cmds } ∧ TagFreed s t site tag g ∧ SameBytes s t ∧
      t = { s with cc := t.cc, runs := t.runs, work := t.work, guests := t.guests, out := s.out ++ [.guestInval site tag] }) ∧
    (∀ c : Cmd, LiveTag s site tag g (.cmd ⟨s.cc.task, c.id⟩) → c.args.fs = false → EndsAloneBut s c →
      ∃ t, exec (.guestFaultMessage site tag) s = .next t ∧ TaskGone s t s.cc.task ∧ .guestInval site tag ∈ t.out) ∧
    (SMap.get? (s.guest site).tags tag = some g →
      (g.inval = none → exec (.invalidationAck site tag) s = .next s) ∧
      (g.inval ≠ none → g.owner = .none → SMap.risesFrom 0 (s.guest site).tags = true →
        ∃ t l, exec (.invalidationAck site tag) s = .next t ∧ t = { s with guests := t.guests, work := s.work ++ l } ∧
          SMap.get? (t.guest site).tags tag = none ∧
          ∀ j, j ≠ tag → SMap.get? (t.guest site).tags j = SMap.get? (s.guest site).tags j) ∧
      (g.inval ≠ none → g.owner ≠ .none → ∃ t l, exec (.invalidationAck site tag) s = .next t ∧
        t = { s with guests := t.guests, work := s.work ++ l } ∧
        SMap.get? (t.guest site).tags tag = some { g with inval := none, acked := true, oldLease := [] })) ∧
    (∀ own, LiveTag s site tag g own →
      (g.preempt = none → ∀ ans, exec (.guestPreemptAnswer site tag ans) s = .next s) ∧
      (g.preempt ≠ none →
        exec (.guestPreemptAnswer site tag .completed) s = exec (.guestCompletion site tag) s ∧
        exec (.guestPreemptAnswer site tag .fault) s = exec (.guestFaultMessage site tag) s ∧
        ∀ k r d, own = .cmd k → s.run? k.task = some r → r.ending = some .preempt → d ∈ r.cmds → d.id ≠ k.id → d.phase = .done →
          AloneOnCore s r →
          ∃ t u, exec (.guestPreemptAnswer site tag .saved) s = .next t ∧ t.run? k.task = some u ∧ u = { r with cmds := u.cmds } ∧
            u.cmds = (r.cmds.map fun y => if y.id = k.id then { y with phase := .waiting, step := 0, prom := none } else y) ∧
            SMap.get? (t.guest site).tags tag = some { g with preempt := none, saved := true } ∧
            t = { s with cc := t.cc, runs := t.runs, guests := t.guests } ∧ SameBytes s t)) ∧
    (∀ i : BootImage,
      let mine := sha512 (leBytes 32 i.key.toNat) = s.dev.gsHash
      let ok := mine ∧ edVerifies i.key i.sig (leBytes 64 (sha512 i.body).toNat) = true
      (s.dev.part.wired = false ∨ 2 ≤ site ∨ (s.guest site).present = true ∨ s.dev.st ≠ 2 →
        exec (.guestReauthentication site i) s = .next s) ∧
      (s.dev.part.wired = true → site < 2 → (s.guest site).present = false → s.dev.st = 2 →
        ∃ t, exec (.guestReauthentication site i) s = .next t ∧ ((t.guest site).present = true ↔ ok) ∧
          (t.guest site).tags = (s.guest site).tags ∧ (∀ j, j ≠ site → t.guest j = s.guest j) ∧
          (ok → ∃ l, t = { s with guests := t.guests, dev := t.dev, work := s.work ++ l } ∧
            t.dev = { s.dev with gsp := s.dev.gsp ||| 2 ^ site, gsDigest := t.dev.gsDigest } ∧
            t.dev.gsDigest[site]? = some (sha512 i.body) ∧ ∀ j, j ≠ site → t.dev.gsDigest[j]? = s.dev.gsDigest[j]?) ∧
          (mine → ¬ ok → EventWaits s t (mbEvent 0x85 site 1#64 0#64 0#64 0#64)) ∧
          (¬ mine → EventWaits s t (mbEvent 0x85 site 0#64 0#64 0#64 0#64)))) ∧
    ((∀ e ∈ s.guests, ∀ y ∈ e.2.tags, ∀ c, y.2.inval = some c → s.cyc ≤ c + 6000) → exec .invalidationDeadline s = .next s) ∧
    ((∀ e ∈ s.guests, ∀ y ∈ e.2.tags, ∀ c, y.2.preempt = some c → s.cyc ≤ c + 150000) → exec .preemptDeadline s = .next s) ∧
    (∀ (i : Instr) (p : Bool), s.guests = [(site, ⟨p, [(tag, g)]⟩)] → s.mailRoom = false → s.mbox.events.length < 1024 →
      (i = .invalidationDeadline ∧ ∃ c, g.inval = some c ∧ c + 6000 < s.cyc) ∨
        (i = .preemptDeadline ∧ ∃ c, g.preempt = some c ∧ c + 150000 < s.cyc) →
      (g.owner = .none → ∃ t, exec i s = .next t ∧ t.guest site = ⟨false, []⟩ ∧ t = { s with guests := t.guests, dev := t.dev, mbox := t.mbox } ∧
        EventWaits s t (mbEvent 0x84 site 0#64 0#64 0#64 0#64)) ∧
      (∀ c : Cmd, g.owner = .cmd ⟨s.cc.task, c.id⟩ → c.args.fs = false → EndsAloneBut s c →
        let b (j : Nat) : W64 := if tag / 64 = j then keepN (2 ^ (tag % 64)) else 0#64
        ∃ t, exec i s = .next t ∧ t.guest site = ⟨false, []⟩ ∧ TaskGone s t s.cc.task ∧
          EventWaits s t (mbEvent 0x84 site (b 0) (b 1) (b 2) (b 3))))

/-- R450: an image is authentic for a fused hash: its key has that SHA-512 digest, and its signature verifies over the digest of
its body. -/
def Authentic (hash : BitVec 512) (i : BootImage) : Prop :=
  sha512 (leBytes 32 i.key.toNat) = hash ∧ edVerifies i.key i.sig (leBytes 64 (sha512 i.body).toNat) = true

/-- R448, R449: POWER_GOOD puts everything in reset: no context, task, queue, window or barrier is left, and STATE becomes 1; the next
step ends bring-up: HBM reads 0 without an uncorrectable sector and host memory is as it was; with an authentic firmware STATE becomes
2 and each wired guest whose image is authentic is present, otherwise STATE is 3. LINKEN is set once and never cleared, RETRY at STATE
3 authenticates again, DEVNO is fixed once LINKEN is set. R447: a throttle starts the lowering; each 1,024 slots lower the tile cap by
16, to no less than 0, while a die is hot, and raise it by 16 after, to the value of R446; a trip sets STATE 4. The model's own: that
host memory outlives power-good, as host memory outside the package (DESIGN CHOICE, log entry 5), what of the device's fuses it keeps
(DESIGN CHOICE, log entry 17), and that the first adjustment comes 1,024 slots after the throttle (DESIGN CHOICE, log entry 95). -/
def Obligations.BringUpLinksAndTemperature : Prop :=
  ∀ s : State,
    (∀ b : BringUp, ∃ t, exec (.powerGood b) s = .next t ∧ t.dev.st = 1 ∧ t.dev.flash = b ∧ t.cyc = 0 ∧ t.cc = Run.reset ∧ t.runs = [] ∧
      t.tasks = [] ∧ t.alm = [] ∧
      t.queues = [] ∧ t.bars = [] ∧ t.vigils = [] ∧ t.homes = [] ∧ t.routines = [] ∧ t.groups = [] ∧ t.ctxs = [] ∧
      (∀ a, memByte t.mem a = if farBase ≤ a ∧ a < farEnd then memByte s.mem a else 0#8) ∧
      t.dev.linken = false ∧ t.dev.watts = 3400 ∧ t.dev.thermCut = 0 ∧
      t.dev.part = s.dev.part ∧ t.dev.enfc = s.dev.enfc ∧ t.dev.fused = s.dev.fused ∧ t.dev.imptab = s.dev.imptab ∧
      t.dev.fwHash = s.dev.fwHash ∧ t.dev.gsHash = s.dev.gsHash ∧ t.dev.secret = s.dev.secret ∧ t.guests = [] ∧ t.err.bad = []) ∧
    (s.dev.st = 1 → ∃ t, step s = .next t ∧ t.cc = s.cc ∧ t.runs = s.runs ∧ t.cyc = s.cyc ∧ t.inputs = s.inputs ∧
      (t.dev.st = 2 ↔ Authentic s.dev.fwHash s.dev.flash.firmware) ∧
      (¬ Authentic s.dev.fwHash s.dev.flash.firmware → t = { s with dev := { s.dev with st := 3 } }) ∧
      (Authentic s.dev.fwHash s.dev.flash.firmware →
        (∀ a, a < farBase ∨ farEnd ≤ a → memByte t.mem a = 0#8 ∧ ∀ z ∈ t.err.bad, z ≠ a) ∧
        (∀ a, farBase ≤ a → a < farEnd → memByte t.mem a = memByte s.mem a) ∧
        t.dev.cxl = s.dev.flash.cxl ∧ t.dev.fwDigest = sha512 s.dev.flash.firmware.body ∧
        (s.dev.part.wired = true → ((t.guest 0).present = true ↔ Authentic s.dev.gsHash s.dev.flash.guest0) ∧
          ((t.guest 1).present = true ↔ Authentic s.dev.gsHash s.dev.flash.guest1)) ∧
        (s.dev.part.wired = false → t.guests = s.guests))) ∧
    (∀ (v : Bool) (b : BringUp),
      (v = false ∨ s.dev.st ≠ 3 → ∃ t, exec (.retryWrite v b) s = .next t ∧ t = { s with dev := { s.dev with retry := v } }) ∧
      (v = true → s.dev.st = 3 → ∃ t, exec (.retryWrite v b) s = .next t ∧
        t = { s with dev := { s.dev with retry := true, st := 1, flash := b } })) ∧
    (∀ v : Bool,
      (v = false ∨ s.dev.linken = true → exec (.linkenWrite v) s = .next s) ∧
      (v = true → s.dev.linken = false → s.mbox.events = [] → ∃ t l, exec (.linkenWrite v) s = .next t ∧
        t = { s with dev := { s.dev with linken := true }, work := s.work ++ l }) ∧
      (∀ m, v = true → s.dev.linken = false → s.mbox.events = [m] → s.dev.st = 2 → s.dev.mbcmd ≠ 0#64 → s.dev.mbidx ≠ 0#64 →
        s.mbox.resp < s.mbox.respRead + 256 → ∃ t, exec (.linkenWrite v) s = .next t ∧ t.dev = { s.dev with linken := true } ∧
          t.mbox = { s.mbox with events := [], dropped := 0, resp := s.mbox.resp + 1 })) ∧
    (∀ v : BitVec 14, ∃ t, exec (.devinfoWrite (.devno v)) s = .next t ∧
      t = { s with dev := { s.dev with devno := if s.dev.linken then s.dev.devno else v } }) ∧
    (∀ v : W64, (∃ t, exec (.devinfoWrite (.mbcmd v)) s = .next t ∧ t = { s with dev := { s.dev with mbcmd := v } }) ∧
      (∃ t, exec (.devinfoWrite (.mbrsp v)) s = .next t ∧ t = { s with dev := { s.dev with mbrsp := v } }) ∧
      (∃ t, exec (.devinfoWrite (.mbidx v)) s = .next t ∧ t = { s with dev := { s.dev with mbidx := v } })) ∧
    (let n := (s.cyc / 64 - s.dev.hotSlot) / 1024
     let top := min 192 ((s.dev.watts - 1700) * 192 / 1700)
     let cut := if n = 0 then s.dev.thermCut
       else if s.dev.hot then min top (s.dev.thermCut + 16 * n) else min top s.dev.thermCut - 16 * n
     (s.dev.hot = false → s.dev.thermCut = 0 → ∃ t, exec .thermalThrottle s = .next t ∧
       t = { s with dev := { s.dev with hot := true, hotSlot := s.cyc / 64 } }) ∧
     (s.dev.hot = true ∨ s.dev.thermCut ≠ 0 → ∃ t, exec .thermalThrottle s = .next t ∧
       t = { s with dev := { s.dev with hot := true, thermCut := cut, hotSlot := s.dev.hotSlot + 1024 * n } }) ∧
     (∀ cool : Bool, ∃ t, exec (.thermalStep cool) s = .next t ∧
       t = { s with dev := { s.dev with hot := s.dev.hot && !cool, thermCut := cut, hotSlot := s.dev.hotSlot + 1024 * n } })) ∧
    (∃ t, exec .thermalTrip s = .next t ∧ t = { s with dev := { s.dev with st := 4 } })
end

