-- ==== Sys2Proof/Laws/Encoding.lean ====
section
/-! SUPPORT. The fields of a word read back as they were put in, format by format (R30, R41, R47). -/

namespace Sys2Proof

/-! ## wordR -/

@[simp] theorem opF_wordR (op : BitVec 6) (d a b : Reg) (ta tb : Bool) (fn : BitVec 9) : opF (wordR op d a b ta tb fn) = op := by
  unfold opF wordR
  ext i hi
  simp only [BitVec.getElem_extractLsb', BitVec.getLsbD_append]
  grind

@[simp] theorem dF_wordR (op : BitVec 6) (d a b : Reg) (ta tb : Bool) (fn : BitVec 9) : dF (wordR op d a b ta tb fn) = d := by
  unfold dF wordR
  ext i hi
  simp only [BitVec.getElem_extractLsb', BitVec.getLsbD_append]
  grind

@[simp] theorem aF_wordR (op : BitVec 6) (d a b : Reg) (ta tb : Bool) (fn : BitVec 9) : aF (wordR op d a b ta tb fn) = a := by
  unfold aF wordR
  ext i hi
  simp only [BitVec.getElem_extractLsb', BitVec.getLsbD_append]
  grind

@[simp] theorem bF_wordR (op : BitVec 6) (d a b : Reg) (ta tb : Bool) (fn : BitVec 9) : bF (wordR op d a b ta tb fn) = b := by
  unfold bF wordR
  ext i hi
  simp only [BitVec.getElem_extractLsb', BitVec.getLsbD_append]
  grind

@[simp] theorem taR_wordR (op : BitVec 6) (d a b : Reg) (ta tb : Bool) (fn : BitVec 9) : taR (wordR op d a b ta tb fn) = ta := by
  unfold taR wordR bit1
  simp only [BitVec.getLsbD_append]
  simp

@[simp] theorem tbR_wordR (op : BitVec 6) (d a b : Reg) (ta tb : Bool) (fn : BitVec 9) : tbR (wordR op d a b ta tb fn) = tb := by
  unfold tbR wordR bit1
  simp only [BitVec.getLsbD_append]
  simp

@[simp] theorem fnF_wordR (op : BitVec 6) (d a b : Reg) (ta tb : Bool) (fn : BitVec 9) : fnF (wordR op d a b ta tb fn) = fn := by
  unfold fnF wordR
  ext i hi
  simp only [BitVec.getElem_extractLsb', BitVec.getLsbD_append]
  grind

/-! ## wordI -/

@[simp] theorem opF_wordI (op : BitVec 6) (d a : Reg) (ta : Bool) (imm : BitVec 15) : opF (wordI op d a ta imm) = op := by
  unfold opF wordI
  ext i hi
  simp only [BitVec.getElem_extractLsb', BitVec.getLsbD_append]
  grind

@[simp] theorem dF_wordI (op : BitVec 6) (d a : Reg) (ta : Bool) (imm : BitVec 15) : dF (wordI op d a ta imm) = d := by
  unfold dF wordI
  ext i hi
  simp only [BitVec.getElem_extractLsb', BitVec.getLsbD_append]
  grind

@[simp] theorem aF_wordI (op : BitVec 6) (d a : Reg) (ta : Bool) (imm : BitVec 15) : aF (wordI op d a ta imm) = a := by
  unfold aF wordI
  ext i hi
  simp only [BitVec.getElem_extractLsb', BitVec.getLsbD_append]
  grind

@[simp] theorem taI_wordI (op : BitVec 6) (d a : Reg) (ta : Bool) (imm : BitVec 15) : taI (wordI op d a ta imm) = ta := by
  unfold taI wordI bit1
  simp only [BitVec.getLsbD_append]
  simp

@[simp] theorem immI_wordI (op : BitVec 6) (d a : Reg) (ta : Bool) (imm : BitVec 15) : immI (wordI op d a ta imm) = imm := by
  unfold immI wordI
  ext i hi
  simp only [BitVec.getElem_extractLsb', BitVec.getLsbD_append]
  grind

/-! ## wordS -/

@[simp] theorem opF_wordS (op : BitVec 6) (b a : Reg) (ta tb : Bool) (imm : BitVec 14) : opF (wordS op b a ta tb imm) = op := by
  unfold opF wordS
  ext i hi
  simp only [BitVec.getElem_extractLsb', BitVec.getLsbD_append]
  grind

@[simp] theorem dF_wordS (op : BitVec 6) (b a : Reg) (ta tb : Bool) (imm : BitVec 14) : dF (wordS op b a ta tb imm) = b := by
  unfold dF wordS
  ext i hi
  simp only [BitVec.getElem_extractLsb', BitVec.getLsbD_append]
  grind

@[simp] theorem aF_wordS (op : BitVec 6) (b a : Reg) (ta tb : Bool) (imm : BitVec 14) : aF (wordS op b a ta tb imm) = a := by
  unfold aF wordS
  ext i hi
  simp only [BitVec.getElem_extractLsb', BitVec.getLsbD_append]
  grind

@[simp] theorem taI_wordS (op : BitVec 6) (b a : Reg) (ta tb : Bool) (imm : BitVec 14) : taI (wordS op b a ta tb imm) = ta := by
  unfold taI wordS bit1
  simp only [BitVec.getLsbD_append]
  simp

@[simp] theorem tbS_wordS (op : BitVec 6) (b a : Reg) (ta tb : Bool) (imm : BitVec 14) : tbS (wordS op b a ta tb imm) = tb := by
  unfold tbS wordS bit1
  simp only [BitVec.getLsbD_append]
  simp

@[simp] theorem immS_wordS (op : BitVec 6) (b a : Reg) (ta tb : Bool) (imm : BitVec 14) : immS (wordS op b a ta tb imm) = imm := by
  unfold immS wordS
  ext i hi
  simp only [BitVec.getElem_extractLsb', BitVec.getLsbD_append]
  grind

/-! ## wordJ -/

@[simp] theorem opF_wordJ (op : BitVec 6) (d : Reg) (imm : BitVec 21) : opF (wordJ op d imm) = op := by
  unfold opF wordJ
  ext i hi
  simp only [BitVec.getElem_extractLsb', BitVec.getLsbD_append]
  grind

@[simp] theorem dF_wordJ (op : BitVec 6) (d : Reg) (imm : BitVec 21) : dF (wordJ op d imm) = d := by
  unfold dF wordJ
  ext i hi
  simp only [BitVec.getElem_extractLsb', BitVec.getLsbD_append]
  grind

@[simp] theorem immJ_wordJ (op : BitVec 6) (d : Reg) (imm : BitVec 21) : immJ (wordJ op d imm) = imm := by
  unfold immJ wordJ
  ext i hi
  simp only [BitVec.getElem_extractLsb', BitVec.getLsbD_append]
  grind

/-! ## wordC -/

@[simp] theorem opF_wordC (op : BitVec 6) (d a b : Reg) (n : BitVec 11) : opF (wordC op d a b n) = op := by
  unfold opF wordC
  ext i hi
  simp only [BitVec.getElem_extractLsb', BitVec.getLsbD_append]
  grind

@[simp] theorem dF_wordC (op : BitVec 6) (d a b : Reg) (n : BitVec 11) : dF (wordC op d a b n) = d := by
  unfold dF wordC
  ext i hi
  simp only [BitVec.getElem_extractLsb', BitVec.getLsbD_append]
  grind

@[simp] theorem aF_wordC (op : BitVec 6) (d a b : Reg) (n : BitVec 11) : aF (wordC op d a b n) = a := by
  unfold aF wordC
  ext i hi
  simp only [BitVec.getElem_extractLsb', BitVec.getLsbD_append]
  grind

@[simp] theorem bF_wordC (op : BitVec 6) (d a b : Reg) (n : BitVec 11) : bF (wordC op d a b n) = b := by
  unfold bF wordC
  ext i hi
  simp only [BitVec.getElem_extractLsb', BitVec.getLsbD_append]
  grind

@[simp] theorem idxC_wordC (op : BitVec 6) (d a b : Reg) (n : BitVec 11) : idxC (wordC op d a b n) = n := by
  unfold idxC wordC
  ext i hi
  simp only [BitVec.getElem_extractLsb', BitVec.getLsbD_append]
  grind

/-! ## wordY -/

@[simp] theorem opF_wordY (op : BitVec 6) (d a : Reg) (y : BitVec 16) : opF (wordY op d a y) = op := by
  unfold opF wordY
  ext i hi
  simp only [BitVec.getElem_extractLsb', BitVec.getLsbD_append]
  grind

@[simp] theorem dF_wordY (op : BitVec 6) (d a : Reg) (y : BitVec 16) : dF (wordY op d a y) = d := by
  unfold dF wordY
  ext i hi
  simp only [BitVec.getElem_extractLsb', BitVec.getLsbD_append]
  grind

@[simp] theorem aF_wordY (op : BitVec 6) (d a : Reg) (y : BitVec 16) : aF (wordY op d a y) = a := by
  unfold aF wordY
  ext i hi
  simp only [BitVec.getElem_extractLsb', BitVec.getLsbD_append]
  grind

@[simp] theorem yF_wordY (op : BitVec 6) (d a : Reg) (y : BitVec 16) : yF (wordY op d a y) = y := by
  unfold yF wordY
  ext i hi
  simp only [BitVec.getElem_extractLsb', BitVec.getLsbD_append]
  grind

/-! ## Commands and site words -/

theorem opCmd_packCmd (op : Nat) (x : CmdArgs) : opCmd (packCmd op x) = op % 256 := by
  have h : (packCmd op x).extractLsb' 120 8 = BitVec.ofNat 8 op := by
    unfold packCmd
    ext i hi
    simp only [BitVec.getElem_extractLsb', BitVec.getLsbD_append]
    grind
  rw [opCmd, h, BitVec.toNat_ofNat]

theorem opSite_packSite (kind op : Nat) (x : SiteArgs) : opSite (packSite kind op x) = op % 128 := by
  have h : (packSite kind op x).extractLsb' 57 7 = BitVec.ofNat 7 op := by
    unfold packSite
    ext i hi
    simp only [BitVec.getElem_extractLsb', BitVec.getLsbD_append]
    grind
  rw [opSite, h, BitVec.toNat_ofNat]

theorem kindSite_packSite (kind op : Nat) (x : SiteArgs) : kindSite (packSite kind op x) = kind % 4 := by
  have h : (packSite kind op x).extractLsb' 55 2 = BitVec.ofNat 2 kind := by
    unfold packSite
    ext i hi
    simp only [BitVec.getElem_extractLsb', BitVec.getLsbD_append]
    grind
  rw [kindSite, h, BitVec.toNat_ofNat]

end Sys2Proof
end

