-- ==== Sys2Proof/Laws/Memory.lean ====
section
/-! SUPPORT. Laws of the sparse tables and of physical memory: what a read gives after a write, and that every
write keeps the canonical form. -/

namespace Sys2Proof.Machine

/-! ## Sparse tables -/

theorem SMap.risesFrom_mono {α : Type} {m : SMap α} {a b : Nat} (h : a ≤ b) (hb : SMap.risesFrom b m = true) :
    SMap.risesFrom a m = true := by
  cases m with
  | nil => rfl
  | cons e m => simp only [SMap.risesFrom, Bool.and_eq_true, decide_eq_true_eq] at *; exact ⟨by omega, hb.2⟩

theorem SMap.get_of_rises {α : Type} (d : α) {m : SMap α} {n i : Nat} (h : SMap.risesFrom n m = true) (hi : i < n) :
    SMap.get d m i = d := by
  induction m generalizing n with
  | nil => rfl
  | cons e m ih =>
    obtain ⟨k, v⟩ := e
    simp only [SMap.risesFrom, Bool.and_eq_true, decide_eq_true_eq] at h
    simp only [SMap.get]
    rw [if_neg (by omega)]
    exact ih h.2 (by omega)

theorem SMap.get_ins_self {α : Type} (d : α) (m : SMap α) (i : Nat) (x : α) : SMap.get d (SMap.ins m i x) i = x := by
  induction m with
  | nil => simp [SMap.ins, SMap.get]
  | cons e m ih =>
    obtain ⟨k, v⟩ := e
    simp only [SMap.ins]
    split
    · simp [SMap.get]
    · split
      · simp [SMap.get]
      · rename_i h; simp [SMap.get, h, ih]

theorem SMap.get_ins_other {α : Type} (d : α) (m : SMap α) {i j : Nat} (x : α) (h : j ≠ i) :
    SMap.get d (SMap.ins m i x) j = SMap.get d m j := by
  induction m with
  | nil => simp [SMap.ins, SMap.get, h]
  | cons e m ih =>
    obtain ⟨k, v⟩ := e
    simp only [SMap.ins]
    split
    · simp [SMap.get, h]
    · split
      · rename_i h1; subst h1; simp [SMap.get, h]
      · simp [SMap.get, ih]

theorem SMap.get_del_other {α : Type} (d : α) (m : SMap α) {i j : Nat} (h : j ≠ i) :
    SMap.get d (SMap.del m i) j = SMap.get d m j := by
  induction m with
  | nil => rfl
  | cons e m ih =>
    obtain ⟨k, v⟩ := e
    simp only [SMap.del]
    split
    · rename_i h1; subst h1; simp [SMap.get, h]
    · simp [SMap.get, ih]

theorem SMap.get_del_self {α : Type} (d : α) {m : SMap α} {n : Nat} (hm : SMap.risesFrom n m = true) (i : Nat) :
    SMap.get d (SMap.del m i) i = d := by
  induction m generalizing n with
  | nil => rfl
  | cons e m ih =>
    obtain ⟨k, v⟩ := e
    simp only [SMap.risesFrom, Bool.and_eq_true, decide_eq_true_eq] at hm
    simp only [SMap.del]
    split
    · rename_i h1; subst h1; exact SMap.get_of_rises d hm.2 (by omega)
    · rename_i h1; simp only [SMap.get, if_neg h1]; exact ih hm.2

theorem SMap.rises_ins {α : Type} {m : SMap α} {n i : Nat} (x : α) (hm : SMap.risesFrom n m = true) (hi : n ≤ i) :
    SMap.risesFrom n (SMap.ins m i x) = true := by
  induction m generalizing n with
  | nil => simp [SMap.ins, SMap.risesFrom, hi]
  | cons e m ih =>
    obtain ⟨k, v⟩ := e
    simp only [SMap.risesFrom, Bool.and_eq_true, decide_eq_true_eq] at hm
    simp only [SMap.ins]
    split
    · simp only [SMap.risesFrom, Bool.and_eq_true, decide_eq_true_eq]; exact ⟨hi, by omega, hm.2⟩
    · split
      · rename_i h1; subst h1; simp only [SMap.risesFrom, Bool.and_eq_true, decide_eq_true_eq]; exact ⟨hi, hm.2⟩
      · simp only [SMap.risesFrom, Bool.and_eq_true, decide_eq_true_eq]; exact ⟨hm.1, ih hm.2 (by omega)⟩

theorem SMap.rises_del {α : Type} {m : SMap α} {n : Nat} (i : Nat) (hm : SMap.risesFrom n m = true) :
    SMap.risesFrom n (SMap.del m i) = true := by
  induction m generalizing n with
  | nil => rfl
  | cons e m ih =>
    obtain ⟨k, v⟩ := e
    simp only [SMap.risesFrom, Bool.and_eq_true, decide_eq_true_eq] at hm
    simp only [SMap.del]
    split
    · exact SMap.risesFrom_mono (by omega) hm.2
    · simp only [SMap.risesFrom, Bool.and_eq_true, decide_eq_true_eq]; exact ⟨hm.1, ih hm.2⟩

theorem SMap.all_ins {α : Type} (p : Nat × α → Bool) {m : SMap α} {i : Nat} {x : α} (hm : m.all p = true)
    (hx : p (i, x) = true) : (SMap.ins m i x).all p = true := by
  induction m with
  | nil => simp [SMap.ins, hx]
  | cons e m ih =>
    obtain ⟨k, v⟩ := e
    simp only [List.all_cons, Bool.and_eq_true] at hm
    simp only [SMap.ins]
    split
    · simp only [List.all_cons, Bool.and_eq_true]; exact ⟨hx, hm⟩
    · split
      · simp only [List.all_cons, Bool.and_eq_true]; exact ⟨hx, hm.2⟩
      · simp only [List.all_cons, Bool.and_eq_true]; exact ⟨hm.1, ih hm.2⟩

theorem SMap.all_del {α : Type} (p : Nat × α → Bool) {m : SMap α} (i : Nat) (hm : m.all p = true) :
    (SMap.del m i).all p = true := by
  induction m with
  | nil => rfl
  | cons e m ih =>
    obtain ⟨k, v⟩ := e
    simp only [List.all_cons, Bool.and_eq_true] at hm
    simp only [SMap.del]
    split
    · exact hm.2
    · simp only [List.all_cons, Bool.and_eq_true]; exact ⟨hm.1, ih hm.2⟩

/-- Writing an entry keeps the canonical form. -/
theorem SMap.wf_put {α : Type} [DecidableEq α] {d : α} {m : SMap α} (i : Nat) (x : α) (h : SMap.wf d m = true) :
    SMap.wf d (SMap.put d m i x) = true := by
  simp only [SMap.wf, Bool.and_eq_true] at *
  unfold SMap.put
  split
  · exact ⟨SMap.rises_del i h.1, SMap.all_del _ i h.2⟩
  · rename_i hx
    exact ⟨SMap.rises_ins x h.1 (by omega), SMap.all_ins _ h.2 (by simpa using hx)⟩

/-- Removing an entry keeps the canonical form. -/
theorem SMap.wf_del {α : Type} [DecidableEq α] {d : α} {m : SMap α} (i : Nat) (h : SMap.wf d m = true) :
    SMap.wf d (SMap.del m i) = true := by
  simp only [SMap.wf, Bool.and_eq_true] at *
  exact ⟨SMap.rises_del i h.1, SMap.all_del _ i h.2⟩

theorem SMap.get_put_self {α : Type} [DecidableEq α] {d : α} {m : SMap α} (i : Nat) (x : α) (h : SMap.wf d m = true) :
    SMap.get d (SMap.put d m i x) i = x := by
  simp only [SMap.wf, Bool.and_eq_true] at h
  unfold SMap.put
  split
  · rename_i hx; rw [SMap.get_del_self d h.1, hx]
  · exact SMap.get_ins_self d m i x

theorem SMap.get_put_other {α : Type} [DecidableEq α] {d : α} (m : SMap α) {i j : Nat} (x : α) (h : j ≠ i) :
    SMap.get d (SMap.put d m i x) j = SMap.get d m j := by
  unfold SMap.put
  split
  · exact SMap.get_del_other d m h
  · exact SMap.get_ins_other d m x h

theorem SMap.rises_filter {α : Type} {m : SMap α} {n : Nat} (p : Nat × α → Bool) (h : SMap.risesFrom n m = true) :
    SMap.risesFrom n (m.filter p) = true := by
  induction m generalizing n with
  | nil => rfl
  | cons e m ih =>
    obtain ⟨k, v⟩ := e
    simp only [SMap.risesFrom, Bool.and_eq_true, decide_eq_true_eq] at h
    simp only [List.filter_cons]
    split
    · simp only [SMap.risesFrom, Bool.and_eq_true, decide_eq_true_eq]; exact ⟨h.1, ih h.2⟩
    · exact SMap.risesFrom_mono (by omega) (ih h.2)

/-- Keeping a part of the entries keeps the canonical form. -/
theorem SMap.wf_filter {α : Type} [DecidableEq α] {d : α} {m : SMap α} (p : Nat × α → Bool)
    (h : SMap.wf d m = true) : SMap.wf d (m.filter p) = true := by
  simp only [SMap.wf, Bool.and_eq_true] at *
  refine ⟨SMap.rises_filter p h.1, ?_⟩
  simp only [List.all_eq_true, List.mem_filter] at *
  exact fun e he => h.2 e he.1

/-- Two tables in canonical form that read alike everywhere are equal. -/
theorem SMap.eq_of_get {α : Type} [DecidableEq α] {d : α} {m m' : SMap α} {n : Nat}
    (h1 : SMap.risesFrom n m = true) (h2 : m.all (fun e => decide (e.2 ≠ d)) = true)
    (h1' : SMap.risesFrom n m' = true) (h2' : m'.all (fun e => decide (e.2 ≠ d)) = true)
    (h : ∀ i, SMap.get d m i = SMap.get d m' i) : m = m' := by
  induction m generalizing m' n with
  | nil =>
    cases m' with
    | nil => rfl
    | cons e t =>
      obtain ⟨k, v⟩ := e
      have := h k
      simp [SMap.get] at this
      simp [← this] at h2'
  | cons e t ih =>
    obtain ⟨k, v⟩ := e
    cases m' with
    | nil =>
      have := h k
      simp [SMap.get] at this
      simp [this] at h2
    | cons e' t' =>
      obtain ⟨k', v'⟩ := e'
      simp only [SMap.risesFrom, Bool.and_eq_true, decide_eq_true_eq] at h1 h1'
      simp only [List.all_cons, Bool.and_eq_true, decide_eq_true_eq] at h2 h2'
      have hk : k = k' := by
        rcases Nat.lt_trichotomy k k' with hlt | heq | hgt
        · have := h k
          simp only [SMap.get, if_true, if_neg (Nat.ne_of_lt hlt)] at this
          rw [SMap.get_of_rises d h1'.2 (by omega)] at this
          exact absurd this h2.1
        · exact heq
        · have := h k'
          simp only [SMap.get, if_true, if_neg (Nat.ne_of_lt hgt)] at this
          rw [SMap.get_of_rises d h1.2 (by omega)] at this
          exact absurd this.symm h2'.1
      subst hk
      have hv : v = v' := by simpa [SMap.get] using h k
      subst hv
      rw [ih h1.2 h2.2 h1'.2 h2'.2]
      intro i
      have := h i
      by_cases hi : i = k
      · subst hi
        rw [SMap.get_of_rises d h1.2 (by omega), SMap.get_of_rises d h1'.2 (by omega)]
      · simpa only [SMap.get, if_neg hi] using this

/-! ## Physical memory -/

theorem Memory.wf_nil : Memory.wf [] = true := rfl

/-- Writing one byte keeps the canonical form. -/
theorem Memory.wf_memPut {m : List (Nat × Byte)} (pa : Nat) (b : Byte) (h : Memory.wf m = true) :
    Memory.wf (memPut m pa b) = true := SMap.wf_put pa b h

/-- Writing bytes keeps the canonical form. -/
theorem Memory.wf_memPuts {m : List (Nat × Byte)} (pa : Nat) (bs : List Byte) (h : Memory.wf m = true) :
    Memory.wf (memPuts m pa bs) = true := by
  induction bs generalizing m pa with
  | nil => exact h
  | cons b bs ih => exact ih (pa + 1) (Memory.wf_memPut pa b h)

theorem Memory.wf_filter {m : List (Nat × Byte)} (p : Nat × Byte → Bool) (h : Memory.wf m = true) :
    Memory.wf (m.filter p) = true := SMap.wf_filter p h

/-- A byte just written reads as written. -/
theorem memByte_memPut_self {m : List (Nat × Byte)} (pa : Nat) (b : Byte) (h : Memory.wf m = true) :
    memByte (memPut m pa b) pa = b := SMap.get_put_self pa b h

/-- A write of one byte leaves every other byte alone. -/
theorem memByte_memPut_other (m : List (Nat × Byte)) {pa a : Nat} (b : Byte) (h : a ≠ pa) :
    memByte (memPut m pa b) a = memByte m a := SMap.get_put_other m b h

/-- A write of bytes leaves every byte outside them alone. -/
theorem memByte_memPuts_outside (m : List (Nat × Byte)) (pa : Nat) (bs : List Byte) {a : Nat}
    (h : a < pa ∨ pa + bs.length ≤ a) : memByte (memPuts m pa bs) a = memByte m a := by
  induction bs generalizing m pa with
  | nil => rfl
  | cons b bs ih =>
    simp only [List.length_cons] at h
    simp only [memPuts]
    rw [ih (memPut m pa b) (pa + 1) (by omega), memByte_memPut_other m b (by omega)]

/-- A write of bytes reads back as written. -/
theorem memByte_memPuts_inside {m : List (Nat × Byte)} (hm : Memory.wf m = true) (pa : Nat) (bs : List Byte) (i : Nat)
    (h : i < bs.length) : memByte (memPuts m pa bs) (pa + i) = bs[i] := by
  induction bs generalizing m pa i with
  | nil => simp at h
  | cons b bs ih =>
    simp only [memPuts]
    cases i with
    | zero =>
      rw [memByte_memPuts_outside _ _ _ (by omega)]
      exact memByte_memPut_self pa b hm
    | succ i =>
      have := ih (Memory.wf_memPut pa b hm) (pa + 1) i (by simpa using h)
      rw [show pa + (i + 1) = pa + 1 + i from by omega, this]
      rfl

theorem memBytes_length (m : List (Nat × Byte)) (pa n : Nat) : (memBytes m pa n).length = n := by
  induction n generalizing pa with
  | zero => rfl
  | succ n ih => simp [memBytes, ih]

/-- Bytes written read back, as a list. -/
theorem memBytes_memPuts {m : List (Nat × Byte)} (hm : Memory.wf m = true) (pa : Nat) (bs : List Byte) :
    memBytes (memPuts m pa bs) pa bs.length = bs := by
  induction bs generalizing m pa with
  | nil => rfl
  | cons b bs ih =>
    simp only [memPuts, List.length_cons, memBytes]
    rw [memByte_memPuts_outside _ _ _ (by omega), memByte_memPut_self pa b hm, ih (Memory.wf_memPut pa b hm)]

/-- Memories in canonical form that read alike are equal. -/
theorem Memory.eq_of_bytes {m m' : List (Nat × Byte)} (h : Memory.wf m = true) (h' : Memory.wf m' = true)
    (he : ∀ a, memByte m a = memByte m' a) : m = m' := by
  simp only [Memory.wf, SMap.wf, Bool.and_eq_true] at h h'
  exact SMap.eq_of_get h.1 h.2 h'.1 h'.2 he

theorem leBytes_length (n x : Nat) : (leBytes n x).length = n := by
  induction n generalizing x with
  | zero => rfl
  | succ n ih => simp [leBytes, ih]

/-- The bytes of a number give it back, modulo their count (R29). -/
theorem leNat_leBytes (n x : Nat) : leNat (leBytes n x) = x % 256 ^ n := by
  induction n generalizing x with
  | zero => simp [leBytes, leNat, Nat.mod_one]
  | succ n ih =>
    simp only [leBytes, leNat, ih, BitVec.toNat_ofNat]
    rw [show 256 ^ (n + 1) = 256 * 256 ^ n from by rw [Nat.pow_succ, Nat.mul_comm], Nat.mod_mul]

end Sys2Proof.Machine
end

