-- ==== Sys2Proof/Laws/KeepsMemory.lean ====
section
/-! SUPPORT. What each shared operation does to physical memory, said once: it leaves memory as it is (`…_mem`), or it
keeps the canonical form (`…_wf`). -/

namespace Sys2Proof.Machine

theorem foldl_mem {α : Type} (f : State → α → State) (hf : ∀ s a, (f s a).mem = s.mem) (l : List α) (s : State) :
    (l.foldl f s).mem = s.mem := by
  induction l generalizing s with
  | nil => rfl
  | cons a l ih => rw [List.foldl_cons, ih, hf]

theorem foldl_wf {α : Type} (f : State → α → State) (hf : ∀ s a, Memory.wf s.mem = true → Memory.wf (f s a).mem = true)
    (l : List α) (s : State) (hw : Memory.wf s.mem = true) : Memory.wf (l.foldl f s).mem = true := by
  induction l generalizing s with
  | nil => exact hw
  | cons a l ih => exact ih (f s a) (hf s a hw)

@[simp] theorem State.reply_mem (s : State) (src : Nat) (tag : Nat) (v : W64) :
    (State.reply s src tag v).mem = s.mem := by
  unfold State.reply
  grind

@[simp] theorem State.modPacket_mem (s : State) (r : PktRef) (f : Packet → Packet) :
    (State.modPacket s r f).mem = s.mem := by
  unfold State.modPacket
  grind

@[simp] theorem State.push_mem (s : State) (i : Instr) :
    (State.push s i).mem = s.mem := by
  unfold State.push
  grind

@[simp] theorem State.fireSlot_mem (s : State) (q : Nat) (u : BitVec 39) (slot : Nat) (v : ℤ) :
    (State.fireSlot s q u slot v).mem = s.mem := by
  unfold State.fireSlot
  grind [State.modPacket_mem, State.push_mem]

@[simp] theorem State.modRun_mem (s : State) (h : W64) (f : Run → Run) :
    (State.modRun s h f).mem = s.mem := by
  unfold State.modRun
  grind

@[simp] theorem State.putTask_mem (s : State) (t : TaskRec) :
    (State.putTask s t).mem = s.mem := by
  unfold State.putTask
  grind

@[simp] theorem State.modTask_mem (s : State) (h : W64) (f : TaskRec → TaskRec) :
    (State.modTask s h f).mem = s.mem := by
  unfold State.modTask
  grind [State.putTask_mem]

@[simp] theorem State.modCtx_mem (s : State) (h : W64) (f : Run → Run) :
    (State.modCtx s h f).mem = s.mem := by
  unfold State.modCtx
  grind [State.modRun_mem, State.modTask_mem]

@[simp] theorem State.unpark_mem (s : State) (h : W64) (site : Nat) (id : Nat) (v : W64) :
    (State.unpark s h site id v).mem = s.mem := by
  unfold State.unpark
  grind [State.modCtx_mem, State.push_mem]

@[simp] theorem State.makeReady_mem (s : State) (h : W64) :
    (State.makeReady s h).mem = s.mem := by
  unfold State.makeReady
  grind [State.push_mem, State.modTask_mem]

@[simp] theorem State.countDown_mem (s : State) (h : W64) (n : Nat) :
    (State.countDown s h n).mem = s.mem := by
  unfold State.countDown
  grind [State.putTask_mem, State.makeReady_mem]

theorem State.armedEvent_mem (s : State) (h : W64) (kind : Nat) (hit : Arm → Bool) :
    (State.armedEvent s h kind hit).2.mem = s.mem := by
  unfold State.armedEvent
  grind [State.putTask_mem, State.countDown_mem]

@[simp] theorem State.vigilWake_mem (s : State) (h : W64) :
    (State.vigilWake s h).mem = s.mem := by
  unfold State.vigilWake
  grind [State.armedEvent_mem, State.modTask_mem]

@[simp] theorem State.pushAll_mem (s : State) (l : List Instr) :
    (State.pushAll s l).mem = s.mem := by
  unfold State.pushAll
  grind

@[simp] theorem State.kick_mem (s : State) (h : W64) :
    (State.kick s h).mem = s.mem := by
  unfold State.kick
  grind [State.pushAll_mem]

@[simp] theorem State.deliver_mem (s : State) (h : W64) (flight : Nat) (v : W64) :
    (State.deliver s h flight v).mem = s.mem := by
  unfold State.deliver
  grind [State.kick_mem, State.modCtx_mem, State.push_mem]

@[simp] theorem State.wake_mem (s : State) (v : Vigil) :
    (State.wake s v).mem = s.mem := by
  unfold State.wake
  grind [State.reply_mem, State.fireSlot_mem, State.unpark_mem, State.vigilWake_mem, State.deliver_mem]

@[simp] theorem State.fireVigils_mem (s : State) (pa : Nat) (n : Nat) :
    (State.fireVigils s pa n).mem = s.mem := by
  unfold State.fireVigils
  grind [State.wake_mem, foldl_mem]

theorem State.orStatus_wf (s : State) (pa : Nat) (x : W64) (hw : Memory.wf s.mem = true) :
    Memory.wf (State.orStatus s pa x).mem = true := by
  unfold State.orStatus
  grind [State.fireVigils_mem, Memory.wf_memPuts]

@[simp] theorem State.modCmd_mem (s : State) (k : CmdRef) (f : Cmd → Cmd) :
    (State.modCmd s k f).mem = s.mem := by
  unfold State.modCmd
  grind [State.modCtx_mem]

@[simp] theorem State.cmdDone_mem (s : State) (k : CmdRef) (status : BitVec 2) :
    (State.cmdDone s k status).mem = s.mem := by
  unfold State.cmdDone
  grind [State.modCmd_mem, State.push_mem]

@[simp] theorem State.endWait_mem (s : State) (w : BarWait) (gone : Bool) :
    (State.endWait s w gone).mem = s.mem := by
  unfold State.endWait
  grind [State.reply_mem, State.cmdDone_mem, State.modCmd_mem, State.countDown_mem, State.push_mem, State.deliver_mem]

@[simp] theorem State.wakeBar_mem (s : State) (pa : Nat) (gone : Bool) (hit : BarWait → Bool) :
    (State.wakeBar s pa gone hit).mem = s.mem := by
  unfold State.wakeBar
  grind [State.endWait_mem, foldl_mem]

theorem State.destroyBar_wf (s : State) (pa : Nat) (status : W64) (hw : Memory.wf s.mem = true) :
    Memory.wf (State.destroyBar s pa status).mem = true := by
  unfold State.destroyBar
  grind [State.orStatus_wf, State.wakeBar_mem, Memory.wf_memPuts]

theorem State.putBar_wf (s : State) (pa : Nat) (phase : BitVec 16) (count : Nat) (ahead : Nat) (hw : Memory.wf
    s.mem = true) :
    Memory.wf (State.putBar s pa phase count ahead).mem = true := by
  unfold State.putBar
  grind [State.fireVigils_mem, Memory.wf_memPuts]

@[simp] theorem State.wakeLeft_mem (s : State) (pa : Nat) :
    (State.wakeLeft s pa).mem = s.mem := by
  unfold State.wakeLeft
  grind [State.wakeBar_mem]

theorem State.countBytes_wf (s : State) (pa : Nat) (n : Nat) (hw : Memory.wf s.mem = true) :
    Memory.wf (State.countBytes s pa n).mem = true := by
  unfold State.countBytes
  grind [State.putBar_wf, State.orStatus_wf, State.wakeLeft_mem, Memory.wf_memPuts]

theorem State.countLanding_wf (s : State) (pa : Nat) (n : Nat) (hw : Memory.wf s.mem = true) :
    Memory.wf (State.countLanding s pa n).mem = true := by
  unfold State.countLanding
  grind [State.countBytes_wf, Memory.wf_memPuts, foldl_wf, foldl_mem]

theorem State.land_wf (s : State) (pa : Nat) (bs : List Byte) (hw : Memory.wf s.mem = true) :
    Memory.wf (State.land s pa bs).mem = true := by
  unfold State.land
  grind [State.destroyBar_wf, State.fireVigils_mem, State.countLanding_wf, Memory.wf_memPuts, foldl_wf, foldl_mem]

theorem State.writeResp_wf (s : State) (m : MbCmd) (hw : Memory.wf s.mem = true) :
    Memory.wf (State.writeResp s m).mem = true := by
  unfold State.writeResp
  grind [State.land_wf, Memory.wf_memPuts]

theorem State.postEvent_wf (s : State) (m : MbCmd) (hw : Memory.wf s.mem = true) :
    Memory.wf (State.postEvent s m).mem = true := by
  unfold State.postEvent
  grind [State.writeResp_wf, Memory.wf_memPuts]

theorem State.memErr_wf (s : State) (pa : Nat) (again : Bool) (hw : Memory.wf s.mem = true) :
    Memory.wf (State.memErr s pa again).mem = true := by
  unfold State.memErr
  grind [State.postEvent_wf, Memory.wf_memPuts]

@[simp] theorem State.askGuests_mem (s : State) (h : W64) :
    (State.askGuests s h).mem = s.mem := by
  unfold State.askGuests
  grind

@[simp] theorem State.urgent_mem (s : State) (i : Instr) :
    (State.urgent s i).mem = s.mem := by
  unfold State.urgent
  grind

@[simp] theorem State.freeWindow_mem (s : State) (h : W64) (keep : Bool) :
    (State.freeWindow s h keep).mem = s.mem := by
  unfold State.freeWindow
  grind [State.urgent_mem]

@[simp] theorem State.dropRun_mem (s : State) (h : W64) :
    (State.dropRun s h).mem = s.mem := by
  unfold State.dropRun
  grind

@[simp] theorem State.kickAll_mem (s : State) :
    (State.kickAll s).mem = s.mem := by
  unfold State.kickAll
  grind [State.kick_mem, foldl_mem]

@[simp] theorem State.dropWaits_mem (s : State) (h : W64) :
    (State.dropWaits s h).mem = s.mem := by
  unfold State.dropWaits
  grind

@[simp] theorem State.leaseEnds_mem (s : State) (h : W64) (old : List Extent) :
    (State.leaseEnds s h old).mem = s.mem := by
  unfold State.leaseEnds
  grind

@[simp] theorem State.activate_mem (s : State) (fc : Nat) (h : W64) :
    (State.activate s fc h).mem = s.mem := by
  unfold State.activate
  grind

@[simp] theorem State.passOn_mem (s : State) (r : Run) :
    (State.passOn s r).mem = s.mem := by
  unfold State.passOn
  grind [State.activate_mem]

theorem writePlace_wf (s : State) (p : Place) (bs : List Byte) (hw : Memory.wf s.mem = true) :
    Memory.wf (writePlace s p bs).2.mem = true := by
  unfold writePlace
  grind [State.land_wf, Memory.wf_memPuts]

theorem ctxWrite_wf (s : State) (c : CtxEnt) (va n : Nat) (bs : List Byte) (hw : Memory.wf s.mem = true) :
    Memory.wf (ctxWrite s c va n bs).mem = true := by
  induction n generalizing s va bs with
  | zero => exact hw
  | succ n ih => unfold ctxWrite; grind [writePlace_wf]

@[simp] theorem State.fresh_mem (s : State) :
    (State.fresh s).mem = s.mem := by
  unfold State.fresh
  grind

@[simp] theorem State.endEvents_mem (s : State) (h : W64) (parent : W64) :
    (State.endEvents s h parent).mem = s.mem := by
  unfold State.endEvents
  grind [State.armedEvent_mem, State.modTask_mem, foldl_mem]

@[simp] theorem State.freeSaved_mem (s : State) (h : W64) :
    (State.freeSaved s h).mem = s.mem := by
  unfold State.freeSaved
  grind

theorem State.endTask_wf (s0 : State) (h : W64) (status : W64) (rec_ : Option (Vector W64 8)) (hw : Memory.wf
    s0.mem = true) :
    Memory.wf (State.endTask s0 h status rec_).mem = true := by
  unfold State.endTask
  grind [State.freeWindow_mem, ctxWrite_wf, State.fresh_mem, State.endEvents_mem, State.modPacket_mem,
      State.dropWaits_mem, State.push_mem, State.freeSaved_mem, Memory.wf_memPuts, foldl_wf, foldl_mem]

theorem State.settle_wf (s : State) (h : W64) (hw : Memory.wf s.mem = true) :
    Memory.wf (State.settle s h).mem = true := by
  unfold State.settle
  grind [State.freeWindow_mem, State.dropRun_mem, State.makeReady_mem, State.kickAll_mem, State.dropWaits_mem,
      State.leaseEnds_mem, State.passOn_mem, State.endTask_wf, State.pushAll_mem, State.modTask_mem,
          Memory.wf_memPuts]

@[simp] theorem State.token_mem (s : State) (h : W64) (c : Cmd) :
    (State.token s h c).mem = s.mem := by
  unfold State.token
  grind [State.deliver_mem]

@[simp] theorem State.sendPeer_mem (s : State) (p : PeerWin) (off : Nat) (va : W64) (pc : W64) (size8 : Bool) (kind
    : HomeKind) (sys : Bool) (o : Owner) :
    (State.sendPeer s p off va pc size8 kind sys o).mem = s.mem := by
  unfold State.sendPeer
  grind [State.fresh_mem]

@[simp] theorem State.toHome_mem (s : State) (op : HomeOp) :
    (State.toHome s op).mem = s.mem := by
  unfold State.toHome
  grind [State.push_mem]

@[simp] theorem State.signal_mem (s : State) (lease : List Extent) (k : CmdRef) (csig : W64) (scope : Nat) :
    (State.signal s lease k csig scope).mem = s.mem := by
  unfold State.signal
  grind [State.sendPeer_mem, State.toHome_mem, State.push_mem]

@[simp] theorem State.dropCmds_mem (s : State) (h : W64) :
    (State.dropCmds s h).mem = s.mem := by
  unfold State.dropCmds
  grind [State.kick_mem, State.modRun_mem, State.token_mem, State.signal_mem, foldl_mem]

theorem State.faultEnd_wf (s : State) (h : W64) (cause : W64) (rec_ : Vector W64 8) (hw : Memory.wf s.mem = true) :
    Memory.wf (State.faultEnd s h cause rec_).mem = true := by
  unfold State.faultEnd
  grind [State.askGuests_mem, State.modRun_mem, State.settle_wf, State.dropCmds_mem, State.dropWaits_mem,
      State.push_mem, State.modTask_mem, Memory.wf_memPuts, foldl_wf, foldl_mem]

theorem State.accFault_wf (s : State) (h : W64) (pc : W64) (agent : Nat) (unit_ : Nat) (row : Nat) (col : Nat)
    (lane : Nat) (e : AccErr) (hw : Memory.wf s.mem = true) :
    Memory.wf (State.accFault s h pc agent unit_ row col lane e).mem = true := by
  unfold State.accFault
  grind [State.memErr_wf, State.faultEnd_wf, Memory.wf_memPuts]

theorem State.accLease_wf (s : State) (h : W64) (a : Access) (n : Nat) (right : Nat) (reason : Nat) (hw : Memory.wf
    s.mem = true) :
    Memory.wf (State.accLease s h a n right reason).mem = true := by
  unfold State.accLease
  grind [State.faultEnd_wf, Memory.wf_memPuts]

@[simp] theorem State.askEdge_mem (s : State) (h : W64) :
    (State.askEdge s h).mem = s.mem := by
  unfold State.askEdge
  grind [State.modRun_mem, State.push_mem]

@[simp] theorem State.modCc_mem (s : State) (f : Run → Run) :
    (State.modCc s f).mem = s.mem := by
  unfold State.modCc
  grind

@[simp] theorem State.retire_mem (s : State) :
    (State.retire s).mem = s.mem := by
  unfold State.retire
  grind [State.modCc_mem]

theorem State.launch_mem (s : State) (k : Reg) (val : Option W64) :
    (State.launch s k val).2.mem = s.mem := by
  unfold State.launch
  grind [State.modCc_mem]

@[simp] theorem State.promise_mem (s : State) (k : CmdRef) (r : Run) (c : Cmd) :
    (State.promise s k r c).mem = s.mem := by
  unfold State.promise
  grind [State.modRun_mem, State.modCmd_mem, State.deliver_mem]

@[simp] theorem State.copyToken_mem (s : State) (k : CmdRef) (r : Run) (c : Cmd) :
    (State.copyToken s k r c).mem = s.mem := by
  unfold State.copyToken
  grind [State.promise_mem, State.pushAll_mem]

@[simp] theorem State.accept_mem (s : State) (d : Reg) (w : W128) (fw : Option W128) :
    (State.accept s d w fw).mem = s.mem := by
  unfold State.accept
  grind [State.askEdge_mem, State.retire_mem, State.launch_mem, State.modCc_mem, State.copyToken_mem,
      State.modCmd_mem, State.push_mem, State.deliver_mem]

@[simp] theorem State.addRun_mem (s : State) (r : Run) :
    (State.addRun s r).mem = s.mem := by
  unfold State.addRun
  grind

@[simp] theorem State.pushNew_mem (s : State) (i : Instr) :
    (State.pushNew s i).mem = s.mem := by
  unfold State.pushNew
  grind [State.push_mem]

@[simp] theorem State.wakeSite_mem (s : State) (h : W64) (k : Nat) :
    (State.wakeSite s h k).mem = s.mem := by
  unfold State.wakeSite
  grind [State.pushNew_mem]

@[simp] theorem State.toInput_mem (s : State) (h : W64) (k : Nat) (i : Nat) (m : Msg) :
    (State.toInput s h k i m).mem = s.mem := by
  unfold State.toInput
  grind [State.wakeSite_mem, State.modRun_mem]

@[simp] theorem State.putPort_mem (s : State) (h : W64) (k : Nat) (p : Port) :
    (State.putPort s h k p).mem = s.mem := by
  unfold State.putPort
  grind [State.modRun_mem]

@[simp] theorem State.toPort_mem (s : State) (h : W64) (k : Nat) (m : Msg) :
    (State.toPort s h k m).mem = s.mem := by
  unfold State.toPort
  grind [State.putPort_mem, State.pushNew_mem]

@[simp] theorem State.emit_mem (s : State) (h : W64) (st : Site) (out : Nat) (m : Msg) :
    (State.emit s h st out m).mem = s.mem := by
  unfold State.emit
  grind [State.toInput_mem, State.toPort_mem]

@[simp] theorem State.emitAl_mem (s : State) (h : W64) (r : Run) (st : Site) (w : AlWork) :
    (State.emitAl s h r st w).mem = s.mem := by
  unfold State.emitAl
  grind [State.emit_mem, foldl_mem]

@[simp] theorem State.putSite_mem (s : State) (h : W64) (st : Site) :
    (State.putSite s h st).mem = s.mem := by
  unfold State.putSite
  grind [State.modRun_mem]

@[simp] theorem State.alStep_mem (s : State) (h : W64) (r : Run) (st : Site) (w : AlWork) (x : SiteArgs) (f : AlFn) :
    (State.alStep s h r st w x f).mem = s.mem := by
  unfold State.alStep
  grind [State.emitAl_mem, State.putSite_mem]

@[simp] theorem State.answer_mem (s : State) (o : Owner) (v : W64) :
    (State.answer s o v).mem = s.mem := by
  unfold State.answer
  grind [State.reply_mem, State.cmdDone_mem, State.unpark_mem, State.modPacket_mem, State.modCmd_mem,
      State.countDown_mem, State.push_mem, State.deliver_mem]

@[simp] theorem State.mailNext_mem (s : State) :
    (State.mailNext s).mem = s.mem := by
  unfold State.mailNext
  grind [State.push_mem]

theorem State.drainEvents_wf (s : State) (n : Nat) (hw : Memory.wf s.mem = true) :
    Memory.wf (s.drainEvents n).mem = true := by
  induction n generalizing s with
  | zero => exact hw
  | succ n ih => unfold State.drainEvents; grind [State.writeResp_wf]

theorem State.answerMail_wf (s : State) (m : MbCmd) (hw : Memory.wf s.mem = true) :
    Memory.wf (State.answerMail s m).mem = true := by
  unfold State.answerMail
  grind [State.mailNext_mem, State.writeResp_wf, State.drainEvents_wf, Memory.wf_memPuts]

theorem State.importFault_wf (s : State) (h : W64) (va : W64) (n : Nat) (right : Nat) (reason : Nat) (pc : W64)
    (agent : Nat) (hw : Memory.wf s.mem = true) :
    Memory.wf (State.importFault s h va n right reason pc agent).mem = true := by
  unfold State.importFault
  grind [State.faultEnd_wf, Memory.wf_memPuts]

theorem State.binit_wf (s : State) (pa : Nat) (counting : Bool) (expect : W32) (scope : Nat) (rpa : Nat) (rlen :
    Nat) (hw : Memory.wf s.mem = true) :
    Memory.wf (State.binit s pa counting expect scope rpa rlen).mem = true := by
  unfold State.binit
  grind [State.destroyBar_wf, State.fireVigils_mem, Memory.wf_memPuts]

theorem State.arriveAt_wf (s : State) (pa : Nat) (t : BitVec 16) (hw : Memory.wf s.mem = true) :
    Memory.wf (State.arriveAt s pa t).mem = true := by
  unfold State.arriveAt
  grind [State.putBar_wf, State.orStatus_wf, State.wakeLeft_mem, Memory.wf_memPuts]

theorem State.arriveNow_wf (s : State) (pa : Nat) (hw : Memory.wf s.mem = true) :
    Memory.wf (State.arriveNow s pa).2.mem = true := by
  unfold State.arriveNow
  grind [State.arriveAt_wf, Memory.wf_memPuts]

@[simp] theorem State.armVigil_mem (s : State) (v : Vigil) :
    (State.armVigil s v).mem = s.mem := by
  unfold State.armVigil
  grind [State.wake_mem]

@[simp] theorem State.futureAt_mem (s : State) (o : Owner) (size8 : Bool) (pa : Nat) :
    (State.futureAt s o size8 pa).mem = s.mem := by
  unfold State.futureAt
  grind [State.armVigil_mem]

@[simp] theorem State.watchArmed_mem (s : State) (h : W64) (f : Nat) :
    (State.watchArmed s h f).mem = s.mem := by
  unfold State.watchArmed
  grind [State.modCtx_mem, State.deliver_mem]

@[simp] theorem State.watchAt_mem (s : State) (o : Owner) (cmp : Nat) (size8 : Bool) (pa : Nat) (mask : W64) (v :
    W64) :
    (State.watchAt s o cmp size8 pa mask v).mem = s.mem := by
  unfold State.watchAt
  grind [State.reply_mem, State.watchArmed_mem, State.armVigil_mem]

theorem State.update_wf (s : State) (pa : Nat) (n : Nat) (old : Nat) (new : Nat) (hw : Memory.wf s.mem = true) :
    Memory.wf (State.update s pa n old new).mem = true := by
  unfold State.update
  grind [State.land_wf, Memory.wf_memPuts]

theorem State.binv_wf (s : State) (pa : Nat) (hw : Memory.wf s.mem = true) :
    Memory.wf (State.binv s pa).mem = true := by
  unfold State.binv
  grind [State.destroyBar_wf, State.fireVigils_mem, Memory.wf_memPuts]

theorem State.arriveCmd_wf (s : State) (pa : Nat) (phase : Option (BitVec 16)) (user : Byte) (fault : Bool) (hw :
    Memory.wf s.mem = true) :
    Memory.wf (State.arriveCmd s pa phase user fault).2.mem = true := by
  unfold State.arriveCmd
  grind [State.orStatus_wf, State.arriveAt_wf, Memory.wf_memPuts]

theorem State.perform_wf (s : State) (o : HomeOp) (hw : Memory.wf s.mem = true) :
    Memory.wf (State.perform s o).mem = true := by
  unfold State.perform
  grind [State.answer_mem, State.reply_mem, State.binit_wf, State.cmdDone_mem, State.arriveNow_wf,
      State.futureAt_mem, State.land_wf, State.watchAt_mem, State.update_wf, State.binv_wf, State.arriveCmd_wf,
          Memory.wf_memPuts]

theorem State.performAt_wf (s : State) (o : HomeOp) (hw : Memory.wf s.mem = true) :
    Memory.wf (State.performAt s o).mem = true := by
  unfold State.performAt
  grind [State.perform_wf, Memory.wf_memPuts]

theorem State.pktMemFault_wf (s : State) (p : PktRef) (pa : Nat) (hw : Memory.wf s.mem = true) :
    Memory.wf (State.pktMemFault s p pa).mem = true := by
  unfold State.pktMemFault
  grind [State.memErr_wf, State.modPacket_mem, State.push_mem, Memory.wf_memPuts]

theorem State.memFault_wf (s : State) (h : W64) (pa : Nat) (pc : W64) (agent : Nat) (n : Nat) (right : Nat) (hw :
    Memory.wf s.mem = true) :
    Memory.wf (State.memFault s h pa pc agent n right).mem = true := by
  unfold State.memFault
  grind [State.memErr_wf, State.faultEnd_wf, Memory.wf_memPuts]

theorem State.cmdFault_wf (s : State) (k : CmdRef) (c : Cmd) (e : AccErr) (hw : Memory.wf s.mem = true) :
    Memory.wf (State.cmdFault s k c e).mem = true := by
  unfold State.cmdFault
  grind [State.accFault_wf, State.modRun_mem, State.settle_wf, State.signal_mem, Memory.wf_memPuts, foldl_wf,
      foldl_mem]

theorem State.cmdMemFault_wf (s : State) (k : CmdRef) (o : HomeOp) (pa : Nat) (hw : Memory.wf s.mem = true) :
    Memory.wf (State.cmdMemFault s k o pa).mem = true := by
  unfold State.cmdMemFault
  grind [State.memFault_wf, State.cmdFault_wf, Memory.wf_memPuts]

theorem State.opFault_wf (s : State) (o : HomeOp) (pa : Nat) (hw : Memory.wf s.mem = true) :
    Memory.wf (State.opFault s o pa).mem = true := by
  unfold State.opFault
  grind [State.memErr_wf, State.pktMemFault_wf, State.cmdMemFault_wf, State.memFault_wf, Memory.wf_memPuts]

theorem State.attempt_wf (s : State) (o : HomeOp) (hw : Memory.wf s.mem = true) :
    Memory.wf (State.attempt s o).mem = true := by
  unfold State.attempt
  grind [State.performAt_wf, State.modCtx_mem, State.opFault_wf, Memory.wf_memPuts]

@[simp] theorem State.raise_mem (s : State) (n : Nat) (arm : Option Arm) :
    (State.raise s n arm).mem = s.mem := by
  unfold State.raise
  grind [State.putTask_mem, State.fresh_mem]

theorem State.armPhase_wf (s : State) (pa : Nat) (tok : W64) (hw : Memory.wf s.mem = true) :
    Memory.wf (State.armPhase s pa tok).mem = true := by
  unfold State.armPhase
  grind [State.attempt_wf, State.raise_mem, Memory.wf_memPuts]

theorem State.armAt_wf (s : State) (e : Extent) (ea : W64) (tok : W64) (hw : Memory.wf s.mem = true) :
    Memory.wf (State.armAt s e ea tok).mem = true := by
  unfold State.armAt
  grind [State.importFault_wf, State.armPhase_wf, State.sendPeer_mem, State.raise_mem, Memory.wf_memPuts]

@[simp] theorem State.armEvents_mem (s : State) (kind : Nat) (src : W64) (n : Nat) :
    (State.armEvents s kind src n).mem = s.mem := by
  unfold State.armEvents
  grind [State.raise_mem]

theorem State.armPark_wf (s : State) (h : W64) (r : Run) (key : Nat) (p : ParkEnt) (hw : Memory.wf s.mem = true) :
    Memory.wf (State.armPark s h r key p).mem = true := by
  unfold State.armPark
  grind [State.attempt_wf, State.sendPeer_mem, State.push_mem, Memory.wf_memPuts]

theorem State.armSlot_wf (s : State) (p : PktRef) (slot : Nat) (va : Nat) (pl : Place) (hw : Memory.wf s.mem = true) :
    Memory.wf (State.armSlot s p slot va pl).mem = true := by
  unfold State.armSlot
  grind [State.attempt_wf, State.sendPeer_mem, Memory.wf_memPuts]

@[simp] theorem State.askPreempt_mem (s : State) (h : W64) :
    (State.askPreempt s h).mem = s.mem := by
  unfold State.askPreempt
  grind [State.askEdge_mem, State.modRun_mem, State.push_mem]

@[simp] theorem State.tickBy_mem (s : State) (n : Nat) :
    (State.tickBy s n).mem = s.mem := by
  unfold State.tickBy
  grind [State.pushAll_mem]

@[simp] theorem State.begin_mem (s : State) :
    (State.begin s).mem = s.mem := by
  unfold State.begin
  grind [State.tickBy_mem]

@[simp] theorem State.beginCmd_mem (s : State) (k : CmdRef) (r : Run) (c : Cmd) :
    (State.beginCmd s k r c).mem = s.mem := by
  unfold State.beginCmd
  grind [State.modCmd_mem, State.push_mem, State.pushAll_mem]

theorem State.sendCtx_mem (s : State) (c : CtxEnt) (va n : Nat) (z : Bool) (kind : HomeKind) (scope : Nat)
    (host pcie : Bool) (o : Owner) : ∀ t, s.sendCtx c va n z kind scope host pcie o = some t → t.mem = s.mem := by
  unfold State.sendCtx
  grind [State.toHome_mem, State.sendPeer_mem]

theorem State.sendCtx_getD_mem (s u : State) (c : CtxEnt) (va n : Nat) (z : Bool) (kind : HomeKind) (scope : Nat)
    (host pcie : Bool) (o : Owner) (hu : u.mem = s.mem) :
    ((s.sendCtx c va n z kind scope host pcie o).getD u).mem = s.mem := by
  have h := State.sendCtx_mem s c va n z kind scope host pcie o
  cases hx : s.sendCtx c va n z kind scope host pcie o with
  | none => exact hu
  | some t => exact h t hx

@[simp] theorem State.dropOne_mem (s : State) (t : TaskRec) (c : Cmd) : (s.dropOne t c).mem = s.mem := by
  unfold State.dropOne
  simp only
  split <;> split <;> simp only [State.sendCtx_getD_mem]

@[simp] theorem State.dropSaved_mem (s : State) (h : W64) :
    (State.dropSaved s h).mem = s.mem := by
  unfold State.dropSaved
  grind [State.dropOne_mem, foldl_mem]

theorem State.endUnplacedRec_wf (s : State) (h : W64) (cause : W64) (i : FaultInfo) (hw : Memory.wf s.mem = true) :
    Memory.wf (State.endUnplacedRec s h cause i).mem = true := by
  unfold State.endUnplacedRec
  grind [State.dropSaved_mem, State.endTask_wf, Memory.wf_memPuts]

theorem State.endUnplaced_wf (s : State) (h : W64) (cause : W64) (tval : W64) (hw : Memory.wf s.mem = true) :
    Memory.wf (State.endUnplaced s h cause tval).mem = true := by
  unfold State.endUnplaced
  grind [State.endUnplacedRec_wf, Memory.wf_memPuts]

theorem State.endEarly_wf (s : State) (h : W64) (code : Nat) (reason : Nat) (tval : Nat) (hw : Memory.wf s.mem =
    true) :
    Memory.wf (State.endEarly s h code reason tval).mem = true := by
  unfold State.endEarly
  grind [State.endUnplaced_wf, Memory.wf_memPuts]

@[simp] theorem State.under_mem (s : State) (t : TaskRec) :
    (State.under s t).mem = s.mem := by
  unfold State.under
  grind

@[simp] theorem State.holdArea_mem (s : State) (e : AlmEnt) :
    (State.holdArea s e).mem = s.mem := by
  unfold State.holdArea
  grind [State.modTask_mem]

@[simp] theorem State.request_mem (s : State) (h : W64) (d : ResDesc) (win : Nat) (hdr : Option ImageHdr) :
    (State.request s h d win hdr).mem = s.mem := by
  unfold State.request
  grind [State.holdArea_mem, State.push_mem, State.modTask_mem]

theorem State.book_wf (s : State) (t : TaskRec) (hw : Memory.wf s.mem = true) :
    Memory.wf (State.book s t).mem = true := by
  unfold State.book
  grind [State.endEarly_wf, State.under_mem, State.request_mem, State.modTask_mem, Memory.wf_memPuts]

@[simp] theorem State.boot_mem (s : State) (b : BringUp) :
    (State.boot s b).mem = s.mem := by
  unfold State.boot
  grind

@[simp] theorem State.putGuest_mem (s : State) (site : Nat) (g : GSite) :
    (State.putGuest s site g).mem = s.mem := by
  unfold State.putGuest
  grind

@[simp] theorem State.present_mem (s : State) (site : Nat) (v : Bool) :
    (State.present s site v).mem = s.mem := by
  unfold State.present
  grind [State.putGuest_mem]

theorem State.guestAuth_wf (s : State) (site : Nat) (i : BootImage) (hw : Memory.wf s.mem = true) :
    Memory.wf (State.guestAuth s site i).mem = true := by
  unfold State.guestAuth
  grind [State.present_mem, State.postEvent_wf, Memory.wf_memPuts]

theorem State.bringUp_wf (s : State) (b : BringUp) (hw : Memory.wf s.mem = true) :
    Memory.wf (s.bringUp b).mem = true := by
  unfold State.bringUp
  have h1 := Memory.wf_filter (fun e => inFar e.1) hw
  simp only
  split
  · grind [State.guestAuth_wf]
  · exact h1

theorem State.bootFrom_wf (s : State) (b : BringUp) (hw : Memory.wf s.mem = true) :
    Memory.wf (State.bootFrom s b).mem = true := by
  unfold State.bootFrom
  grind [State.bringUp_wf, Memory.wf_memPuts]

theorem State.bootStep_wf (s : State) (hw : Memory.wf s.mem = true) :
    Memory.wf (State.bootStep s).mem = true := by
  unfold State.bootStep
  grind [State.bootFrom_wf, Memory.wf_memPuts]

theorem State.ccLeaseFault_wf (s : State) (ea : W64) (n : Nat) (right : Nat) (reason : Nat) (hw : Memory.wf s.mem =
    true) :
    Memory.wf (State.ccLeaseFault s ea n right reason).mem = true := by
  unfold State.ccLeaseFault
  grind [State.faultEnd_wf, Memory.wf_memPuts]

@[simp] theorem State.checkCommit_mem (s : State) (h : W64) :
    (State.checkCommit s h).mem = s.mem := by
  unfold State.checkCommit
  grind [State.pushNew_mem]

@[simp] theorem State.clearDebt_mem (s : State) (h : W64) :
    (State.clearDebt s h).mem = s.mem := by
  unfold State.clearDebt
  grind

theorem State.cmdEnd_wf (s : State) (k : CmdRef) (c : Cmd) (r : Except AccErr Unit) (hw : Memory.wf s.mem = true) :
    Memory.wf (State.cmdEnd s k c r).mem = true := by
  unfold State.cmdEnd
  grind [State.cmdDone_mem, State.cmdFault_wf, Memory.wf_memPuts]

@[simp] theorem State.edgeNews_mem (s : State) (h : W64) :
    (State.edgeNews s h).mem = s.mem := by
  unfold State.edgeNews
  grind [State.clearDebt_mem, State.push_mem]

theorem State.landMasked_wf (s : State) (pa : Nat) (bs : List Byte) (ms : List Byte) (hw : Memory.wf s.mem = true) :
    Memory.wf (State.landMasked s pa bs ms).mem = true := by
  unfold State.landMasked
  grind [State.land_wf, Memory.wf_memPuts]

theorem State.landCommitted_wf (s : State) (h : W64) (agent : Nat) (peer : Option PeerWin) (va : Nat) (a : Nat) (bs
    : List Byte) (ms : List Byte) (hw : Memory.wf s.mem = true) :
    Memory.wf (State.landCommitted s h agent peer va a bs ms).mem = true := by
  unfold State.landCommitted
  grind [State.landMasked_wf, State.push_mem, Memory.wf_memPuts]

theorem State.commitLine_wf (s : State) (h : W64) (key : Nat) (l : ShadowLine) (hw : Memory.wf s.mem = true) :
    Memory.wf (State.commitLine s h key l).mem = true := by
  unfold State.commitLine
  grind [State.modRun_mem, State.landCommitted_wf, Memory.wf_memPuts, foldl_wf, foldl_mem]

theorem State.commitStores_wf (s : State) (h : W64) (n : Nat) (hw : Memory.wf s.mem = true) :
    Memory.wf (State.commitStores s h n).mem = true := by
  unfold State.commitStores
  grind [State.commitLine_wf, State.modRun_mem, State.landCommitted_wf, Memory.wf_memPuts, foldl_wf, foldl_mem]

theorem State.commitAt_wf (s : State) (h : W64) (n : Nat) (hw : Memory.wf s.mem = true) :
    Memory.wf (State.commitAt s h n).mem = true := by
  unfold State.commitAt
  grind [State.edgeNews_mem, State.modRun_mem, State.commitStores_wf, Memory.wf_memPuts]

@[simp] theorem State.compactOne_mem (s : State) (e : AlmEnt) :
    (State.compactOne s e).mem = s.mem := by
  unfold State.compactOne
  grind

@[simp] theorem State.compact_mem (s : State) :
    (State.compact s).mem = s.mem := by
  unfold State.compact
  grind [State.compactOne_mem, foldl_mem]

@[simp] theorem State.copyEvent_mem (s : State) (h : W64) (c : Cmd) :
    (State.copyEvent s h c).mem = s.mem := by
  unfold State.copyEvent
  grind [State.armedEvent_mem]

theorem State.completeCmd_wf (s : State) (k : CmdRef) (hw : Memory.wf s.mem = true) :
    Memory.wf (State.completeCmd s k).mem = true := by
  unfold State.completeCmd
  grind [State.kick_mem, State.cmdDone_mem, State.copyEvent_mem, State.modRun_mem, State.settle_wf,
      State.token_mem, State.signal_mem, Memory.wf_memPuts, foldl_wf, foldl_mem]

@[simp] theorem healRange_mem (s : State) (e : Extent) (va : Nat) (n : Nat) :
    (healRange s e va n).mem = s.mem := by
  unfold healRange
  grind

theorem writeRange_wf (s : State) (e : Extent) (va n : Nat) (bs : List Byte) (hw : Memory.wf s.mem = true) :
    Memory.wf (writeRange s e va n bs).2.mem = true := by
  induction n generalizing s va bs with
  | zero => exact hw
  | succ n ih => unfold writeRange; grind [writePlace_wf]

theorem writeVa_wf (s : State) (lease : List Extent) (va : Nat) (bs : List Byte) (hw : Memory.wf s.mem = true) :
    Memory.wf (writeVa s lease va bs).2.mem = true := by
  unfold writeVa
  grind [healRange_mem, writeRange_wf, Memory.wf_memPuts]

theorem forAcc_mem (l : List Nat) (f : Nat → State → Except AccErr Unit × State)
    (hf : ∀ i s, (f i s).2.mem = s.mem) (s : State) : (forAcc l f s).2.mem = s.mem := by
  induction l generalizing s with
  | nil => rfl
  | cons i l ih => unfold forAcc; grind

theorem forAcc_wf (l : List Nat) (f : Nat → State → Except AccErr Unit × State)
    (hf : ∀ i s, Memory.wf s.mem = true → Memory.wf (f i s).2.mem = true) (s : State) (hw : Memory.wf s.mem = true) :
    Memory.wf (forAcc l f s).2.mem = true := by
  induction l generalizing s with
  | nil => exact hw
  | cons i l ih => unfold forAcc; grind

theorem State.contribEnd_wf (s : State) (c : Contrib) (status : BitVec 2) (hw : Memory.wf s.mem = true) :
    Memory.wf (State.contribEnd s c status).mem = true := by
  unfold State.contribEnd
  grind [State.cmdDone_mem, writeVa_wf, forAcc_wf, forAcc_mem, State.cmdFault_wf, Memory.wf_memPuts]

theorem State.ringResult_wf (s : State) (m : RingMsg) (key : W64) (hw : Memory.wf s.mem = true) :
    Memory.wf (State.ringResult s m key).mem = true := by
  unfold State.ringResult
  grind [State.land_wf, Memory.wf_memPuts]

theorem State.ringSend_wf (s : State) (g : W64) (m : RingMsg) (key : W64) (hw : Memory.wf s.mem = true) :
    Memory.wf (State.ringSend s g m key).mem = true := by
  unfold State.ringSend
  grind [State.ringResult_wf, Memory.wf_memPuts]

theorem State.ringOver_wf (s : State) (c : Contrib) (hw : Memory.wf s.mem = true) :
    Memory.wf (State.ringOver s c).mem = true := by
  unfold State.ringOver
  grind [State.contribEnd_wf, Memory.wf_memPuts]

theorem State.ringStep_wf (s : State) (m : RingMsg) (c : Contrib) (hw : Memory.wf s.mem = true) :
    Memory.wf (State.ringStep s m c).mem = true := by
  unfold State.ringStep
  grind [State.ringSend_wf, State.contribEnd_wf, State.ringOver_wf, Memory.wf_memPuts]

theorem State.ringMatch_wf (s : State) (n : Nat) (hw : Memory.wf s.mem = true) :
    Memory.wf (s.ringMatch n).mem = true := by
  induction n generalizing s with
  | zero => exact hw
  | succ n ih =>
    unfold State.ringMatch
    split
    · exact ih _ (State.ringStep_wf _ _ _ hw)
    · exact hw

theorem State.ringContrib_wf (s : State) (g : W64) (c : Contrib) (hw : Memory.wf s.mem = true) :
    Memory.wf (State.ringContrib s g c).mem = true := by
  unfold State.ringContrib
  grind [State.ringSend_wf, State.ringMatch_wf, State.contribEnd_wf, State.ringOver_wf, Memory.wf_memPuts,
      foldl_wf, foldl_mem]

theorem State.contribSend_wf (s : State) (k : CmdRef) (x : CmdArgs) (p : PeerWin) (off : Nat) (codes : List Nat)
    (resid : List (Nat × W32)) (hw : Memory.wf s.mem = true) :
    Memory.wf (State.contribSend s k x p off codes resid).mem = true := by
  unfold State.contribSend
  grind [State.modCmd_mem, State.ringContrib_wf, Memory.wf_memPuts]

@[simp] theorem State.correctable_mem (s : State) (unit_ : Nat) (pa : Nat) :
    (State.correctable s unit_ pa).mem = s.mem := by
  unfold State.correctable
  grind [State.push_mem]

theorem State.credAt_wf (s : State) (o : HomeOp) (hw : Memory.wf s.mem = true) :
    Memory.wf (State.credAt s o).2.mem = true := by
  unfold State.credAt
  grind [State.performAt_wf, Memory.wf_memPuts]

@[simp] theorem State.credWait_mem (s : State) (k : CmdRef) (refused : Bool) :
    (State.credWait s k refused).mem = s.mem := by
  unfold State.credWait
  grind [State.cmdDone_mem, State.modCmd_mem]

theorem State.dataEnds_wf (s : State) (h : W64) (pa : Nat) (agent : Nat) (hw : Memory.wf s.mem = true) :
    Memory.wf (State.dataEnds s h pa agent).mem = true := by
  unfold State.dataEnds
  grind [State.endUnplaced_wf, State.faultEnd_wf, Memory.wf_memPuts]

theorem State.errTwice_wf (s : State) (pa : Nat) (hw : Memory.wf s.mem = true) :
    Memory.wf (State.errTwice s pa).mem = true := by
  unfold State.errTwice
  grind [State.memErr_wf, Memory.wf_memPuts]

theorem State.rearm_wf (s : State) (h : W64) (hw : Memory.wf s.mem = true) : Memory.wf (s.rearm h).mem = true := by
  unfold State.rearm
  dsimp only
  split
  · exact hw
  · exact foldl_wf _ (fun s e hs => foldl_wf _ (fun s p hs => State.armPark_wf _ _ _ _ _ hs) _ _ hs) _ _ hw

theorem State.rollback_wf (s : State) (h : W64) (hw : Memory.wf s.mem = true) :
    Memory.wf (State.rollback s h).mem = true := by
  unfold State.rollback
  grind [State.modRun_mem, State.rearm_wf, Memory.wf_memPuts]

@[simp] theorem State.launchStreams_mem (s : State) (h : W64) :
    (State.launchStreams s h).mem = s.mem := by
  unfold State.launchStreams
  grind [State.wakeSite_mem, State.pushNew_mem, State.pushAll_mem, foldl_mem]

@[simp] theorem State.openStreams_mem (s : State) (h : W64) (fresh : Bool) :
    (State.openStreams s h fresh).mem = s.mem := by
  unfold State.openStreams
  grind [State.modRun_mem, State.launchStreams_mem, State.checkCommit_mem]

@[simp] theorem State.replay_mem (s : State) (h : W64) :
    (State.replay s h).mem = s.mem := by
  unfold State.replay
  grind [State.openStreams_mem]

theorem State.roundError_wf (s : State) (h : W64) (pa : Nat) (i : FaultInfo) (hw : Memory.wf s.mem = true) :
    Memory.wf (State.roundError s h pa i).mem = true := by
  unfold State.roundError
  grind [State.rollback_wf, State.replay_mem, State.memErr_wf, State.faultEnd_wf, State.push_mem, Memory.wf_memPuts]

theorem State.uncorrected_wf (s : State) (pa : Nat) (use : DataUse) (hw : Memory.wf s.mem = true) :
    Memory.wf (State.uncorrected s pa use).mem = true := by
  unfold State.uncorrected
  grind [State.dataEnds_wf, State.memErr_wf, State.errTwice_wf, State.roundError_wf, Memory.wf_memPuts]

theorem State.dataError_wf (s : State) (e : DataErr) (hw : Memory.wf s.mem = true) :
    Memory.wf (State.dataError s e).mem = true := by
  unfold State.dataError
  grind [State.uncorrected_wf, State.correctable_mem, Memory.wf_memPuts]

theorem mapAcc_mem {α ε : Type} (l : List Nat) (f : Nat → State → Except ε α × State)
    (hf : ∀ i s, (f i s).2.mem = s.mem) (s : State) : (mapAcc l f s).2.mem = s.mem := by
  induction l generalizing s with
  | nil => rfl
  | cons i l ih => unfold mapAcc; grind

theorem mapAcc_wf {α ε : Type} (l : List Nat) (f : Nat → State → Except ε α × State)
    (hf : ∀ i s, Memory.wf s.mem = true → Memory.wf (f i s).2.mem = true) (s : State) (hw : Memory.wf s.mem = true) :
    Memory.wf (mapAcc l f s).2.mem = true := by
  induction l generalizing s with
  | nil => exact hw
  | cons i l ih => unfold mapAcc; grind

theorem readPlace_mem (s : State) (p : Place) (n : Nat) :
    (readPlace s p n).2.mem = s.mem := by
  unfold readPlace
  grind [State.fresh_mem]

theorem readRange_mem (s : State) (e : Extent) (va n k : Nat) : (readRange s e va n k).2.mem = s.mem := by
  induction n generalizing s va k with
  | zero => rfl
  | succ n ih => unfold readRange; grind [readPlace_mem]

theorem readVa_mem (s : State) (lease : List Extent) (va : Nat) (n : Nat) :
    (readVa s lease va n).2.mem = s.mem := by
  unfold readVa
  grind [readRange_mem]

theorem readExt_mem (s : State) (lease : List Extent) (extn : Nat) (k : Nat) (off : Nat) (n : Nat) :
    (readExt s lease extn k off n).2.mem = s.mem := by
  unfold readExt
  grind [readVa_mem]

theorem copymBytes_mem (s : State) (r : Run) (x : CmdArgs) (a : Tid) :
    (copymBytes s r x a).2.mem = s.mem := by
  unfold copymBytes
  grind [readExt_mem]

theorem readElem_mem (s : State) (lease : List Extent) (extn : Nat) (t : Tid) (i0 : Nat) (i1 : Nat) :
    (readElem s lease extn t i0 i1).2.mem = s.mem := by
  unfold readElem
  grind [readExt_mem]

theorem panelRow_mem (r : Run) (c : Cmd) (m : Nat) (s : State) :
    (panelRow r c m s).2.mem = s.mem := by
  unfold panelRow
  grind [mapAcc_mem, mapAcc_mem, readElem_mem]

theorem readScale_mem (s : State) (lease : List Extent) (extn : Nat) (t : Tid) (i0 : Nat) (i1 : Nat) :
    (readScale s lease extn t i0 i1).2.mem = s.mem := by
  unfold readScale
  grind [readExt_mem]

theorem panelScales_mem (r : Run) (c : Cmd) (m : Nat) (s : State) :
    (panelScales r c m s).2.mem = s.mem := by
  unfold panelScales
  grind [readScale_mem, mapAcc_mem, mapAcc_mem]

theorem refill_mem (r : Run) (tile : Nat) (f : FillLog) (s : State) :
    (refill r tile f s).2.mem = s.mem := by
  unfold refill
  grind [mapAcc_mem, mapAcc_mem, State.modRun_mem, copymBytes_mem, panelRow_mem, panelScales_mem]

theorem State.refillAll_wf (s : State) (r : Run) (hw : Memory.wf s.mem = true) :
    Memory.wf (State.refillAll s r).mem = true := by
  unfold State.refillAll
  grind [refill_mem, State.accFault_wf, forAcc_wf, forAcc_mem, Memory.wf_memPuts]

theorem State.resume_wf (s : State) (h : W64) (r : Run) (hw : Memory.wf s.mem = true) :
    Memory.wf (State.resume s h r).mem = true := by
  unfold State.resume
  grind [State.kick_mem, State.replay_mem, State.refillAll_wf, State.push_mem, State.rearm_wf, Memory.wf_memPuts]

theorem State.dispatchTask_wf (s : State) (t : TaskRec) (e : AlmEnt) (hw : Memory.wf s.mem = true) :
    Memory.wf (State.dispatchTask s t e).mem = true := by
  unfold State.dispatchTask
  grind [State.putTask_mem, State.fresh_mem, State.resume_wf, State.addRun_mem, State.push_mem, Memory.wf_memPuts]

@[simp] theorem State.flushPlace_mem (s : State) (p : Place) :
    (State.flushPlace s p).mem = s.mem := by
  unfold State.flushPlace
  grind

theorem State.performFlush_wf (s : State) (h : W64) (r : Run) (a : Access) (hw : Memory.wf s.mem = true) :
    Memory.wf (State.performFlush s h r a).mem = true := by
  unfold State.performFlush
  grind [State.deliver_mem, State.accLease_wf, State.flushPlace_mem, Memory.wf_memPuts]

theorem State.performStore_wf (s : State) (h : W64) (r : Run) (a : Access) (bs : List Byte) (hw : Memory.wf s.mem =
    true) :
    Memory.wf (State.performStore s h r a bs).mem = true := by
  unfold State.performStore
  grind [State.importFault_wf, writePlace_wf, State.deliver_mem, State.accLease_wf, Memory.wf_memPuts]

theorem State.performLoad_wf (s : State) (h : W64) (r : Run) (a : Access) (n : Nat) (hw : Memory.wf s.mem = true) :
    Memory.wf (State.performLoad s h r a n).mem = true := by
  unfold State.performLoad
  grind [State.importFault_wf, State.memFault_wf, State.deliver_mem, State.accLease_wf, readPlace_mem,
      Memory.wf_memPuts]

theorem State.send_wf (s : State) (h : W64) (p : Place) (ea : W64) (size8 : Bool) (kind : HomeKind) (scope : Nat)
    (n : Nat) (needW : Bool) (o : Owner) (hw : Memory.wf s.mem = true) :
    Memory.wf (State.send s h p ea size8 kind scope n needW o).mem = true := by
  unfold State.send
  grind [State.importFault_wf, State.sendPeer_mem, State.toHome_mem, Memory.wf_memPuts]

theorem State.performSync_wf (s : State) (h : W64) (r : Run) (a : Access) (size8 : Bool) (kind : HomeKind) (scope :
    Nat) (n : Nat) (needR : Bool) (needW : Bool) (hw : Memory.wf s.mem = true) :
    Memory.wf (State.performSync s h r a size8 kind scope n needR needW).mem = true := by
  unfold State.performSync
  grind [State.memFault_wf, State.modRun_mem, State.accLease_wf, State.send_wf, Memory.wf_memPuts]

theorem State.drain_wf (s : State) (h : W64) (hw : Memory.wf s.mem = true) :
    Memory.wf (State.drain s h).mem = true := by
  unfold State.drain
  grind [State.performFlush_wf, State.performStore_wf, State.performLoad_wf, State.performSync_wf, Memory.wf_memPuts]

@[simp] theorem State.dropGuest_mem (s : State) (k : CmdRef) :
    (State.dropGuest s k).mem = s.mem := by
  unfold State.dropGuest
  grind [State.modRun_mem, State.signal_mem]

@[simp] theorem State.dropSlots_mem (s : State) (r : PktRef) (p : Packet) :
    (State.dropSlots s r p).mem = s.mem := by
  unfold State.dropSlots
  grind

@[simp] theorem State.elemDone_mem (s : State) (k : CmdRef) :
    (State.elemDone s k).mem = s.mem := by
  unfold State.elemDone
  grind [State.cmdDone_mem]

@[simp] theorem State.portSend_mem (s : State) (h : W64) (k : Nat) (r : Run) (p : Port) (lanes : List Rec) :
    (State.portSend s h k r p lanes).mem = s.mem := by
  unfold State.portSend
  grind [State.putPort_mem, State.toInput_mem]

theorem State.regionAcc_wf (s : State) (h : W64) (i : FaultInfo) (e : AccErr) (hw : Memory.wf s.mem = true) :
    Memory.wf (State.regionAcc s h i e).mem = true := by
  unfold State.regionAcc
  grind [State.accFault_wf, State.roundError_wf, Memory.wf_memPuts]

@[simp] theorem State.portDusk_mem (s : State) (h : W64) (k : Nat) (r : Run) (p : Port) :
    (State.portDusk s h k r p).mem = s.mem := by
  unfold State.portDusk
  grind [State.putPort_mem, State.toInput_mem]

theorem State.emitAffine_wf (s : State) (h : W64) (k : Nat) (r : Run) (p : Port) (hw : Memory.wf s.mem = true) :
    Memory.wf (State.emitAffine s h k r p).mem = true := by
  unfold State.emitAffine
  grind [State.portSend_mem, State.pushNew_mem, State.regionAcc_wf, State.portDusk_mem, Memory.wf_memPuts]

@[simp] theorem State.emitExact_mem (s : State) (h : W64) (st : Site) (out : Nat) (n : Nat) (recs : List Rec) :
    (State.emitExact s h st out n recs).mem = s.mem := by
  unfold State.emitExact
  grind [State.emit_mem, foldl_mem]

@[simp] theorem State.emitPlaced_mem (s : State) (h : W64) (st : Site) (out : Nat) (l : List (Nat × Rec)) :
    (State.emitPlaced s h st out l).mem = s.mem := by
  unfold State.emitPlaced
  grind [State.emit_mem]

@[simp] theorem State.emitMb_mem (s : State) (h : W64) (r : Run) (st : Site) (d : List (Nat × Rec)) (l : List (Nat
    × Rec)) :
    (State.emitMb s h r st d l).mem = s.mem := by
  unfold State.emitMb
  grind [State.emitPlaced_mem, foldl_mem]

theorem wordFields_mem (s : State) (r : Run) (ext : Nat) (off : Nat) (n : Nat) :
    (wordFields s r ext off n).2.mem = s.mem := by
  unfold wordFields
  grind [readExt_mem]

theorem metaRec_mem (r : Run) (p : Port) (n : Nat) (s : State) :
    (metaRec r p n s).2.mem = s.mem := by
  unfold metaRec
  grind [wordFields_mem]

theorem metaRecs_mem (r : Run) (p : Port) (l : List Nat) (s : State) : (metaRecs r p l s).2.mem = s.mem := by
  induction l generalizing s with
  | nil => rfl
  | cons n l ih => unfold metaRecs; grind [metaRec_mem]

theorem metaLanes_mem (s : State) (r : Run) (p : Port) (count : Nat) :
    (metaLanes s r p count).2.mem = s.mem := by
  unfold metaLanes
  grind [metaRecs_mem, readExt_mem]

theorem metaCount_mem (s : State) (r : Run) (p : Port) :
    (metaCount s r p).2.mem = s.mem := by
  unfold metaCount
  grind [readExt_mem]

theorem State.emitMeta_wf (s : State) (h : W64) (k : Nat) (r : Run) (p : Port) (hw : Memory.wf s.mem = true) :
    Memory.wf (State.emitMeta s h k r p).mem = true := by
  unfold State.emitMeta
  grind [State.portSend_mem, State.pushNew_mem, metaLanes_mem, metaCount_mem, State.regionAcc_wf,
      State.portDusk_mem, Memory.wf_memPuts]

@[simp] theorem State.emitPacked_mem (s : State) (h : W64) (st : Site) (out : Nat) (recs : List Rec) :
    (State.emitPacked s h st out recs).mem = s.mem := by
  unfold State.emitPacked
  grind [State.emit_mem, foldl_mem]

@[simp] theorem State.emitPush_mem (s : State) (h : W64) (k : Nat) (r : Run) (p : Port) :
    (State.emitPush s h k r p).mem = s.mem := by
  unfold State.emitPush
  grind [State.portSend_mem, State.pushNew_mem, State.kickAll_mem, State.portDusk_mem]

@[simp] theorem State.emitSent_mem (s : State) (h : W64) (st : Site) (always : List Nat) (l : List Sent) :
    (State.emitSent s h st always l).mem = s.mem := by
  unfold State.emitSent
  grind [State.emit_mem, foldl_mem]

@[simp] theorem State.endPacket_mem (s : State) (r : PktRef) (ok : Bool) :
    (State.endPacket s r ok).mem = s.mem := by
  unfold State.endPacket
  grind [State.modPacket_mem, State.push_mem]

@[simp] theorem State.modAll_mem (s : State) (f : Run → Run) :
    (State.modAll s f).mem = s.mem := by
  unfold State.modAll
  grind

@[simp] theorem State.losePush_mem (s : State) (h : W64) (hit : Nat → Bool) :
    (State.losePush s h hit).mem = s.mem := by
  unfold State.losePush
  grind [State.modAll_mem, State.kickAll_mem]

@[simp] theorem State.endStage_mem (s : State) (h : W64) :
    (State.endStage s h).mem = s.mem := by
  unfold State.endStage
  grind [State.cmdDone_mem, State.modRun_mem, State.losePush_mem]

theorem State.endPass_wf (s : State) (h : W64) (hw : Memory.wf s.mem = true) :
    Memory.wf (State.endPass s h).mem = true := by
  unfold State.endPass
  grind [State.edgeNews_mem, State.endStage_mem, State.modRun_mem, State.openStreams_mem, State.commitStores_wf,
      Memory.wf_memPuts]

@[simp] theorem State.endSlot_mem (s : State) (e : AlmEnt) :
    (State.endSlot s e).mem = s.mem := by
  unfold State.endSlot
  grind [State.askPreempt_mem]

@[simp] theorem State.enter_mem (s : State) (q : Req) (e : AlmEnt) :
    (State.enter s q e).mem = s.mem := by
  unfold State.enter
  grind [State.holdArea_mem]

@[simp] theorem State.putQueue_mem (s : State) (n : Nat) (q : Queue) :
    (State.putQueue s n q).mem = s.mem := by
  unfold State.putQueue
  grind

@[simp] theorem State.startPacket_mem (s : State) (n : Nat) (q : Queue) (p : Packet) :
    (State.startPacket s n q p).mem = s.mem := by
  unfold State.startPacket
  grind [State.modPacket_mem, State.push_mem]

theorem State.serveQueue_mem (s : State) (q n : Nat) : (s.serveQueue q n).mem = s.mem := by
  induction n generalizing s with
  | zero => rfl
  | succ n ih => unfold State.serveQueue; grind [State.putQueue_mem, State.startPacket_mem]

@[simp] theorem State.feRound_mem (s : State) :
    (State.feRound s).mem = s.mem := by
  unfold State.feRound
  grind [State.putQueue_mem, State.serveQueue_mem, foldl_mem]

theorem State.feServe_mem (s : State) (n : Nat) : (s.feServe n).mem = s.mem := by
  induction n generalizing s with
  | zero => rfl
  | succ n ih => unfold State.feServe; grind [State.feRound_mem]

theorem State.writeRd_wf (s : State) (q : Queue) (hw : Memory.wf s.mem = true) :
    Memory.wf (State.writeRd s q).mem = true := by
  unfold State.writeRd
  grind [State.land_wf, Memory.wf_memPuts]

theorem State.queueError_wf (s : State) (n : Nat) (q : Queue) (hw : Memory.wf s.mem = true) :
    Memory.wf (State.queueError s n q).mem = true := by
  unfold State.queueError
  grind [State.putQueue_mem, State.postEvent_wf, Memory.wf_memPuts]

theorem State.fetchPacket_wf (s : State) (n : Nat) (hw : Memory.wf s.mem = true) :
    Memory.wf (State.fetchPacket s n).mem = true := by
  unfold State.fetchPacket
  grind [State.putQueue_mem, State.writeRd_wf, State.errTwice_wf, State.queueError_wf, State.push_mem,
      Memory.wf_memPuts]

@[simp] theorem State.forgetGuest_mem (s : State) (n : Nat) :
    (State.forgetGuest s n).mem = s.mem := by
  unfold State.forgetGuest
  grind

@[simp] theorem State.forward_mem (s : State) (h : W64) (r : Run) (st : Site) (m : Msg) :
    (State.forward s h r st m).mem = s.mem := by
  unfold State.forward
  grind [State.emit_mem, foldl_mem]

@[simp] theorem State.modTag_mem (s : State) (site : Nat) (tag : Nat) (f : GTag → GTag) :
    (State.modTag s site tag f).mem = s.mem := by
  unfold State.modTag
  grind [State.putGuest_mem]

@[simp] theorem State.freeTag_mem (s : State) (site : Nat) (tag : Nat) :
    (State.freeTag s site tag).mem = s.mem := by
  unfold State.freeTag
  grind [State.modTag_mem]

@[simp] theorem State.giveWay_mem (s : State) :
    (State.giveWay s).mem = s.mem := by
  unfold State.giveWay
  grind [State.modCc_mem, State.push_mem]

@[simp] theorem State.guestRefuse_mem (s : State) (g : GuestAcc) :
    (State.guestRefuse s g).mem = s.mem := by
  unfold State.guestRefuse
  grind

theorem State.guestDo_wf (s : State) (g : GuestAcc) (pa : Nat) (hw : Memory.wf s.mem = true) :
    Memory.wf (State.guestDo s g pa).mem = true := by
  unfold State.guestDo
  grind [State.land_wf, State.guestRefuse_mem, State.errTwice_wf, Memory.wf_memPuts]

theorem State.guestCause_wf (s : State) (k : CmdRef) (cause : W64) (i : FaultInfo) (hw : Memory.wf s.mem = true) :
    Memory.wf (State.guestCause s k cause i).mem = true := by
  unfold State.guestCause
  grind [State.endUnplacedRec_wf, State.faultEnd_wf, Memory.wf_memPuts]

theorem State.guestDeny_wf (s : State) (g : GuestAcc) (t : GTag) (reason : Nat) (hw : Memory.wf s.mem = true) :
    Memory.wf (State.guestDeny s g t reason).mem = true := by
  unfold State.guestDeny
  grind [State.guestRefuse_mem, State.guestCause_wf, Memory.wf_memPuts]

theorem State.guestSave_wf (s : State) (g : GuestAcc) (t : GTag) (hw : Memory.wf s.mem = true) :
    Memory.wf (State.guestSave s g t).mem = true := by
  unfold State.guestSave
  grind [State.guestDo_wf, State.guestDeny_wf, Memory.wf_memPuts]

theorem State.guestUse_wf (s : State) (g : GuestAcc) (t : GTag) (hw : Memory.wf s.mem = true) :
    Memory.wf (State.guestUse s g t).mem = true := by
  unfold State.guestUse
  grind [State.guestDo_wf, State.guestDeny_wf, Memory.wf_memPuts]

@[simp] theorem State.pinGuest_mem (s : State) (site : Nat) (tag : Nat) (va : Nat) :
    (State.pinGuest s site tag va).mem = s.mem := by
  unfold State.pinGuest
  grind [State.modTag_mem]

theorem State.guestAccess_wf (s : State) (g : GuestAcc) (hw : Memory.wf s.mem = true) :
    Memory.wf (State.guestAccess s g).mem = true := by
  unfold State.guestAccess
  grind [State.guestSave_wf, State.guestRefuse_mem, State.guestUse_wf, State.pinGuest_mem, Memory.wf_memPuts]

@[simp] theorem State.guestComplete_mem (s : State) (site : Nat) (tag : Nat) :
    (State.guestComplete s site tag).mem = s.mem := by
  unfold State.guestComplete
  grind [State.cmdDone_mem, State.freeTag_mem]

theorem State.guestEnd_wf (s : State) (k : CmdRef) (cause : W64) (i : FaultInfo) (hw : Memory.wf s.mem = true) :
    Memory.wf (State.guestEnd s k cause i).mem = true := by
  unfold State.guestEnd
  grind [State.dropGuest_mem, State.settle_wf, State.guestCause_wf, Memory.wf_memPuts]

theorem State.guestFault_wf (s : State) (site : Nat) (tag : Nat) (hw : Memory.wf s.mem = true) :
    Memory.wf (State.guestFault s site tag).mem = true := by
  unfold State.guestFault
  grind [State.dropGuest_mem, State.settle_wf, State.freeTag_mem, State.faultEnd_wf, Memory.wf_memPuts]

@[simp] theorem State.packetLost_mem (s : State) (p : PktRef) (abort : Bool) :
    (State.packetLost s p abort).mem = s.mem := by
  unfold State.packetLost
  grind [State.modPacket_mem, State.push_mem]

theorem State.guestLost_wf (s : State) (site : Nat) (t : GTag) (hw : Memory.wf s.mem = true) :
    Memory.wf (State.guestLost s site t).mem = true := by
  unfold State.guestLost
  grind [State.packetLost_mem, State.guestEnd_wf, Memory.wf_memPuts]

theorem State.guestReset_wf (s : State) (site : Nat) (hw : Memory.wf s.mem = true) :
    Memory.wf (State.guestReset s site).mem = true := by
  unfold State.guestReset
  grind [State.present_mem, State.postEvent_wf, State.putGuest_mem, State.guestLost_wf, Memory.wf_memPuts,
      foldl_wf, foldl_mem]

theorem State.guestSaved_wf (s : State) (site : Nat) (tag : Nat) (k : CmdRef) (hw : Memory.wf s.mem = true) :
    Memory.wf (State.guestSaved s site tag k).mem = true := by
  unfold State.guestSaved
  grind [State.dropGuest_mem, State.settle_wf, State.modCmd_mem, State.freeTag_mem, State.modTag_mem,
      Memory.wf_memPuts]

theorem State.holdGuest_wf (s : State) (k : CmdRef) (hw : Memory.wf s.mem = true) :
    Memory.wf (State.holdGuest s k).mem = true := by
  unfold State.holdGuest
  grind [State.settle_wf, State.modCmd_mem, Memory.wf_memPuts]

theorem State.hostAtomic_wf (s : State) (pa : Nat) (z : Bool) (op : Nat) (v : W64) (cmp : W64) (hw : Memory.wf
    s.mem = true) :
    Memory.wf (State.hostAtomic s pa z op v cmp).mem = true := by
  unfold State.hostAtomic
  grind [State.land_wf, Memory.wf_memPuts]

@[simp] theorem State.hostTake_mem (s : State) (pa : Nat) (z : Bool) :
    (State.hostTake s pa z).mem = s.mem := by
  unfold State.hostTake
  grind

theorem State.inReset_wf (s : State) (hw : Memory.wf s.mem = true) : Memory.wf s.inReset.mem = true :=
  Memory.wf_filter _ hw

theorem answerCont_mem (r : Run) (p : Port) (x : W32) (i : Nat) (s : State) :
    (answerCont r p x i s).2.mem = s.mem := by
  unfold answerCont
  grind [readVa_mem]

theorem answerLane_mem (r : Run) (p : Port) (b : Bundle) (l : Nat) (s : State) :
    (answerLane r p b l s).2.mem = s.mem := by
  unfold answerLane
  grind [mapAcc_mem, mapAcc_mem, answerCont_mem]

theorem State.indexStep_wf (s : State) (h : W64) (k : Nat) (r : Run) (p : Port) (m : Msg) (hw : Memory.wf s.mem =
    true) :
    Memory.wf (State.indexStep s h k r p m).mem = true := by
  unfold State.indexStep
  grind [State.toInput_mem, mapAcc_wf, mapAcc_mem, answerLane_mem, State.regionAcc_wf, State.portDusk_mem,
      Memory.wf_memPuts]

@[simp] theorem State.queueAcc_mem (s : State) (id : Nat) (ea : W64) (kind : AccKind) (sent : Bool) :
    (State.queueAcc s id ea kind sent).mem = s.mem := by
  unfold State.queueAcc
  grind [State.modCc_mem]

theorem State.issueSync_wf (s : State) (id : Nat) (e : Extent) (ea : W64) (size8 : Bool) (kind : HomeKind) (scope :
    Nat) (n : Nat) (needR : Bool) (needW : Bool) (hw : Memory.wf s.mem = true) :
    Memory.wf (State.issueSync s id e ea size8 kind scope n needR needW).mem = true := by
  unfold State.issueSync
  grind [State.queueAcc_mem, State.send_wf, Memory.wf_memPuts]

@[simp] theorem State.jump_mem (s : State) (target : W64) :
    (State.jump s target).mem = s.mem := by
  unfold State.jump
  grind [State.modCc_mem]

@[simp] theorem State.l1Put_mem (s : State) (h : W64) (k : Nat) (room : Nat) (line : Nat) (wait : List Rec) :
    (State.l1Put s h k room line wait).mem = s.mem := by
  unfold State.l1Put
  grind

@[simp] theorem State.l1Seen_mem (s : State) (h : W64) (k : Nat) (lines : List Nat) (q : Rec) :
    (State.l1Seen s h k lines q).mem = s.mem := by
  unfold State.l1Seen
  grind

theorem State.landed_wf (s : State) (k : CmdRef) (c : Cmd) (hw : Memory.wf s.mem = true) :
    Memory.wf (State.landed s k c).mem = true := by
  unfold State.landed
  grind [State.cmdDone_mem, State.settle_wf, State.modCmd_mem, State.push_mem, Memory.wf_memPuts]

theorem State.leaseWait_wf (s : State) (t : TaskRec) (va : Nat) (hw : Memory.wf s.mem = true) :
    Memory.wf (State.leaseWait s t va).mem = true := by
  unfold State.leaseWait
  grind [State.postEvent_wf, Memory.wf_memPuts]

theorem State.leased_wf (s : State) (t : TaskRec) (x2 : LeaseRes) (hw : Memory.wf s.mem = true) :
    Memory.wf (State.leased s t x2).mem = true := by
  unfold State.leased
  grind [State.book_wf, State.endEarly_wf, State.leaseWait_wf, State.modTask_mem, Memory.wf_memPuts]

theorem State.regionFault_wf (s : State) (h : W64) (code : Nat) (reason : Nat) (i : FaultInfo) (hw : Memory.wf
    s.mem = true) :
    Memory.wf (State.regionFault s h code reason i).mem = true := by
  unfold State.regionFault
  grind [State.rollback_wf, State.cmdDone_mem, State.modRun_mem, State.losePush_mem, State.urgent_mem,
      Memory.wf_memPuts, foldl_wf, foldl_mem]

theorem State.loadStage_wf (s : State) (k : CmdRef) (c : Cmd) (r : Run) (hd : ImageHdr) (stages : List (List Blk))
    (hw : Memory.wf s.mem = true) :
    Memory.wf (State.loadStage s k c r hd stages).mem = true := by
  unfold State.loadStage
  grind [State.rollback_wf, State.replay_mem, State.clearDebt_mem, State.regionFault_wf, State.endStage_mem,
      State.modRun_mem, State.modCmd_mem, State.openStreams_mem, Memory.wf_memPuts]

theorem State.mailAnswer_wf (s : State) (m : MbCmd) (ok : Bool) (hw : Memory.wf s.mem = true) :
    Memory.wf (State.mailAnswer s m ok).mem = true := by
  unfold State.mailAnswer
  grind [State.answerMail_wf, Memory.wf_memPuts]

@[simp] theorem State.markAt_mem (s : State) (h : W64) (r : Run) (st : Site) (n : Nat) :
    (State.markAt s h r st n).mem = s.mem := by
  unfold State.markAt
  grind [State.wakeSite_mem, State.putSite_mem, State.modRun_mem, State.forward_mem, State.checkCommit_mem]

@[simp] theorem State.mark_mem (s : State) (h : W64) (r : Run) (st : Site) :
    (State.mark s h r st).mem = s.mem := by
  unfold State.mark
  grind [State.markAt_mem]

@[simp] theorem State.markSite_mem (s : State) (h : W64) (key : Nat) :
    (State.markSite s h key).mem = s.mem := by
  unfold State.markSite
  grind [State.mark_mem]

theorem State.newTask_mem (s : State) (die : Nat) (ws : List W64) (ctx : Nat) (parent : W64) (prio : Nat) (arg :
    W64) :
    ∀ x t, State.newTask s die ws ctx parent prio arg = some (x, t) → t.mem = s.mem := by
  unfold State.newTask
  grind [State.putTask_mem, State.makeReady_mem]

theorem State.wwaitAt_wf (s : State) (k : CmdRef) (c : Cmd) (pa : Nat) (hw : Memory.wf s.mem = true) :
    Memory.wf (State.wwaitAt s k c pa).mem = true := by
  unfold State.wwaitAt
  grind [State.attempt_wf, Memory.wf_memPuts]

theorem State.waitCmd_wf (s : State) (k : CmdRef) (r : Run) (c : Cmd) (hw : Memory.wf s.mem = true) :
    Memory.wf (State.waitCmd s k r c).mem = true := by
  unfold State.waitCmd
  grind [State.wwaitAt_wf, State.sendPeer_mem, State.cmdFault_wf, Memory.wf_memPuts]

theorem State.readPacket_wf (s : State) (k : CmdRef) (r : Run) (c : Cmd) (hw : Memory.wf s.mem = true) :
    Memory.wf (State.readPacket s k r c).mem = true := by
  unfold State.readPacket
  grind [State.modCmd_mem, State.push_mem, readExt_mem, State.cmdFault_wf, Memory.wf_memPuts]

theorem State.nextStart_wf (s : State) (k : CmdRef) (r : Run) (c : Cmd) (hw : Memory.wf s.mem = true) :
    Memory.wf (State.nextStart s k r c).mem = true := by
  unfold State.nextStart
  grind [State.beginCmd_mem, State.waitCmd_wf, State.readPacket_wf, Memory.wf_memPuts]

theorem State.number_mem (s : State) :
    (State.number s).2.mem = s.mem := by
  unfold State.number
  grind [State.modCc_mem]

theorem State.overrunEnd_wf (s : State) (r : Run) (hw : Memory.wf s.mem = true) :
    Memory.wf (State.overrunEnd s r).mem = true := by
  unfold State.overrunEnd
  grind [State.faultEnd_wf, Memory.wf_memPuts]

@[simp] theorem State.packetSignal_mem (s : State) (ctx : Nat) (p : Packet) (ok : Bool) :
    (s.packetSignal ctx p ok).mem = s.mem := by
  unfold State.packetSignal
  split
  · rfl
  · exact State.sendCtx_getD_mem _ _ _ _ _ _ _ _ _ _ _ rfl

@[simp] theorem State.packetDone_mem (s : State) (r : PktRef) :
    (State.packetDone s r).mem = s.mem := by
  unfold State.packetDone
  grind [State.putQueue_mem, State.dropSlots_mem, State.feServe_mem, State.packetSignal_mem]

@[simp] theorem State.refreshClaim_mem (s : State) :
    (State.refreshClaim s).mem = s.mem := by
  unfold State.refreshClaim
  grind

@[simp] theorem State.takeClaim_mem (s : State) (q : Req) :
    (State.takeClaim s q).mem = s.mem := by
  unfold State.takeClaim
  grind

@[simp] theorem State.passOne_mem (s : State) (q : Req) :
    (State.passOne s q).mem = s.mem := by
  unfold State.passOne
  grind [State.takeClaim_mem, State.refreshClaim_mem, State.enter_mem]

@[simp] theorem State.pass_mem (s : State) :
    (State.pass s).mem = s.mem := by
  unfold State.pass
  grind [State.compact_mem, State.refreshClaim_mem, State.passOne_mem, foldl_mem]

@[simp] theorem State.passMarker_mem (s : State) (h : W64) (r : Run) (st : Site) (n : BitVec 8) :
    (State.passMarker s h r st n).mem = s.mem := by
  unfold State.passMarker
  grind [State.putSite_mem, State.forward_mem, State.emitPacked_mem, State.checkCommit_mem]

theorem State.peerDo_wf (s : State) (m : PeerMsg) (pa : Nat) (rpa : Nat) (hw : Memory.wf s.mem = true) :
    Memory.wf (State.peerDo s m pa rpa).mem = true := by
  unfold State.peerDo
  grind [State.landMasked_wf, State.land_wf, State.errTwice_wf, State.toHome_mem, Memory.wf_memPuts]

@[simp] theorem State.wwaitDone_mem (s : State) (k : CmdRef) (v : W64) :
    (State.wwaitDone s k v).mem = s.mem := by
  unfold State.wwaitDone
  grind [State.cmdDone_mem, State.modCmd_mem, State.push_mem]

@[simp] theorem State.peerDone_mem (s : State) (w : PeerWait) (v : W64) :
    (State.peerDone s w v).mem = s.mem := by
  unfold State.peerDone
  grind [State.cmdDone_mem, State.fireSlot_mem, State.unpark_mem, State.wwaitDone_mem, State.modPacket_mem,
      State.countDown_mem, State.elemDone_mem, State.push_mem, State.vigilWake_mem, State.deliver_mem]

theorem State.refused_wf (s : State) (h : W64) (va : W64) (n : Nat) (right : Nat) (reason : Nat) (pc : W64) (agent
    : Nat) (hw : Memory.wf s.mem = true) :
    Memory.wf (State.refused s h va n right reason pc agent).mem = true := by
  unfold State.refused
  grind [State.importFault_wf, State.endUnplacedRec_wf, Memory.wf_memPuts]

theorem State.peerFailed_wf (s : State) (w : PeerWait) (reason : Nat) (hw : Memory.wf s.mem = true) :
    Memory.wf (State.peerFailed s w reason).mem = true := by
  unfold State.peerFailed
  grind [State.endPacket_mem, State.refused_wf, State.cmdFault_wf, Memory.wf_memPuts]

@[simp] theorem State.peerRefuse_mem (s : State) (m : PeerMsg) (reason : Nat) :
    (State.peerRefuse s m reason).mem = s.mem := by
  unfold State.peerRefuse
  grind

theorem State.peerReply_wf (s : State) (id : Nat) (reason : Nat) (v : W64) (hw : Memory.wf s.mem = true) :
    Memory.wf (State.peerReply s id reason v).mem = true := by
  unfold State.peerReply
  grind [State.watchArmed_mem, State.peerDone_mem, State.peerFailed_wf, Memory.wf_memPuts]

theorem State.performFirst_wf (s : State) (hw : Memory.wf s.mem = true) :
    Memory.wf (State.performFirst s).mem = true := by
  unfold State.performFirst
  grind [State.attempt_wf, Memory.wf_memPuts]

@[simp] theorem State.pinLine_mem (k : CmdRef) (c : Cmd) (s : State) (pa : Nat) :
    (State.pinLine k c s pa).mem = s.mem := by
  unfold State.pinLine
  grind [State.modRun_mem]

@[simp] theorem State.sendGuest_mem (s : State) (site : Nat) (tag : Nat) (owner : Owner) (ws : List W64) (resume :
    Bool) (ctx : Nat) (abort : Bool) :
    (State.sendGuest s site tag owner ws resume ctx abort).mem = s.mem := by
  unfold State.sendGuest
  grind [State.putGuest_mem]

@[simp] theorem State.postGuest_mem (s : State) (k : CmdRef) (site : Nat) (tag : Nat) (ws : List W64) (resume :
    Bool) :
    (State.postGuest s k site tag ws resume).mem = s.mem := by
  unfold State.postGuest
  grind [State.sendGuest_mem, State.modCmd_mem]

@[simp] theorem State.preemptAgain_mem (s : State) (r : Run) :
    (State.preemptAgain s r).mem = s.mem := by
  unfold State.preemptAgain
  grind [State.askEdge_mem, State.push_mem]

theorem State.preemptNow_wf (s : State) (r : Run) (hw : Memory.wf s.mem = true) :
    Memory.wf (State.preemptNow s r).mem = true := by
  unfold State.preemptNow
  grind [State.rollback_wf, State.askGuests_mem, State.cmdDone_mem, State.modRun_mem, State.settle_wf,
      Memory.wf_memPuts, foldl_wf, foldl_mem]

@[simp] theorem State.probe_mem (s : State) :
    (State.probe s).mem = s.mem := by
  unfold State.probe
  grind [State.modCc_mem]

@[simp] theorem State.pushTo_mem (bs : List Byte) (s : State) (q : W64 × Nat) :
    (State.pushTo bs s q).mem = s.mem := by
  unfold State.pushTo
  grind [State.modRun_mem, State.push_mem]

theorem State.pushRows_wf (s : State) (k : CmdRef) (i : Instr) (r : Run) (c : Cmd) (recv : List (W64 × Nat)) (bad :
    Bool) (hw : Memory.wf s.mem = true) :
    Memory.wf (State.pushRows s k i r c recv bad).mem = true := by
  unfold State.pushRows
  grind [State.pushTo_mem, State.cmdDone_mem, State.modCmd_mem, State.push_mem, readExt_mem, State.cmdFault_wf,
      Memory.wf_memPuts, foldl_wf, foldl_mem]

@[simp] theorem State.recallPins_mem (s : State) (ctx : Nat) (va : Nat) (n : Nat) :
    (State.recallPins s ctx va n).mem = s.mem := by
  unfold State.recallPins
  grind

@[simp] theorem State.recallRuns_mem (s : State) (ctx : Nat) (va : Nat) (n : Nat) :
    (State.recallRuns s ctx va n).mem = s.mem := by
  unfold State.recallRuns
  grind [State.askPreempt_mem, foldl_mem]

@[simp] theorem State.recallTags_mem (s : State) (ctx : Nat) (va : Nat) (n : Nat) :
    (State.recallTags s ctx va n).mem = s.mem := by
  unfold State.recallTags
  grind [State.recallPins_mem, State.leaseEnds_mem, foldl_mem]

@[simp] theorem State.recircDusk0_mem (s : State) (h : W64) (st : Site) (final : Bool) (q : List Msg) :
    (State.recircDusk0 s h st final q).mem = s.mem := by
  unfold State.recircDusk0
  grind [State.putSite_mem, State.emit_mem]

@[simp] theorem State.recircDusk1_mem (s : State) (h : W64) (r : Run) (st : Site) (final : Bool) (q : List Msg) :
    (State.recircDusk1 s h r st final q).mem = s.mem := by
  unfold State.recircDusk1
  grind [State.putSite_mem, State.forward_mem, State.checkCommit_mem, State.emit_mem]

@[simp] theorem State.recircMarker_mem (s : State) (h : W64) (r : Run) (st : Site) :
    (State.recircMarker s h r st).mem = s.mem := by
  unfold State.recircMarker
  grind [State.putSite_mem, State.forward_mem, State.checkCommit_mem]

theorem State.recircStep_wf (s : State) (h : W64) (r : Run) (st : Site) (x : SiteArgs) (hw : Memory.wf s.mem = true) :
    Memory.wf (State.recircStep s h r st x).mem = true := by
  unfold State.recircStep
  grind [State.pushNew_mem, State.regionFault_wf, State.modRun_mem, State.emitPacked_mem, State.emit_mem,
      Memory.wf_memPuts]

@[simp] theorem State.releaseUnits_mem (s : State) (x : W64) :
    (State.releaseUnits s x).mem = s.mem := by
  unfold State.releaseUnits
  grind [State.modCc_mem, State.urgent_mem]

@[simp] theorem State.retryLap_mem (s : State) (n : Nat) :
    (State.retryLap s n).mem = s.mem := by
  unfold State.retryLap
  grind [State.putQueue_mem]

theorem State.ringArrives_wf (m : RingMsg) (s : State) (hw : Memory.wf s.mem = true) :
    Memory.wf (State.ringArrives m s).mem = true := by
  unfold State.ringArrives
  grind [State.ringStep_wf, State.push_mem, Memory.wf_memPuts]

theorem State.ringBell_wf (s : State) (n : Nat) (v : W64) (hw : Memory.wf s.mem = true) :
    Memory.wf (State.ringBell s n v).mem = true := by
  unfold State.ringBell
  grind [State.putQueue_mem, State.queueError_wf, State.push_mem, Memory.wf_memPuts]

@[simp] theorem State.rotate_mem (s : State) :
    (State.rotate s).mem = s.mem := by
  unfold State.rotate
  grind

@[simp] theorem State.runAhead_mem (s : State) (h : W64) (k : Nat) (r : Run) (p : Port) :
    (State.runAhead s h k r p).mem = s.mem := by
  unfold State.runAhead
  grind [State.putPort_mem, State.pushNew_mem, foldl_mem]

@[simp] theorem State.saveDrained_mem (s : State) (fc : Nat) : (s.saveDrained fc).mem = s.mem := by
  unfold State.saveDrained
  dsimp only
  refine (foldl_mem _ (fun s r => State.preemptAgain_mem s r) _ _).trans ?_
  split <;> rfl

theorem State.sendCmd_wf (s : State) (k : CmdRef) (c : Cmd) (e : Extent) (va : Nat) (n : Nat) (size8 : Bool) (sys :
    Bool) (kind : HomeKind) (hw : Memory.wf s.mem = true) :
    Memory.wf (State.sendCmd s k c e va n size8 sys kind).mem = true := by
  unfold State.sendCmd
  grind [State.sendPeer_mem, State.modCmd_mem, State.toHome_mem, State.cmdFault_wf, Memory.wf_memPuts]

@[simp] theorem State.serve_mem (s : State) (h : W64) (r : Run) (st : Site) :
    (State.serve s h r st).mem = s.mem := by
  unfold State.serve
  grind [State.putSite_mem, State.emitPlaced_mem, State.emitPacked_mem]

@[simp] theorem State.setCount_mem (s : State) (h : W64) (f : Nat → Nat) :
    (State.setCount s h f).mem = s.mem := by
  unfold State.setCount
  grind [State.putTask_mem, State.makeReady_mem]

@[simp] theorem State.setReg_mem (s : State) (k : Reg) (v : W64) :
    (State.setReg s k v).mem = s.mem := by
  unfold State.setReg
  grind [State.modCc_mem]

@[simp] theorem State.siteDusk_mem (s : State) (h : W64) (r : Run) (st : Site) :
    (State.siteDusk s h r st).mem = s.mem := by
  unfold State.siteDusk
  grind [State.emitExact_mem, State.putSite_mem, State.forward_mem, State.checkCommit_mem]

@[simp] theorem State.siteMarker_mem (s : State) (h : W64) (r : Run) (st : Site) (n : BitVec 8) :
    (State.siteMarker s h r st n).mem = s.mem := by
  unfold State.siteMarker
  grind [State.markAt_mem, State.putSite_mem, State.passMarker_mem]

theorem State.spDone_wf (s : State) (h : W64) (st : Site) (absent : List (List (Nat × Rec))) (whole : Bool)
    (r : SpRes) (hw : Memory.wf s.mem = true) : Memory.wf (s.spDone h st absent whole r).mem = true := by
  unfold State.spDone
  split
  · exact State.regionFault_wf _ _ _ _ _ hw
  · dsimp only
    rw [foldl_mem _ (fun s a => State.emitPlaced_mem ..)]
    split
    · rw [State.emitExact_mem, State.putSite_mem]; exact hw
    · rw [State.emitPacked_mem, State.putSite_mem]; exact hw

@[simp] theorem State.stall_mem (s : State) :
    (State.stall s).mem = s.mem := by
  unfold State.stall
  grind [State.modCc_mem, State.giveWay_mem]

theorem State.startCmd_wf (s : State) (k : CmdRef) (hw : Memory.wf s.mem = true) :
    Memory.wf (State.startCmd s k).mem = true := by
  unfold State.startCmd
  grind [State.copyToken_mem, State.nextStart_wf, State.push_mem, Memory.wf_memPuts]

@[simp] theorem State.strike_mem (s : State) (pa : Nat) :
    (State.strike s pa).mem = s.mem := by
  unfold State.strike
  grind

@[simp] theorem State.suspendTask_mem (s : State) (live : W32) :
    (State.suspendTask s live).mem = s.mem := by
  unfold State.suspendTask
  grind [State.freeWindow_mem, State.dropRun_mem, State.makeReady_mem, State.clearDebt_mem, State.dropWaits_mem,
      State.leaseEnds_mem, State.passOn_mem, State.pushAll_mem, State.modTask_mem]

@[simp] theorem State.switchFrom_mem (s : State) (r : Run) :
    (State.switchFrom s r).mem = s.mem := by
  unfold State.switchFrom
  grind [State.modRun_mem, State.activate_mem]

theorem State.syncCmd_wf (s : State) (k : CmdRef) (r : Run) (c : Cmd) (off : Nat) (n : Nat) (size8 : Bool) (pcie :
    Bool) (kind : HomeKind) (hw : Memory.wf s.mem = true) :
    Memory.wf (State.syncCmd s k r c off n size8 pcie kind).mem = true := by
  unfold State.syncCmd
  grind [State.sendCmd_wf, State.cmdDone_mem, State.cmdFault_wf, Memory.wf_memPuts]

theorem State.trapEntry_wf (s : State) (cause : W64) (epc : W64) (tval : W64) (rec_ : Vector W64 8) (hw : Memory.wf
    s.mem = true) :
    Memory.wf (State.trapEntry s cause epc tval rec_).mem = true := by
  unfold State.trapEntry
  grind [State.modCc_mem, State.faultEnd_wf, Memory.wf_memPuts]

theorem State.trap_wf (s : State) (code : Nat) (reason : Nat) (detail : Nat) (tval : W64) (next : Bool) (hw :
    Memory.wf s.mem = true) :
    Memory.wf (State.trap s code reason detail tval next).mem = true := by
  unfold State.trap
  grind [State.trapEntry_wf, Memory.wf_memPuts]

theorem State.trapAcc_wf (s : State) (code : Nat) (ea : W64) (n : Nat) (right : Nat) (hw : Memory.wf s.mem = true) :
    Memory.wf (State.trapAcc s code ea n right).mem = true := by
  unfold State.trapAcc
  grind [State.trapEntry_wf, Memory.wf_memPuts]

@[simp] theorem State.trapReturn_mem (s : State) :
    (State.trapReturn s).mem = s.mem := by
  unfold State.trapReturn
  grind [State.modCc_mem]

@[simp] theorem State.unstart_mem (s : State) (p : PktRef) (q : Queue) (k : Packet) :
    (State.unstart s p q k).mem = s.mem := by
  unfold State.unstart
  grind [State.putQueue_mem, State.modPacket_mem]

theorem State.usePending_mem (s : State) (kids : Bool) (n : Nat) :
    (State.usePending s kids n).2.mem = s.mem := by
  unfold State.usePending
  grind [State.putTask_mem]

@[simp] theorem State.wakeCore_mem (s : State) (fc : Nat) :
    (State.wakeCore s fc).mem = s.mem := by
  unfold State.wakeCore
  grind [State.activate_mem]

theorem State.walkBad_wf (s : State) (t : TaskRec) (pa : Nat) (hw : Memory.wf s.mem = true) :
    Memory.wf (State.walkBad s t pa).mem = true := by
  unfold State.walkBad
  grind [State.endEarly_wf, State.memErr_wf, Memory.wf_memPuts]

theorem State.walkOne_wf (s : State) (t : TaskRec) (hw : Memory.wf s.mem = true) :
    Memory.wf (State.walkOne s t).mem = true := by
  unfold State.walkOne
  grind [State.endEarly_wf, State.under_mem, State.leased_wf, State.walkBad_wf, Memory.wf_memPuts]

@[simp] theorem State.wantEdge_mem (s : State) (h : W64) :
    (State.wantEdge s h).mem = s.mem := by
  unfold State.wantEdge
  grind [State.askEdge_mem]

theorem State.withFetchWord_wf (s : State) (_nbits : Nat) (w : Nat) (hw : Memory.wf s.mem = true) :
    Memory.wf (State.withFetchWord s _nbits w).mem = true := by
  unfold State.withFetchWord
  grind [Memory.wf_memPuts]

@[simp] theorem State.writeContext_mem (s : State) (c : BitVec 12) (w0 : W64) (w1 : W64) :
    (State.writeContext s c w0 w1).mem = s.mem := by
  unfold State.writeContext
  grind

theorem State.writeStep_wf (s : State) (h : W64) (k : Nat) (r : Run) (p : Port) (m : Msg) (hw : Memory.wf s.mem =
    true) :
    Memory.wf (State.writeStep s h k r p m).mem = true := by
  unfold State.writeStep
  grind [State.putPort_mem, State.wantEdge_mem, State.modRun_mem, State.regionAcc_wf, State.checkCommit_mem,
      Memory.wf_memPuts]

theorem barWords_mem (s : State) (e : Extent) (ea : W64) :
    (barWords s e ea).2.mem = s.mem := by
  unfold barWords
  grind [readRange_mem]

theorem ccWords_mem (s : State) (e : Extent) (ea : W64) (n : Nat) :
    (ccWords s e ea n).2.mem = s.mem := by
  unfold ccWords
  grind [readRange_mem]

theorem chainAcc_mem {α : Type} (f : Nat → α → State → Except AccErr α × State)
    (hf : ∀ i a s, (f i a s).2.mem = s.mem) (l : List Nat) (a : α) (s : State) :
    (chainAcc f l a s).2.mem = s.mem := by
  induction l generalizing s a with
  | nil => rfl
  | cons i l ih => unfold chainAcc; grind

theorem chainAcc_wf {α : Type} (f : Nat → α → State → Except AccErr α × State)
    (hf : ∀ i a s, Memory.wf s.mem = true → Memory.wf (f i a s).2.mem = true) (l : List Nat) (a : α) (s : State)
    (hw : Memory.wf s.mem = true) : Memory.wf (chainAcc f l a s).2.mem = true := by
  induction l generalizing s a with
  | nil => exact hw
  | cons i l ih => unfold chainAcc; grind

theorem copiedBytes_mem (s : State) (src : Nat) (dst : Nat) (old : List Byte) :
    (copiedBytes s src dst old).2.mem = s.mem := by
  unfold copiedBytes
  grind [State.fresh_mem]

theorem copyRange_wf (s : State) (lease : List Extent) (src : Nat) (dst : Nat) (n : Nat) (hw : Memory.wf s.mem =
    true) :
    Memory.wf (copyRange s lease src dst n).2.mem = true := by
  unfold copyRange
  grind [copiedBytes_mem, writeVa_wf, readVa_mem, Memory.wf_memPuts]

theorem credElem_wf (r : Run) (k : CmdRef) (c : Cmd) (e : Nat) (s : State) (hw : Memory.wf s.mem = true) :
    Memory.wf (credElem r k c e s).2.mem = true := by
  have h1 := readElem_mem s r.lease r.extn c.tidA e 0
  unfold credElem
  dsimp only
  split
  · grind
  · rename_i v s1 he
    have h2 : Memory.wf s1.mem = true := by rw [he] at h1; simp only at h1; rw [h1]; exact hw
    have h3 := fun op => State.credAt_wf s1 op h2
    repeat' split
    all_goals first | exact h2 | exact h3 _ | (simp only [State.sendPeer_mem]; exact h2)

theorem credAll_wf (r : Run) (k : CmdRef) (c : Cmd) (l : List Nat) (s : State) (hw : Memory.wf s.mem = true) :
    Memory.wf (credAll r k c l s).2.mem = true := by
  induction l generalizing s with
  | nil => exact hw
  | cons i l ih => unfold credAll; grind [credElem_wf]

theorem ctxPut_wf (s : State) (c : CtxEnt) (va n : Nat) (bs : List Byte) (hw : Memory.wf s.mem = true) :
    ∀ t, ctxPut s c va n bs = some t → Memory.wf t.mem = true := by
  induction n generalizing s va bs with
  | zero => unfold ctxPut; grind
  | succ n ih => unfold ctxPut; grind [writePlace_wf]

theorem ctxRange_mem (s : State) (c : CtxEnt) (va n k : Nat) :
    ∀ bs t, ctxRange s c va n k = some (bs, t) → t.mem = s.mem := by
  induction n generalizing s va k with
  | zero => unfold ctxRange; grind
  | succ n ih =>
    intro bs t h
    unfold ctxRange at h
    simp only at h
    split at h
    · grind
    · split at h
      · cases h
      · rename_i p _
        have h1 := readPlace_mem s p (min k (8 - va % 8))
        split at h
        · cases h
        · rename_i s1 he
          rw [he] at h1
          obtain ⟨⟨b, u⟩, hu, hv⟩ := Option.map_eq_some_iff.mp h
          cases hv
          exact (ih _ _ _ _ _ hu).trans h1

theorem soundSource_wf (c : CtxEnt) (va n : Nat) (p : PktRef) (s : State) (k : State → State)
    (hk : Memory.wf (k s).mem = true) (hw : Memory.wf s.mem = true) : Memory.wf (soundSource c va n p s k).mem =
        true := by
  unfold soundSource
  split
  · rw [State.endPacket_mem]; exact State.errTwice_wf _ _ hw
  · exact hk

/-- A property every entry's access keeps holds of the state a service cycle leaves, faulting or not. -/
theorem mbRun_keeps (P : State → Prop) (f : Nat × WinEnt → Rec → State → MbRes)
    (hok : ∀ e q s o t, P s → f e q s = .ok (o, t) → P t) (herr : ∀ e q s t, P s → f e q s = .error t → P t)
    (l : List (Nat × WinEnt)) (s : State) (hs : P s) :
    (∀ t, mbRun f l s = .error t → P t) ∧ (∀ d t, mbRun f l s = .ok (d, t) → P t) := by
  induction l generalizing s with
  | nil => simp only [mbRun]; grind
  | cons e l ih => unfold mbRun; grind

/-- The answer of an access keeps the canonical form of memory. -/
def mbKeeps : MbRes → Prop
  | .error t => Memory.wf t.mem = true
  | .ok (_, t) => Memory.wf t.mem = true

theorem launchTemplate_mem (s : State) (q : Queue) (p : Packet) :
    ∀ ws t, launchTemplate s q p = some (ws, t) → t.mem = s.mem := by
  intro ws t h
  unfold launchTemplate at h
  split at h
  · cases h; rfl
  · obtain ⟨⟨b, u⟩, hu, hv⟩ := Option.map_eq_some_iff.mp h
    cases hv
    exact ctxRange_mem _ _ _ _ _ _ _ hu

theorem readValue_mem (s : State) (lease : List Extent) (extn : Nat) (t : Tid) (fz : Bool) (i0 : Nat) (i1 : Nat) :
    (readValue s lease extn t fz i0 i1).2.mem = s.mem := by
  unfold readValue
  grind [readScale_mem, readElem_mem]

theorem loadElem_mem (r : Run) (c : Cmd) (e : Nat) (s : State) :
    (loadElem r c e s).2.mem = s.mem := by
  unfold loadElem
  grind [readValue_mem]

theorem writeExt_wf (s : State) (lease : List Extent) (extn : Nat) (k : Nat) (off : Nat) (bs : List Byte) (hw :
    Memory.wf s.mem = true) :
    Memory.wf (writeExt s lease extn k off bs).2.mem = true := by
  unfold writeExt
  grind [writeVa_wf, Memory.wf_memPuts]

theorem moveRow_wf (s : State) (r : Run) (a : Tid) (i : Nat) (c : Tid) (j : Nat) (hw : Memory.wf s.mem = true) :
    Memory.wf (moveRow s r a i c j).2.mem = true := by
  unfold moveRow
  grind [writeExt_wf, readExt_mem, Memory.wf_memPuts]

theorem gatherRow_wf (r : Run) (c : Cmd) (gather : Bool) (i : Nat) (s : State) (hw : Memory.wf s.mem = true) :
    Memory.wf (gatherRow r c gather i s).2.mem = true := by
  unfold gatherRow
  grind [moveRow_wf, readElem_mem, writeExt_wf, Memory.wf_memPuts]

theorem readFactors_mem (r : Run) (used : Bool) (t : Tid) (i0 : Nat) (s : State) :
    (readFactors r used t i0 s).2.mem = s.mem := by
  unfold readFactors
  grind [mapAcc_mem, mapAcc_mem, readElem_mem]

theorem mergePlace_wf (s : State) (p : Place) (bs : List Byte) (ms : List Byte) (hw : Memory.wf s.mem = true) :
    Memory.wf (mergePlace s p bs ms).2.mem = true := by
  unfold mergePlace
  grind [State.landMasked_wf, Memory.wf_memPuts]

theorem mergeRange_wf (s : State) (e : Extent) (va n : Nat) (bs ms : List Byte) (hw : Memory.wf s.mem = true) :
    Memory.wf (mergeRange s e va n bs ms).2.mem = true := by
  induction n generalizing s va bs ms with
  | zero => exact hw
  | succ n ih => unfold mergeRange; grind [mergePlace_wf]

theorem writeMasked_wf (s : State) (lease : List Extent) (va : Nat) (bs : List Byte) (ms : List Byte) (hw :
    Memory.wf s.mem = true) :
    Memory.wf (writeMasked s lease va bs ms).2.mem = true := by
  unfold writeMasked
  grind [mergeRange_wf, Memory.wf_memPuts]

theorem writeElem_wf (s : State) (lease : List Extent) (extn : Nat) (t : Tid) (i0 : Nat) (i1 : Nat) (code : Nat)
    (hw : Memory.wf s.mem = true) :
    Memory.wf (writeElem s lease extn t i0 i1 code).2.mem = true := by
  unfold writeElem
  grind [writeVa_wf, writeMasked_wf, Memory.wf_memPuts]

theorem storeElem_wf (p : StoreIn) (i : Nat) (j : Nat) (gs : List W32) (s : State) (hw : Memory.wf s.mem = true) :
    Memory.wf (storeElem p i j gs s).2.mem = true := by
  unfold storeElem
  grind [writeElem_wf, Memory.wf_memPuts]

theorem storeCodes_wf (p : StoreIn) (i j : Nat) (qs : List (Nat × W32)) (gs : List W32) (s : State)
    (hw : Memory.wf s.mem = true) : Memory.wf (storeCodes p i j qs gs s).2.mem = true := by
  induction qs generalizing j gs s with
  | nil => exact hw
  | cons q qs ih => unfold storeCodes; grind [writeElem_wf]

theorem storeBlock_wf (p : StoreIn) (i : Nat) (b : Nat) (gs : List W32) (s : State) (hw : Memory.wf s.mem = true) :
    Memory.wf (storeBlock p i b gs s).2.mem = true := by
  unfold storeBlock
  grind [writeExt_wf, storeCodes_wf, Memory.wf_memPuts]

theorem storeRow_wf (p : StoreIn) (i : Nat) (gs : List W32) (s : State) (hw : Memory.wf s.mem = true) :
    Memory.wf (storeRow p i gs s).2.mem = true := by
  unfold storeRow
  grind [chainAcc_wf, chainAcc_mem, storeElem_wf, storeBlock_wf, Memory.wf_memPuts]

theorem readVals_mem (r : Run) (used : Bool) (t : Tid) (e0 : Nat) (n : Nat) (s : State) :
    (readVals r used t e0 n s).2.mem = s.mem := by
  unfold readVals
  grind [readValue_mem, mapAcc_mem, mapAcc_mem]

theorem extendBy_mem (s : State) (x : Nat) :
    (extendBy s x).2.mem = s.mem := by
  unfold extendBy
  grind

end Sys2Proof.Machine
end

