-- ==== Sys2Proof/Laws/State.lean ====
section
/-! SUPPORT. One lemma per field of `State` for each update the meanings are built from: which fields it leaves alone,
and what it puts into the others. -/

namespace Sys2Proof.Machine

/-! ## State.modCc -/

@[simp] theorem State.modCc_runs (s : State) (f : Run → Run) : (s.modCc f).runs = s.runs := rfl
@[simp] theorem State.modCc_cyc (s : State) (f : Run → Run) : (s.modCc f).cyc = s.cyc := rfl
@[simp] theorem State.modCc_tasks (s : State) (f : Run → Run) : (s.modCc f).tasks = s.tasks := rfl
@[simp] theorem State.modCc_taskGen (s : State) (f : Run → Run) : (s.modCc f).taskGen = s.taskGen := rfl
@[simp] theorem State.modCc_alm (s : State) (f : Run → Run) : (s.modCc f).alm = s.alm := rfl
@[simp] theorem State.modCc_allow (s : State) (f : Run → Run) : (s.modCc f).allow = s.allow := rfl
@[simp] theorem State.modCc_overrun (s : State) (f : Run → Run) : (s.modCc f).overrun = s.overrun := rfl
@[simp] theorem State.modCc_reqs (s : State) (f : Run → Run) : (s.modCc f).reqs = s.reqs := rfl
@[simp] theorem State.modCc_claim (s : State) (f : Run → Run) : (s.modCc f).claim = s.claim := rfl
@[simp] theorem State.modCc_homes (s : State) (f : Run → Run) : (s.modCc f).homes = s.homes := rfl
@[simp] theorem State.modCc_heldOps (s : State) (f : Run → Run) : (s.modCc f).heldOps = s.heldOps := rfl
@[simp] theorem State.modCc_peers (s : State) (f : Run → Run) : (s.modCc f).peers = s.peers := rfl
@[simp] theorem State.modCc_hostHeld (s : State) (f : Run → Run) : (s.modCc f).hostHeld = s.hostHeld := rfl
@[simp] theorem State.modCc_l1 (s : State) (f : Run → Run) : (s.modCc f).l1 = s.l1 := rfl
@[simp] theorem State.modCc_saveBuf (s : State) (f : Run → Run) : (s.modCc f).saveBuf = s.saveBuf := rfl
@[simp] theorem State.modCc_ringDone (s : State) (f : Run → Run) : (s.modCc f).ringDone = s.ringDone := rfl
@[simp] theorem State.modCc_bars (s : State) (f : Run → Run) : (s.modCc f).bars = s.bars := rfl
@[simp] theorem State.modCc_barWaits (s : State) (f : Run → Run) : (s.modCc f).barWaits = s.barWaits := rfl
@[simp] theorem State.modCc_vigils (s : State) (f : Run → Run) : (s.modCc f).vigils = s.vigils := rfl
@[simp] theorem State.modCc_routines (s : State) (f : Run → Run) : (s.modCc f).routines = s.routines := rfl
@[simp] theorem State.modCc_ctxs (s : State) (f : Run → Run) : (s.modCc f).ctxs = s.ctxs := rfl
@[simp] theorem State.modCc_queues (s : State) (f : Run → Run) : (s.modCc f).queues = s.queues := rfl
@[simp] theorem State.modCc_mbox (s : State) (f : Run → Run) : (s.modCc f).mbox = s.mbox := rfl
@[simp] theorem State.modCc_guests (s : State) (f : Run → Run) : (s.modCc f).guests = s.guests := rfl
@[simp] theorem State.modCc_groups (s : State) (f : Run → Run) : (s.modCc f).groups = s.groups := rfl
@[simp] theorem State.modCc_rings (s : State) (f : Run → Run) : (s.modCc f).rings = s.rings := rfl
@[simp] theorem State.modCc_contribs (s : State) (f : Run → Run) : (s.modCc f).contribs = s.contribs := rfl
@[simp] theorem State.modCc_dev (s : State) (f : Run → Run) : (s.modCc f).dev = s.dev := rfl
@[simp] theorem State.modCc_ep (s : State) (f : Run → Run) : (s.modCc f).ep = s.ep := rfl
@[simp] theorem State.modCc_err (s : State) (f : Run → Run) : (s.modCc f).err = s.err := rfl
@[simp] theorem State.modCc_out (s : State) (f : Run → Run) : (s.modCc f).out = s.out := rfl
@[simp] theorem State.modCc_inputs (s : State) (f : Run → Run) : (s.modCc f).inputs = s.inputs := rfl
@[simp] theorem State.modCc_work (s : State) (f : Run → Run) : (s.modCc f).work = s.work := rfl
@[simp] theorem State.modCc_turn (s : State) (f : Run → Run) : (s.modCc f).turn = s.turn := rfl
@[simp] theorem State.modCc_pace (s : State) (f : Run → Run) : (s.modCc f).pace = s.pace := rfl
@[simp] theorem State.modCc_free (s : State) (f : Run → Run) : (s.modCc f).free = s.free := rfl

/-! ## State.setReg -/

@[simp] theorem State.setReg_runs (s : State) (k : Reg) (v : W64) : (s.setReg k v).runs = s.runs := rfl
@[simp] theorem State.setReg_cyc (s : State) (k : Reg) (v : W64) : (s.setReg k v).cyc = s.cyc := rfl
@[simp] theorem State.setReg_tasks (s : State) (k : Reg) (v : W64) : (s.setReg k v).tasks = s.tasks := rfl
@[simp] theorem State.setReg_taskGen (s : State) (k : Reg) (v : W64) : (s.setReg k v).taskGen = s.taskGen := rfl
@[simp] theorem State.setReg_alm (s : State) (k : Reg) (v : W64) : (s.setReg k v).alm = s.alm := rfl
@[simp] theorem State.setReg_allow (s : State) (k : Reg) (v : W64) : (s.setReg k v).allow = s.allow := rfl
@[simp] theorem State.setReg_overrun (s : State) (k : Reg) (v : W64) : (s.setReg k v).overrun = s.overrun := rfl
@[simp] theorem State.setReg_reqs (s : State) (k : Reg) (v : W64) : (s.setReg k v).reqs = s.reqs := rfl
@[simp] theorem State.setReg_claim (s : State) (k : Reg) (v : W64) : (s.setReg k v).claim = s.claim := rfl
@[simp] theorem State.setReg_homes (s : State) (k : Reg) (v : W64) : (s.setReg k v).homes = s.homes := rfl
@[simp] theorem State.setReg_heldOps (s : State) (k : Reg) (v : W64) : (s.setReg k v).heldOps = s.heldOps := rfl
@[simp] theorem State.setReg_peers (s : State) (k : Reg) (v : W64) : (s.setReg k v).peers = s.peers := rfl
@[simp] theorem State.setReg_hostHeld (s : State) (k : Reg) (v : W64) : (s.setReg k v).hostHeld = s.hostHeld := rfl
@[simp] theorem State.setReg_l1 (s : State) (k : Reg) (v : W64) : (s.setReg k v).l1 = s.l1 := rfl
@[simp] theorem State.setReg_saveBuf (s : State) (k : Reg) (v : W64) : (s.setReg k v).saveBuf = s.saveBuf := rfl
@[simp] theorem State.setReg_ringDone (s : State) (k : Reg) (v : W64) : (s.setReg k v).ringDone = s.ringDone := rfl
@[simp] theorem State.setReg_bars (s : State) (k : Reg) (v : W64) : (s.setReg k v).bars = s.bars := rfl
@[simp] theorem State.setReg_barWaits (s : State) (k : Reg) (v : W64) : (s.setReg k v).barWaits = s.barWaits := rfl
@[simp] theorem State.setReg_vigils (s : State) (k : Reg) (v : W64) : (s.setReg k v).vigils = s.vigils := rfl
@[simp] theorem State.setReg_routines (s : State) (k : Reg) (v : W64) : (s.setReg k v).routines = s.routines := rfl
@[simp] theorem State.setReg_ctxs (s : State) (k : Reg) (v : W64) : (s.setReg k v).ctxs = s.ctxs := rfl
@[simp] theorem State.setReg_queues (s : State) (k : Reg) (v : W64) : (s.setReg k v).queues = s.queues := rfl
@[simp] theorem State.setReg_mbox (s : State) (k : Reg) (v : W64) : (s.setReg k v).mbox = s.mbox := rfl
@[simp] theorem State.setReg_guests (s : State) (k : Reg) (v : W64) : (s.setReg k v).guests = s.guests := rfl
@[simp] theorem State.setReg_groups (s : State) (k : Reg) (v : W64) : (s.setReg k v).groups = s.groups := rfl
@[simp] theorem State.setReg_rings (s : State) (k : Reg) (v : W64) : (s.setReg k v).rings = s.rings := rfl
@[simp] theorem State.setReg_contribs (s : State) (k : Reg) (v : W64) : (s.setReg k v).contribs = s.contribs := rfl
@[simp] theorem State.setReg_dev (s : State) (k : Reg) (v : W64) : (s.setReg k v).dev = s.dev := rfl
@[simp] theorem State.setReg_ep (s : State) (k : Reg) (v : W64) : (s.setReg k v).ep = s.ep := rfl
@[simp] theorem State.setReg_err (s : State) (k : Reg) (v : W64) : (s.setReg k v).err = s.err := rfl
@[simp] theorem State.setReg_out (s : State) (k : Reg) (v : W64) : (s.setReg k v).out = s.out := rfl
@[simp] theorem State.setReg_inputs (s : State) (k : Reg) (v : W64) : (s.setReg k v).inputs = s.inputs := rfl
@[simp] theorem State.setReg_work (s : State) (k : Reg) (v : W64) : (s.setReg k v).work = s.work := rfl
@[simp] theorem State.setReg_turn (s : State) (k : Reg) (v : W64) : (s.setReg k v).turn = s.turn := rfl
@[simp] theorem State.setReg_pace (s : State) (k : Reg) (v : W64) : (s.setReg k v).pace = s.pace := rfl
@[simp] theorem State.setReg_free (s : State) (k : Reg) (v : W64) : (s.setReg k v).free = s.free := rfl

/-! ## State.retire -/

@[simp] theorem State.retire_runs (s : State) : (s.retire).runs = s.runs := rfl
@[simp] theorem State.retire_cyc (s : State) : (s.retire).cyc = s.cyc := rfl
@[simp] theorem State.retire_tasks (s : State) : (s.retire).tasks = s.tasks := rfl
@[simp] theorem State.retire_taskGen (s : State) : (s.retire).taskGen = s.taskGen := rfl
@[simp] theorem State.retire_alm (s : State) : (s.retire).alm = s.alm := rfl
@[simp] theorem State.retire_allow (s : State) : (s.retire).allow = s.allow := rfl
@[simp] theorem State.retire_overrun (s : State) : (s.retire).overrun = s.overrun := rfl
@[simp] theorem State.retire_reqs (s : State) : (s.retire).reqs = s.reqs := rfl
@[simp] theorem State.retire_claim (s : State) : (s.retire).claim = s.claim := rfl
@[simp] theorem State.retire_homes (s : State) : (s.retire).homes = s.homes := rfl
@[simp] theorem State.retire_heldOps (s : State) : (s.retire).heldOps = s.heldOps := rfl
@[simp] theorem State.retire_peers (s : State) : (s.retire).peers = s.peers := rfl
@[simp] theorem State.retire_hostHeld (s : State) : (s.retire).hostHeld = s.hostHeld := rfl
@[simp] theorem State.retire_l1 (s : State) : (s.retire).l1 = s.l1 := rfl
@[simp] theorem State.retire_saveBuf (s : State) : (s.retire).saveBuf = s.saveBuf := rfl
@[simp] theorem State.retire_ringDone (s : State) : (s.retire).ringDone = s.ringDone := rfl
@[simp] theorem State.retire_bars (s : State) : (s.retire).bars = s.bars := rfl
@[simp] theorem State.retire_barWaits (s : State) : (s.retire).barWaits = s.barWaits := rfl
@[simp] theorem State.retire_vigils (s : State) : (s.retire).vigils = s.vigils := rfl
@[simp] theorem State.retire_routines (s : State) : (s.retire).routines = s.routines := rfl
@[simp] theorem State.retire_ctxs (s : State) : (s.retire).ctxs = s.ctxs := rfl
@[simp] theorem State.retire_queues (s : State) : (s.retire).queues = s.queues := rfl
@[simp] theorem State.retire_mbox (s : State) : (s.retire).mbox = s.mbox := rfl
@[simp] theorem State.retire_guests (s : State) : (s.retire).guests = s.guests := rfl
@[simp] theorem State.retire_groups (s : State) : (s.retire).groups = s.groups := rfl
@[simp] theorem State.retire_rings (s : State) : (s.retire).rings = s.rings := rfl
@[simp] theorem State.retire_contribs (s : State) : (s.retire).contribs = s.contribs := rfl
@[simp] theorem State.retire_dev (s : State) : (s.retire).dev = s.dev := rfl
@[simp] theorem State.retire_ep (s : State) : (s.retire).ep = s.ep := rfl
@[simp] theorem State.retire_err (s : State) : (s.retire).err = s.err := rfl
@[simp] theorem State.retire_out (s : State) : (s.retire).out = s.out := rfl
@[simp] theorem State.retire_inputs (s : State) : (s.retire).inputs = s.inputs := rfl
@[simp] theorem State.retire_work (s : State) : (s.retire).work = s.work := rfl
@[simp] theorem State.retire_turn (s : State) : (s.retire).turn = s.turn := rfl
@[simp] theorem State.retire_pace (s : State) : (s.retire).pace = s.pace := rfl
@[simp] theorem State.retire_free (s : State) : (s.retire).free = s.free := rfl

/-! ## State.jump -/

@[simp] theorem State.jump_runs (s : State) (t : W64) : (s.jump t).runs = s.runs := rfl
@[simp] theorem State.jump_cyc (s : State) (t : W64) : (s.jump t).cyc = s.cyc := rfl
@[simp] theorem State.jump_tasks (s : State) (t : W64) : (s.jump t).tasks = s.tasks := rfl
@[simp] theorem State.jump_taskGen (s : State) (t : W64) : (s.jump t).taskGen = s.taskGen := rfl
@[simp] theorem State.jump_alm (s : State) (t : W64) : (s.jump t).alm = s.alm := rfl
@[simp] theorem State.jump_allow (s : State) (t : W64) : (s.jump t).allow = s.allow := rfl
@[simp] theorem State.jump_overrun (s : State) (t : W64) : (s.jump t).overrun = s.overrun := rfl
@[simp] theorem State.jump_reqs (s : State) (t : W64) : (s.jump t).reqs = s.reqs := rfl
@[simp] theorem State.jump_claim (s : State) (t : W64) : (s.jump t).claim = s.claim := rfl
@[simp] theorem State.jump_homes (s : State) (t : W64) : (s.jump t).homes = s.homes := rfl
@[simp] theorem State.jump_heldOps (s : State) (t : W64) : (s.jump t).heldOps = s.heldOps := rfl
@[simp] theorem State.jump_peers (s : State) (t : W64) : (s.jump t).peers = s.peers := rfl
@[simp] theorem State.jump_hostHeld (s : State) (t : W64) : (s.jump t).hostHeld = s.hostHeld := rfl
@[simp] theorem State.jump_l1 (s : State) (t : W64) : (s.jump t).l1 = s.l1 := rfl
@[simp] theorem State.jump_saveBuf (s : State) (t : W64) : (s.jump t).saveBuf = s.saveBuf := rfl
@[simp] theorem State.jump_ringDone (s : State) (t : W64) : (s.jump t).ringDone = s.ringDone := rfl
@[simp] theorem State.jump_bars (s : State) (t : W64) : (s.jump t).bars = s.bars := rfl
@[simp] theorem State.jump_barWaits (s : State) (t : W64) : (s.jump t).barWaits = s.barWaits := rfl
@[simp] theorem State.jump_vigils (s : State) (t : W64) : (s.jump t).vigils = s.vigils := rfl
@[simp] theorem State.jump_routines (s : State) (t : W64) : (s.jump t).routines = s.routines := rfl
@[simp] theorem State.jump_ctxs (s : State) (t : W64) : (s.jump t).ctxs = s.ctxs := rfl
@[simp] theorem State.jump_queues (s : State) (t : W64) : (s.jump t).queues = s.queues := rfl
@[simp] theorem State.jump_mbox (s : State) (t : W64) : (s.jump t).mbox = s.mbox := rfl
@[simp] theorem State.jump_guests (s : State) (t : W64) : (s.jump t).guests = s.guests := rfl
@[simp] theorem State.jump_groups (s : State) (t : W64) : (s.jump t).groups = s.groups := rfl
@[simp] theorem State.jump_rings (s : State) (t : W64) : (s.jump t).rings = s.rings := rfl
@[simp] theorem State.jump_contribs (s : State) (t : W64) : (s.jump t).contribs = s.contribs := rfl
@[simp] theorem State.jump_dev (s : State) (t : W64) : (s.jump t).dev = s.dev := rfl
@[simp] theorem State.jump_ep (s : State) (t : W64) : (s.jump t).ep = s.ep := rfl
@[simp] theorem State.jump_err (s : State) (t : W64) : (s.jump t).err = s.err := rfl
@[simp] theorem State.jump_out (s : State) (t : W64) : (s.jump t).out = s.out := rfl
@[simp] theorem State.jump_inputs (s : State) (t : W64) : (s.jump t).inputs = s.inputs := rfl
@[simp] theorem State.jump_work (s : State) (t : W64) : (s.jump t).work = s.work := rfl
@[simp] theorem State.jump_turn (s : State) (t : W64) : (s.jump t).turn = s.turn := rfl
@[simp] theorem State.jump_pace (s : State) (t : W64) : (s.jump t).pace = s.pace := rfl
@[simp] theorem State.jump_free (s : State) (t : W64) : (s.jump t).free = s.free := rfl

/-! ## State.trapReturn -/

@[simp] theorem State.trapReturn_runs (s : State) : (s.trapReturn).runs = s.runs := rfl
@[simp] theorem State.trapReturn_cyc (s : State) : (s.trapReturn).cyc = s.cyc := rfl
@[simp] theorem State.trapReturn_tasks (s : State) : (s.trapReturn).tasks = s.tasks := rfl
@[simp] theorem State.trapReturn_taskGen (s : State) : (s.trapReturn).taskGen = s.taskGen := rfl
@[simp] theorem State.trapReturn_alm (s : State) : (s.trapReturn).alm = s.alm := rfl
@[simp] theorem State.trapReturn_allow (s : State) : (s.trapReturn).allow = s.allow := rfl
@[simp] theorem State.trapReturn_overrun (s : State) : (s.trapReturn).overrun = s.overrun := rfl
@[simp] theorem State.trapReturn_reqs (s : State) : (s.trapReturn).reqs = s.reqs := rfl
@[simp] theorem State.trapReturn_claim (s : State) : (s.trapReturn).claim = s.claim := rfl
@[simp] theorem State.trapReturn_homes (s : State) : (s.trapReturn).homes = s.homes := rfl
@[simp] theorem State.trapReturn_heldOps (s : State) : (s.trapReturn).heldOps = s.heldOps := rfl
@[simp] theorem State.trapReturn_peers (s : State) : (s.trapReturn).peers = s.peers := rfl
@[simp] theorem State.trapReturn_hostHeld (s : State) : (s.trapReturn).hostHeld = s.hostHeld := rfl
@[simp] theorem State.trapReturn_l1 (s : State) : (s.trapReturn).l1 = s.l1 := rfl
@[simp] theorem State.trapReturn_saveBuf (s : State) : (s.trapReturn).saveBuf = s.saveBuf := rfl
@[simp] theorem State.trapReturn_ringDone (s : State) : (s.trapReturn).ringDone = s.ringDone := rfl
@[simp] theorem State.trapReturn_bars (s : State) : (s.trapReturn).bars = s.bars := rfl
@[simp] theorem State.trapReturn_barWaits (s : State) : (s.trapReturn).barWaits = s.barWaits := rfl
@[simp] theorem State.trapReturn_vigils (s : State) : (s.trapReturn).vigils = s.vigils := rfl
@[simp] theorem State.trapReturn_routines (s : State) : (s.trapReturn).routines = s.routines := rfl
@[simp] theorem State.trapReturn_ctxs (s : State) : (s.trapReturn).ctxs = s.ctxs := rfl
@[simp] theorem State.trapReturn_queues (s : State) : (s.trapReturn).queues = s.queues := rfl
@[simp] theorem State.trapReturn_mbox (s : State) : (s.trapReturn).mbox = s.mbox := rfl
@[simp] theorem State.trapReturn_guests (s : State) : (s.trapReturn).guests = s.guests := rfl
@[simp] theorem State.trapReturn_groups (s : State) : (s.trapReturn).groups = s.groups := rfl
@[simp] theorem State.trapReturn_rings (s : State) : (s.trapReturn).rings = s.rings := rfl
@[simp] theorem State.trapReturn_contribs (s : State) : (s.trapReturn).contribs = s.contribs := rfl
@[simp] theorem State.trapReturn_dev (s : State) : (s.trapReturn).dev = s.dev := rfl
@[simp] theorem State.trapReturn_ep (s : State) : (s.trapReturn).ep = s.ep := rfl
@[simp] theorem State.trapReturn_err (s : State) : (s.trapReturn).err = s.err := rfl
@[simp] theorem State.trapReturn_out (s : State) : (s.trapReturn).out = s.out := rfl
@[simp] theorem State.trapReturn_inputs (s : State) : (s.trapReturn).inputs = s.inputs := rfl
@[simp] theorem State.trapReturn_work (s : State) : (s.trapReturn).work = s.work := rfl
@[simp] theorem State.trapReturn_turn (s : State) : (s.trapReturn).turn = s.turn := rfl
@[simp] theorem State.trapReturn_pace (s : State) : (s.trapReturn).pace = s.pace := rfl
@[simp] theorem State.trapReturn_free (s : State) : (s.trapReturn).free = s.free := rfl

/-! ## State.push -/

@[simp] theorem State.push_cc (s : State) (i : Instr) : (s.push i).cc = s.cc := rfl
@[simp] theorem State.push_runs (s : State) (i : Instr) : (s.push i).runs = s.runs := rfl
@[simp] theorem State.push_cyc (s : State) (i : Instr) : (s.push i).cyc = s.cyc := rfl
@[simp] theorem State.push_tasks (s : State) (i : Instr) : (s.push i).tasks = s.tasks := rfl
@[simp] theorem State.push_taskGen (s : State) (i : Instr) : (s.push i).taskGen = s.taskGen := rfl
@[simp] theorem State.push_alm (s : State) (i : Instr) : (s.push i).alm = s.alm := rfl
@[simp] theorem State.push_allow (s : State) (i : Instr) : (s.push i).allow = s.allow := rfl
@[simp] theorem State.push_overrun (s : State) (i : Instr) : (s.push i).overrun = s.overrun := rfl
@[simp] theorem State.push_reqs (s : State) (i : Instr) : (s.push i).reqs = s.reqs := rfl
@[simp] theorem State.push_claim (s : State) (i : Instr) : (s.push i).claim = s.claim := rfl
@[simp] theorem State.push_homes (s : State) (i : Instr) : (s.push i).homes = s.homes := rfl
@[simp] theorem State.push_heldOps (s : State) (i : Instr) : (s.push i).heldOps = s.heldOps := rfl
@[simp] theorem State.push_peers (s : State) (i : Instr) : (s.push i).peers = s.peers := rfl
@[simp] theorem State.push_hostHeld (s : State) (i : Instr) : (s.push i).hostHeld = s.hostHeld := rfl
@[simp] theorem State.push_l1 (s : State) (i : Instr) : (s.push i).l1 = s.l1 := rfl
@[simp] theorem State.push_saveBuf (s : State) (i : Instr) : (s.push i).saveBuf = s.saveBuf := rfl
@[simp] theorem State.push_ringDone (s : State) (i : Instr) : (s.push i).ringDone = s.ringDone := rfl
@[simp] theorem State.push_bars (s : State) (i : Instr) : (s.push i).bars = s.bars := rfl
@[simp] theorem State.push_barWaits (s : State) (i : Instr) : (s.push i).barWaits = s.barWaits := rfl
@[simp] theorem State.push_vigils (s : State) (i : Instr) : (s.push i).vigils = s.vigils := rfl
@[simp] theorem State.push_routines (s : State) (i : Instr) : (s.push i).routines = s.routines := rfl
@[simp] theorem State.push_ctxs (s : State) (i : Instr) : (s.push i).ctxs = s.ctxs := rfl
@[simp] theorem State.push_queues (s : State) (i : Instr) : (s.push i).queues = s.queues := rfl
@[simp] theorem State.push_mbox (s : State) (i : Instr) : (s.push i).mbox = s.mbox := rfl
@[simp] theorem State.push_guests (s : State) (i : Instr) : (s.push i).guests = s.guests := rfl
@[simp] theorem State.push_groups (s : State) (i : Instr) : (s.push i).groups = s.groups := rfl
@[simp] theorem State.push_rings (s : State) (i : Instr) : (s.push i).rings = s.rings := rfl
@[simp] theorem State.push_contribs (s : State) (i : Instr) : (s.push i).contribs = s.contribs := rfl
@[simp] theorem State.push_dev (s : State) (i : Instr) : (s.push i).dev = s.dev := rfl
@[simp] theorem State.push_ep (s : State) (i : Instr) : (s.push i).ep = s.ep := rfl
@[simp] theorem State.push_err (s : State) (i : Instr) : (s.push i).err = s.err := rfl
@[simp] theorem State.push_out (s : State) (i : Instr) : (s.push i).out = s.out := rfl
@[simp] theorem State.push_inputs (s : State) (i : Instr) : (s.push i).inputs = s.inputs := rfl
@[simp] theorem State.push_turn (s : State) (i : Instr) : (s.push i).turn = s.turn := rfl
@[simp] theorem State.push_pace (s : State) (i : Instr) : (s.push i).pace = s.pace := rfl
@[simp] theorem State.push_free (s : State) (i : Instr) : (s.push i).free = s.free := rfl

/-! ## State.pushAll -/

@[simp] theorem State.pushAll_cc (s : State) (l : List Instr) : (s.pushAll l).cc = s.cc := rfl
@[simp] theorem State.pushAll_runs (s : State) (l : List Instr) : (s.pushAll l).runs = s.runs := rfl
@[simp] theorem State.pushAll_cyc (s : State) (l : List Instr) : (s.pushAll l).cyc = s.cyc := rfl
@[simp] theorem State.pushAll_tasks (s : State) (l : List Instr) : (s.pushAll l).tasks = s.tasks := rfl
@[simp] theorem State.pushAll_taskGen (s : State) (l : List Instr) : (s.pushAll l).taskGen = s.taskGen := rfl
@[simp] theorem State.pushAll_alm (s : State) (l : List Instr) : (s.pushAll l).alm = s.alm := rfl
@[simp] theorem State.pushAll_allow (s : State) (l : List Instr) : (s.pushAll l).allow = s.allow := rfl
@[simp] theorem State.pushAll_overrun (s : State) (l : List Instr) : (s.pushAll l).overrun = s.overrun := rfl
@[simp] theorem State.pushAll_reqs (s : State) (l : List Instr) : (s.pushAll l).reqs = s.reqs := rfl
@[simp] theorem State.pushAll_claim (s : State) (l : List Instr) : (s.pushAll l).claim = s.claim := rfl
@[simp] theorem State.pushAll_homes (s : State) (l : List Instr) : (s.pushAll l).homes = s.homes := rfl
@[simp] theorem State.pushAll_heldOps (s : State) (l : List Instr) : (s.pushAll l).heldOps = s.heldOps := rfl
@[simp] theorem State.pushAll_peers (s : State) (l : List Instr) : (s.pushAll l).peers = s.peers := rfl
@[simp] theorem State.pushAll_hostHeld (s : State) (l : List Instr) : (s.pushAll l).hostHeld = s.hostHeld := rfl
@[simp] theorem State.pushAll_l1 (s : State) (l : List Instr) : (s.pushAll l).l1 = s.l1 := rfl
@[simp] theorem State.pushAll_saveBuf (s : State) (l : List Instr) : (s.pushAll l).saveBuf = s.saveBuf := rfl
@[simp] theorem State.pushAll_ringDone (s : State) (l : List Instr) : (s.pushAll l).ringDone = s.ringDone := rfl
@[simp] theorem State.pushAll_bars (s : State) (l : List Instr) : (s.pushAll l).bars = s.bars := rfl
@[simp] theorem State.pushAll_barWaits (s : State) (l : List Instr) : (s.pushAll l).barWaits = s.barWaits := rfl
@[simp] theorem State.pushAll_vigils (s : State) (l : List Instr) : (s.pushAll l).vigils = s.vigils := rfl
@[simp] theorem State.pushAll_routines (s : State) (l : List Instr) : (s.pushAll l).routines = s.routines := rfl
@[simp] theorem State.pushAll_ctxs (s : State) (l : List Instr) : (s.pushAll l).ctxs = s.ctxs := rfl
@[simp] theorem State.pushAll_queues (s : State) (l : List Instr) : (s.pushAll l).queues = s.queues := rfl
@[simp] theorem State.pushAll_mbox (s : State) (l : List Instr) : (s.pushAll l).mbox = s.mbox := rfl
@[simp] theorem State.pushAll_guests (s : State) (l : List Instr) : (s.pushAll l).guests = s.guests := rfl
@[simp] theorem State.pushAll_groups (s : State) (l : List Instr) : (s.pushAll l).groups = s.groups := rfl
@[simp] theorem State.pushAll_rings (s : State) (l : List Instr) : (s.pushAll l).rings = s.rings := rfl
@[simp] theorem State.pushAll_contribs (s : State) (l : List Instr) : (s.pushAll l).contribs = s.contribs := rfl
@[simp] theorem State.pushAll_dev (s : State) (l : List Instr) : (s.pushAll l).dev = s.dev := rfl
@[simp] theorem State.pushAll_ep (s : State) (l : List Instr) : (s.pushAll l).ep = s.ep := rfl
@[simp] theorem State.pushAll_err (s : State) (l : List Instr) : (s.pushAll l).err = s.err := rfl
@[simp] theorem State.pushAll_out (s : State) (l : List Instr) : (s.pushAll l).out = s.out := rfl
@[simp] theorem State.pushAll_inputs (s : State) (l : List Instr) : (s.pushAll l).inputs = s.inputs := rfl
@[simp] theorem State.pushAll_turn (s : State) (l : List Instr) : (s.pushAll l).turn = s.turn := rfl
@[simp] theorem State.pushAll_pace (s : State) (l : List Instr) : (s.pushAll l).pace = s.pace := rfl
@[simp] theorem State.pushAll_free (s : State) (l : List Instr) : (s.pushAll l).free = s.free := rfl

/-! ## State.giveWay -/

@[simp] theorem State.giveWay_runs (s : State) : (s.giveWay).runs = s.runs := rfl
@[simp] theorem State.giveWay_cyc (s : State) : (s.giveWay).cyc = s.cyc := rfl
@[simp] theorem State.giveWay_tasks (s : State) : (s.giveWay).tasks = s.tasks := rfl
@[simp] theorem State.giveWay_taskGen (s : State) : (s.giveWay).taskGen = s.taskGen := rfl
@[simp] theorem State.giveWay_alm (s : State) : (s.giveWay).alm = s.alm := rfl
@[simp] theorem State.giveWay_allow (s : State) : (s.giveWay).allow = s.allow := rfl
@[simp] theorem State.giveWay_overrun (s : State) : (s.giveWay).overrun = s.overrun := rfl
@[simp] theorem State.giveWay_reqs (s : State) : (s.giveWay).reqs = s.reqs := rfl
@[simp] theorem State.giveWay_claim (s : State) : (s.giveWay).claim = s.claim := rfl
@[simp] theorem State.giveWay_homes (s : State) : (s.giveWay).homes = s.homes := rfl
@[simp] theorem State.giveWay_heldOps (s : State) : (s.giveWay).heldOps = s.heldOps := rfl
@[simp] theorem State.giveWay_peers (s : State) : (s.giveWay).peers = s.peers := rfl
@[simp] theorem State.giveWay_hostHeld (s : State) : (s.giveWay).hostHeld = s.hostHeld := rfl
@[simp] theorem State.giveWay_l1 (s : State) : (s.giveWay).l1 = s.l1 := rfl
@[simp] theorem State.giveWay_saveBuf (s : State) : (s.giveWay).saveBuf = s.saveBuf := rfl
@[simp] theorem State.giveWay_ringDone (s : State) : (s.giveWay).ringDone = s.ringDone := rfl
@[simp] theorem State.giveWay_bars (s : State) : (s.giveWay).bars = s.bars := rfl
@[simp] theorem State.giveWay_barWaits (s : State) : (s.giveWay).barWaits = s.barWaits := rfl
@[simp] theorem State.giveWay_vigils (s : State) : (s.giveWay).vigils = s.vigils := rfl
@[simp] theorem State.giveWay_routines (s : State) : (s.giveWay).routines = s.routines := rfl
@[simp] theorem State.giveWay_ctxs (s : State) : (s.giveWay).ctxs = s.ctxs := rfl
@[simp] theorem State.giveWay_queues (s : State) : (s.giveWay).queues = s.queues := rfl
@[simp] theorem State.giveWay_mbox (s : State) : (s.giveWay).mbox = s.mbox := rfl
@[simp] theorem State.giveWay_guests (s : State) : (s.giveWay).guests = s.guests := rfl
@[simp] theorem State.giveWay_groups (s : State) : (s.giveWay).groups = s.groups := rfl
@[simp] theorem State.giveWay_rings (s : State) : (s.giveWay).rings = s.rings := rfl
@[simp] theorem State.giveWay_contribs (s : State) : (s.giveWay).contribs = s.contribs := rfl
@[simp] theorem State.giveWay_dev (s : State) : (s.giveWay).dev = s.dev := rfl
@[simp] theorem State.giveWay_ep (s : State) : (s.giveWay).ep = s.ep := rfl
@[simp] theorem State.giveWay_err (s : State) : (s.giveWay).err = s.err := rfl
@[simp] theorem State.giveWay_out (s : State) : (s.giveWay).out = s.out := rfl
@[simp] theorem State.giveWay_inputs (s : State) : (s.giveWay).inputs = s.inputs := rfl
@[simp] theorem State.giveWay_turn (s : State) : (s.giveWay).turn = s.turn := rfl
@[simp] theorem State.giveWay_pace (s : State) : (s.giveWay).pace = s.pace := rfl
@[simp] theorem State.giveWay_free (s : State) : (s.giveWay).free = s.free := rfl

/-! ## State.toHome -/

@[simp] theorem State.toHome_cc (s : State) (op : HomeOp) : (s.toHome op).cc = s.cc := rfl
@[simp] theorem State.toHome_runs (s : State) (op : HomeOp) : (s.toHome op).runs = s.runs := rfl
@[simp] theorem State.toHome_cyc (s : State) (op : HomeOp) : (s.toHome op).cyc = s.cyc := rfl
@[simp] theorem State.toHome_tasks (s : State) (op : HomeOp) : (s.toHome op).tasks = s.tasks := rfl
@[simp] theorem State.toHome_taskGen (s : State) (op : HomeOp) : (s.toHome op).taskGen = s.taskGen := rfl
@[simp] theorem State.toHome_alm (s : State) (op : HomeOp) : (s.toHome op).alm = s.alm := rfl
@[simp] theorem State.toHome_allow (s : State) (op : HomeOp) : (s.toHome op).allow = s.allow := rfl
@[simp] theorem State.toHome_overrun (s : State) (op : HomeOp) : (s.toHome op).overrun = s.overrun := rfl
@[simp] theorem State.toHome_reqs (s : State) (op : HomeOp) : (s.toHome op).reqs = s.reqs := rfl
@[simp] theorem State.toHome_claim (s : State) (op : HomeOp) : (s.toHome op).claim = s.claim := rfl
@[simp] theorem State.toHome_bars (s : State) (op : HomeOp) : (s.toHome op).bars = s.bars := rfl
@[simp] theorem State.toHome_heldOps (s : State) (op : HomeOp) : (s.toHome op).heldOps = s.heldOps := rfl
@[simp] theorem State.toHome_peers (s : State) (op : HomeOp) : (s.toHome op).peers = s.peers := rfl
@[simp] theorem State.toHome_hostHeld (s : State) (op : HomeOp) : (s.toHome op).hostHeld = s.hostHeld := rfl
@[simp] theorem State.toHome_l1 (s : State) (op : HomeOp) : (s.toHome op).l1 = s.l1 := rfl
@[simp] theorem State.toHome_saveBuf (s : State) (op : HomeOp) : (s.toHome op).saveBuf = s.saveBuf := rfl
@[simp] theorem State.toHome_ringDone (s : State) (op : HomeOp) : (s.toHome op).ringDone = s.ringDone := rfl
@[simp] theorem State.toHome_barWaits (s : State) (op : HomeOp) : (s.toHome op).barWaits = s.barWaits := rfl
@[simp] theorem State.toHome_vigils (s : State) (op : HomeOp) : (s.toHome op).vigils = s.vigils := rfl
@[simp] theorem State.toHome_routines (s : State) (op : HomeOp) : (s.toHome op).routines = s.routines := rfl
@[simp] theorem State.toHome_ctxs (s : State) (op : HomeOp) : (s.toHome op).ctxs = s.ctxs := rfl
@[simp] theorem State.toHome_queues (s : State) (op : HomeOp) : (s.toHome op).queues = s.queues := rfl
@[simp] theorem State.toHome_mbox (s : State) (op : HomeOp) : (s.toHome op).mbox = s.mbox := rfl
@[simp] theorem State.toHome_guests (s : State) (op : HomeOp) : (s.toHome op).guests = s.guests := rfl
@[simp] theorem State.toHome_groups (s : State) (op : HomeOp) : (s.toHome op).groups = s.groups := rfl
@[simp] theorem State.toHome_rings (s : State) (op : HomeOp) : (s.toHome op).rings = s.rings := rfl
@[simp] theorem State.toHome_contribs (s : State) (op : HomeOp) : (s.toHome op).contribs = s.contribs := rfl
@[simp] theorem State.toHome_dev (s : State) (op : HomeOp) : (s.toHome op).dev = s.dev := rfl
@[simp] theorem State.toHome_ep (s : State) (op : HomeOp) : (s.toHome op).ep = s.ep := rfl
@[simp] theorem State.toHome_err (s : State) (op : HomeOp) : (s.toHome op).err = s.err := rfl
@[simp] theorem State.toHome_out (s : State) (op : HomeOp) : (s.toHome op).out = s.out := rfl
@[simp] theorem State.toHome_inputs (s : State) (op : HomeOp) : (s.toHome op).inputs = s.inputs := rfl
@[simp] theorem State.toHome_turn (s : State) (op : HomeOp) : (s.toHome op).turn = s.turn := rfl
@[simp] theorem State.toHome_pace (s : State) (op : HomeOp) : (s.toHome op).pace = s.pace := rfl
@[simp] theorem State.toHome_free (s : State) (op : HomeOp) : (s.toHome op).free = s.free := rfl

/-! ## State.putTask -/

@[simp] theorem State.putTask_cc (s : State) (t : TaskRec) : (s.putTask t).cc = s.cc := rfl
@[simp] theorem State.putTask_runs (s : State) (t : TaskRec) : (s.putTask t).runs = s.runs := rfl
@[simp] theorem State.putTask_cyc (s : State) (t : TaskRec) : (s.putTask t).cyc = s.cyc := rfl
@[simp] theorem State.putTask_taskGen (s : State) (t : TaskRec) : (s.putTask t).taskGen = s.taskGen := rfl
@[simp] theorem State.putTask_alm (s : State) (t : TaskRec) : (s.putTask t).alm = s.alm := rfl
@[simp] theorem State.putTask_allow (s : State) (t : TaskRec) : (s.putTask t).allow = s.allow := rfl
@[simp] theorem State.putTask_overrun (s : State) (t : TaskRec) : (s.putTask t).overrun = s.overrun := rfl
@[simp] theorem State.putTask_reqs (s : State) (t : TaskRec) : (s.putTask t).reqs = s.reqs := rfl
@[simp] theorem State.putTask_claim (s : State) (t : TaskRec) : (s.putTask t).claim = s.claim := rfl
@[simp] theorem State.putTask_homes (s : State) (t : TaskRec) : (s.putTask t).homes = s.homes := rfl
@[simp] theorem State.putTask_heldOps (s : State) (t : TaskRec) : (s.putTask t).heldOps = s.heldOps := rfl
@[simp] theorem State.putTask_peers (s : State) (t : TaskRec) : (s.putTask t).peers = s.peers := rfl
@[simp] theorem State.putTask_hostHeld (s : State) (t : TaskRec) : (s.putTask t).hostHeld = s.hostHeld := rfl
@[simp] theorem State.putTask_l1 (s : State) (t : TaskRec) : (s.putTask t).l1 = s.l1 := rfl
@[simp] theorem State.putTask_saveBuf (s : State) (t : TaskRec) : (s.putTask t).saveBuf = s.saveBuf := rfl
@[simp] theorem State.putTask_ringDone (s : State) (t : TaskRec) : (s.putTask t).ringDone = s.ringDone := rfl
@[simp] theorem State.putTask_bars (s : State) (t : TaskRec) : (s.putTask t).bars = s.bars := rfl
@[simp] theorem State.putTask_barWaits (s : State) (t : TaskRec) : (s.putTask t).barWaits = s.barWaits := rfl
@[simp] theorem State.putTask_vigils (s : State) (t : TaskRec) : (s.putTask t).vigils = s.vigils := rfl
@[simp] theorem State.putTask_routines (s : State) (t : TaskRec) : (s.putTask t).routines = s.routines := rfl
@[simp] theorem State.putTask_ctxs (s : State) (t : TaskRec) : (s.putTask t).ctxs = s.ctxs := rfl
@[simp] theorem State.putTask_queues (s : State) (t : TaskRec) : (s.putTask t).queues = s.queues := rfl
@[simp] theorem State.putTask_mbox (s : State) (t : TaskRec) : (s.putTask t).mbox = s.mbox := rfl
@[simp] theorem State.putTask_guests (s : State) (t : TaskRec) : (s.putTask t).guests = s.guests := rfl
@[simp] theorem State.putTask_groups (s : State) (t : TaskRec) : (s.putTask t).groups = s.groups := rfl
@[simp] theorem State.putTask_rings (s : State) (t : TaskRec) : (s.putTask t).rings = s.rings := rfl
@[simp] theorem State.putTask_contribs (s : State) (t : TaskRec) : (s.putTask t).contribs = s.contribs := rfl
@[simp] theorem State.putTask_dev (s : State) (t : TaskRec) : (s.putTask t).dev = s.dev := rfl
@[simp] theorem State.putTask_ep (s : State) (t : TaskRec) : (s.putTask t).ep = s.ep := rfl
@[simp] theorem State.putTask_err (s : State) (t : TaskRec) : (s.putTask t).err = s.err := rfl
@[simp] theorem State.putTask_out (s : State) (t : TaskRec) : (s.putTask t).out = s.out := rfl
@[simp] theorem State.putTask_inputs (s : State) (t : TaskRec) : (s.putTask t).inputs = s.inputs := rfl
@[simp] theorem State.putTask_work (s : State) (t : TaskRec) : (s.putTask t).work = s.work := rfl
@[simp] theorem State.putTask_turn (s : State) (t : TaskRec) : (s.putTask t).turn = s.turn := rfl
@[simp] theorem State.putTask_pace (s : State) (t : TaskRec) : (s.putTask t).pace = s.pace := rfl
@[simp] theorem State.putTask_free (s : State) (t : TaskRec) : (s.putTask t).free = s.free := rfl

/-! ## State.fresh -/

@[simp] theorem State.fresh_cc (s : State) : (s.fresh).cc = s.cc := rfl
@[simp] theorem State.fresh_runs (s : State) : (s.fresh).runs = s.runs := rfl
@[simp] theorem State.fresh_cyc (s : State) : (s.fresh).cyc = s.cyc := rfl
@[simp] theorem State.fresh_tasks (s : State) : (s.fresh).tasks = s.tasks := rfl
@[simp] theorem State.fresh_taskGen (s : State) : (s.fresh).taskGen = s.taskGen := rfl
@[simp] theorem State.fresh_alm (s : State) : (s.fresh).alm = s.alm := rfl
@[simp] theorem State.fresh_allow (s : State) : (s.fresh).allow = s.allow := rfl
@[simp] theorem State.fresh_overrun (s : State) : (s.fresh).overrun = s.overrun := rfl
@[simp] theorem State.fresh_reqs (s : State) : (s.fresh).reqs = s.reqs := rfl
@[simp] theorem State.fresh_claim (s : State) : (s.fresh).claim = s.claim := rfl
@[simp] theorem State.fresh_homes (s : State) : (s.fresh).homes = s.homes := rfl
@[simp] theorem State.fresh_heldOps (s : State) : (s.fresh).heldOps = s.heldOps := rfl
@[simp] theorem State.fresh_peers (s : State) : (s.fresh).peers = s.peers := rfl
@[simp] theorem State.fresh_hostHeld (s : State) : (s.fresh).hostHeld = s.hostHeld := rfl
@[simp] theorem State.fresh_l1 (s : State) : (s.fresh).l1 = s.l1 := rfl
@[simp] theorem State.fresh_saveBuf (s : State) : (s.fresh).saveBuf = s.saveBuf := rfl
@[simp] theorem State.fresh_ringDone (s : State) : (s.fresh).ringDone = s.ringDone := rfl
@[simp] theorem State.fresh_bars (s : State) : (s.fresh).bars = s.bars := rfl
@[simp] theorem State.fresh_barWaits (s : State) : (s.fresh).barWaits = s.barWaits := rfl
@[simp] theorem State.fresh_vigils (s : State) : (s.fresh).vigils = s.vigils := rfl
@[simp] theorem State.fresh_routines (s : State) : (s.fresh).routines = s.routines := rfl
@[simp] theorem State.fresh_ctxs (s : State) : (s.fresh).ctxs = s.ctxs := rfl
@[simp] theorem State.fresh_queues (s : State) : (s.fresh).queues = s.queues := rfl
@[simp] theorem State.fresh_mbox (s : State) : (s.fresh).mbox = s.mbox := rfl
@[simp] theorem State.fresh_guests (s : State) : (s.fresh).guests = s.guests := rfl
@[simp] theorem State.fresh_groups (s : State) : (s.fresh).groups = s.groups := rfl
@[simp] theorem State.fresh_rings (s : State) : (s.fresh).rings = s.rings := rfl
@[simp] theorem State.fresh_contribs (s : State) : (s.fresh).contribs = s.contribs := rfl
@[simp] theorem State.fresh_dev (s : State) : (s.fresh).dev = s.dev := rfl
@[simp] theorem State.fresh_ep (s : State) : (s.fresh).ep = s.ep := rfl
@[simp] theorem State.fresh_err (s : State) : (s.fresh).err = s.err := rfl
@[simp] theorem State.fresh_out (s : State) : (s.fresh).out = s.out := rfl
@[simp] theorem State.fresh_inputs (s : State) : (s.fresh).inputs = s.inputs := rfl
@[simp] theorem State.fresh_work (s : State) : (s.fresh).work = s.work := rfl
@[simp] theorem State.fresh_turn (s : State) : (s.fresh).turn = s.turn := rfl
@[simp] theorem State.fresh_pace (s : State) : (s.fresh).pace = s.pace := rfl

/-! ## What each update puts into its fields -/

@[simp] theorem State.modCc_cc (s : State) (f : Run → Run) : (s.modCc f).cc = f s.cc := rfl
@[simp] theorem State.setReg_cc (s : State) (k : Reg) (v : W64) : (s.setReg k v).cc = s.cc.setReg k v := rfl
@[simp] theorem State.push_work (s : State) (i : Instr) : (s.push i).work = s.work ++ [i] := rfl
@[simp] theorem State.pushAll_work (s : State) (l : List Instr) : (s.pushAll l).work = s.work ++ l := rfl
@[simp] theorem State.giveWay_work (s : State) : s.giveWay.work = s.work ++ [.contextSwitch] := rfl
@[simp] theorem State.giveWay_cc (s : State) : s.giveWay.cc = { s.cc with yields := true } := rfl
@[simp] theorem State.toHome_homes (s : State) (op : HomeOp) : (s.toHome op).homes = s.homes ++ [op] := rfl
@[simp] theorem State.toHome_work (s : State) (op : HomeOp) : (s.toHome op).work = s.work ++ [.homeOperation] := rfl
@[simp] theorem State.putTask_tasks (s : State) (t : TaskRec) :
    (s.putTask t).tasks = SMap.ins s.tasks (handleKey t.handle) t := rfl
@[simp] theorem State.fresh_free (s : State) : s.fresh.free = s.free + 1 := rfl

end Sys2Proof.Machine
end

