-- ==== Sys2Proof/Laws/Registers.lean ====
section
/-! SUPPORT. Laws of the registers of a context: what a write to one of them leaves alone, what it reads as after,
and what an empty source leads to. -/

namespace Sys2Proof.Machine

/-! ## Fields that a register write leaves alone -/

@[simp] theorem Run.putCell_task (r : Run) (k : Reg) (c : RegCell) : (r.putCell k c).task = r.task := by
  unfold Run.putCell; split <;> rfl
@[simp] theorem Run.putCell_fc (r : Run) (k : Reg) (c : RegCell) : (r.putCell k c).fc = r.fc := by
  unfold Run.putCell; split <;> rfl
@[simp] theorem Run.putCell_ctxn (r : Run) (k : Reg) (c : RegCell) : (r.putCell k c).ctxn = r.ctxn := by
  unfold Run.putCell; split <;> rfl
@[simp] theorem Run.putCell_ctx (r : Run) (k : Reg) (c : RegCell) : (r.putCell k c).ctx = r.ctx := by
  unfold Run.putCell; split <;> rfl
@[simp] theorem Run.putCell_fz (r : Run) (k : Reg) (c : RegCell) : (r.putCell k c).fz = r.fz := by
  unfold Run.putCell; split <;> rfl
@[simp] theorem Run.putCell_strict (r : Run) (k : Reg) (c : RegCell) : (r.putCell k c).strict = r.strict := by
  unfold Run.putCell; split <;> rfl
@[simp] theorem Run.putCell_active (r : Run) (k : Reg) (c : RegCell) : (r.putCell k c).active = r.active := by
  unfold Run.putCell; split <;> rfl
@[simp] theorem Run.putCell_place (r : Run) (k : Reg) (c : RegCell) : (r.putCell k c).place = r.place := by
  unfold Run.putCell; split <;> rfl
@[simp] theorem Run.putCell_pc (r : Run) (k : Reg) (c : RegCell) : (r.putCell k c).pc = r.pc := by
  unfold Run.putCell; split <;> rfl
@[simp] theorem Run.putCell_loops (r : Run) (k : Reg) (c : RegCell) : (r.putCell k c).loops = r.loops := by
  unfold Run.putCell; split <;> rfl
@[simp] theorem Run.putCell_aside (r : Run) (k : Reg) (c : RegCell) : (r.putCell k c).aside = r.aside := by
  unfold Run.putCell; split <;> rfl
@[simp] theorem Run.putCell_flights (r : Run) (k : Reg) (c : RegCell) : (r.putCell k c).flights = r.flights := by
  unfold Run.putCell; split <;> rfl
@[simp] theorem Run.putCell_sys (r : Run) (k : Reg) (c : RegCell) : (r.putCell k c).sys = r.sys := by
  unfold Run.putCell; split <;> rfl
@[simp] theorem Run.putCell_due (r : Run) (k : Reg) (c : RegCell) : (r.putCell k c).due = r.due := by
  unfold Run.putCell; split <;> rfl
@[simp] theorem Run.putCell_stall (r : Run) (k : Reg) (c : RegCell) : (r.putCell k c).stall = r.stall := by
  unfold Run.putCell; split <;> rfl
@[simp] theorem Run.putCell_yields (r : Run) (k : Reg) (c : RegCell) : (r.putCell k c).yields = r.yields := by
  unfold Run.putCell; split <;> rfl
@[simp] theorem Run.putCell_pauseTo (r : Run) (k : Reg) (c : RegCell) : (r.putCell k c).pauseTo = r.pauseTo := by
  unfold Run.putCell; split <;> rfl
@[simp] theorem Run.putCell_cmdMem (r : Run) (k : Reg) (c : RegCell) : (r.putCell k c).cmdMem = r.cmdMem := by
  unfold Run.putCell; split <;> rfl
@[simp] theorem Run.putCell_tids (r : Run) (k : Reg) (c : RegCell) : (r.putCell k c).tids = r.tids := by
  unfold Run.putCell; split <;> rfl
@[simp] theorem Run.putCell_cmds (r : Run) (k : Reg) (c : RegCell) : (r.putCell k c).cmds = r.cmds := by
  unfold Run.putCell; split <;> rfl
@[simp] theorem Run.putCell_nextId (r : Run) (k : Reg) (c : RegCell) : (r.putCell k c).nextId = r.nextId := by
  unfold Run.putCell; split <;> rfl
@[simp] theorem Run.putCell_prevP (r : Run) (k : Reg) (c : RegCell) : (r.putCell k c).prevP = r.prevP := by
  unfold Run.putCell; split <;> rfl
@[simp] theorem Run.putCell_ports (r : Run) (k : Reg) (c : RegCell) : (r.putCell k c).ports = r.ports := by
  unfold Run.putCell; split <;> rfl
@[simp] theorem Run.putCell_region (r : Run) (k : Reg) (c : RegCell) : (r.putCell k c).region = r.region := by
  unfold Run.putCell; split <;> rfl
@[simp] theorem Run.putCell_tiles (r : Run) (k : Reg) (c : RegCell) : (r.putCell k c).tiles = r.tiles := by
  unfold Run.putCell; split <;> rfl
@[simp] theorem Run.putCell_coll (r : Run) (k : Reg) (c : RegCell) : (r.putCell k c).coll = r.coll := by
  unfold Run.putCell; split <;> rfl
@[simp] theorem Run.putCell_lease (r : Run) (k : Reg) (c : RegCell) : (r.putCell k c).lease = r.lease := by
  unfold Run.putCell; split <;> rfl
@[simp] theorem Run.putCell_extn (r : Run) (k : Reg) (c : RegCell) : (r.putCell k c).extn = r.extn := by
  unfold Run.putCell; split <;> rfl
@[simp] theorem Run.putCell_startC (r : Run) (k : Reg) (c : RegCell) : (r.putCell k c).startC = r.startC := by
  unfold Run.putCell; split <;> rfl
@[simp] theorem Run.putCell_relCur (r : Run) (k : Reg) (c : RegCell) : (r.putCell k c).relCur = r.relCur := by
  unfold Run.putCell; split <;> rfl
@[simp] theorem Run.putCell_preempt (r : Run) (k : Reg) (c : RegCell) : (r.putCell k c).preempt = r.preempt := by
  unfold Run.putCell; split <;> rfl
@[simp] theorem Run.putCell_ending (r : Run) (k : Reg) (c : RegCell) : (r.putCell k c).ending = r.ending := by
  unfold Run.putCell; split <;> rfl

@[simp] theorem Run.setReg_task (r : Run) (k : Reg) (v : W64) : (r.setReg k v).task = r.task := Run.putCell_task ..
@[simp] theorem Run.setReg_fc (r : Run) (k : Reg) (v : W64) : (r.setReg k v).fc = r.fc := Run.putCell_fc ..
@[simp] theorem Run.setReg_ctxn (r : Run) (k : Reg) (v : W64) : (r.setReg k v).ctxn = r.ctxn := Run.putCell_ctxn ..
@[simp] theorem Run.setReg_ctx (r : Run) (k : Reg) (v : W64) : (r.setReg k v).ctx = r.ctx := Run.putCell_ctx ..
@[simp] theorem Run.setReg_fz (r : Run) (k : Reg) (v : W64) : (r.setReg k v).fz = r.fz := Run.putCell_fz ..
@[simp] theorem Run.setReg_strict (r : Run) (k : Reg) (v : W64) : (r.setReg k v).strict = r.strict := Run.putCell_strict ..
@[simp] theorem Run.setReg_active (r : Run) (k : Reg) (v : W64) : (r.setReg k v).active = r.active := Run.putCell_active ..
@[simp] theorem Run.setReg_place (r : Run) (k : Reg) (v : W64) : (r.setReg k v).place = r.place := Run.putCell_place ..
@[simp] theorem Run.setReg_pc (r : Run) (k : Reg) (v : W64) : (r.setReg k v).pc = r.pc := Run.putCell_pc ..
@[simp] theorem Run.setReg_loops (r : Run) (k : Reg) (v : W64) : (r.setReg k v).loops = r.loops := Run.putCell_loops ..
@[simp] theorem Run.setReg_aside (r : Run) (k : Reg) (v : W64) : (r.setReg k v).aside = r.aside := Run.putCell_aside ..
@[simp] theorem Run.setReg_flights (r : Run) (k : Reg) (v : W64) : (r.setReg k v).flights = r.flights := Run.putCell_flights ..
@[simp] theorem Run.setReg_sys (r : Run) (k : Reg) (v : W64) : (r.setReg k v).sys = r.sys := Run.putCell_sys ..
@[simp] theorem Run.setReg_due (r : Run) (k : Reg) (v : W64) : (r.setReg k v).due = r.due := Run.putCell_due ..
@[simp] theorem Run.setReg_stall (r : Run) (k : Reg) (v : W64) : (r.setReg k v).stall = r.stall := Run.putCell_stall ..
@[simp] theorem Run.setReg_yields (r : Run) (k : Reg) (v : W64) : (r.setReg k v).yields = r.yields := Run.putCell_yields ..
@[simp] theorem Run.setReg_pauseTo (r : Run) (k : Reg) (v : W64) : (r.setReg k v).pauseTo = r.pauseTo := Run.putCell_pauseTo ..
@[simp] theorem Run.setReg_cmdMem (r : Run) (k : Reg) (v : W64) : (r.setReg k v).cmdMem = r.cmdMem := Run.putCell_cmdMem ..
@[simp] theorem Run.setReg_tids (r : Run) (k : Reg) (v : W64) : (r.setReg k v).tids = r.tids := Run.putCell_tids ..
@[simp] theorem Run.setReg_cmds (r : Run) (k : Reg) (v : W64) : (r.setReg k v).cmds = r.cmds := Run.putCell_cmds ..
@[simp] theorem Run.setReg_nextId (r : Run) (k : Reg) (v : W64) : (r.setReg k v).nextId = r.nextId := Run.putCell_nextId ..
@[simp] theorem Run.setReg_prevP (r : Run) (k : Reg) (v : W64) : (r.setReg k v).prevP = r.prevP := Run.putCell_prevP ..
@[simp] theorem Run.setReg_ports (r : Run) (k : Reg) (v : W64) : (r.setReg k v).ports = r.ports := Run.putCell_ports ..
@[simp] theorem Run.setReg_region (r : Run) (k : Reg) (v : W64) : (r.setReg k v).region = r.region := Run.putCell_region ..
@[simp] theorem Run.setReg_tiles (r : Run) (k : Reg) (v : W64) : (r.setReg k v).tiles = r.tiles := Run.putCell_tiles ..
@[simp] theorem Run.setReg_coll (r : Run) (k : Reg) (v : W64) : (r.setReg k v).coll = r.coll := Run.putCell_coll ..
@[simp] theorem Run.setReg_lease (r : Run) (k : Reg) (v : W64) : (r.setReg k v).lease = r.lease := Run.putCell_lease ..
@[simp] theorem Run.setReg_extn (r : Run) (k : Reg) (v : W64) : (r.setReg k v).extn = r.extn := Run.putCell_extn ..
@[simp] theorem Run.setReg_startC (r : Run) (k : Reg) (v : W64) : (r.setReg k v).startC = r.startC := Run.putCell_startC ..
@[simp] theorem Run.setReg_relCur (r : Run) (k : Reg) (v : W64) : (r.setReg k v).relCur = r.relCur := Run.putCell_relCur ..
@[simp] theorem Run.setReg_preempt (r : Run) (k : Reg) (v : W64) : (r.setReg k v).preempt = r.preempt := Run.putCell_preempt ..
@[simp] theorem Run.setReg_ending (r : Run) (k : Reg) (v : W64) : (r.setReg k v).ending = r.ending := Run.putCell_ending ..

@[simp] theorem Run.await_task (r : Run) (k : Reg) : (r.await k).task = r.task := Run.putCell_task ..
@[simp] theorem Run.await_fc (r : Run) (k : Reg) : (r.await k).fc = r.fc := Run.putCell_fc ..
@[simp] theorem Run.await_ctxn (r : Run) (k : Reg) : (r.await k).ctxn = r.ctxn := Run.putCell_ctxn ..
@[simp] theorem Run.await_ctx (r : Run) (k : Reg) : (r.await k).ctx = r.ctx := Run.putCell_ctx ..
@[simp] theorem Run.await_fz (r : Run) (k : Reg) : (r.await k).fz = r.fz := Run.putCell_fz ..
@[simp] theorem Run.await_strict (r : Run) (k : Reg) : (r.await k).strict = r.strict := Run.putCell_strict ..
@[simp] theorem Run.await_active (r : Run) (k : Reg) : (r.await k).active = r.active := Run.putCell_active ..
@[simp] theorem Run.await_place (r : Run) (k : Reg) : (r.await k).place = r.place := Run.putCell_place ..
@[simp] theorem Run.await_pc (r : Run) (k : Reg) : (r.await k).pc = r.pc := Run.putCell_pc ..
@[simp] theorem Run.await_loops (r : Run) (k : Reg) : (r.await k).loops = r.loops := Run.putCell_loops ..
@[simp] theorem Run.await_aside (r : Run) (k : Reg) : (r.await k).aside = r.aside := Run.putCell_aside ..
@[simp] theorem Run.await_flights (r : Run) (k : Reg) : (r.await k).flights = r.flights := Run.putCell_flights ..
@[simp] theorem Run.await_sys (r : Run) (k : Reg) : (r.await k).sys = r.sys := Run.putCell_sys ..
@[simp] theorem Run.await_due (r : Run) (k : Reg) : (r.await k).due = r.due := Run.putCell_due ..
@[simp] theorem Run.await_stall (r : Run) (k : Reg) : (r.await k).stall = r.stall := Run.putCell_stall ..
@[simp] theorem Run.await_yields (r : Run) (k : Reg) : (r.await k).yields = r.yields := Run.putCell_yields ..
@[simp] theorem Run.await_pauseTo (r : Run) (k : Reg) : (r.await k).pauseTo = r.pauseTo := Run.putCell_pauseTo ..
@[simp] theorem Run.await_cmdMem (r : Run) (k : Reg) : (r.await k).cmdMem = r.cmdMem := Run.putCell_cmdMem ..
@[simp] theorem Run.await_tids (r : Run) (k : Reg) : (r.await k).tids = r.tids := Run.putCell_tids ..
@[simp] theorem Run.await_cmds (r : Run) (k : Reg) : (r.await k).cmds = r.cmds := Run.putCell_cmds ..
@[simp] theorem Run.await_nextId (r : Run) (k : Reg) : (r.await k).nextId = r.nextId := Run.putCell_nextId ..
@[simp] theorem Run.await_prevP (r : Run) (k : Reg) : (r.await k).prevP = r.prevP := Run.putCell_prevP ..
@[simp] theorem Run.await_ports (r : Run) (k : Reg) : (r.await k).ports = r.ports := Run.putCell_ports ..
@[simp] theorem Run.await_region (r : Run) (k : Reg) : (r.await k).region = r.region := Run.putCell_region ..
@[simp] theorem Run.await_tiles (r : Run) (k : Reg) : (r.await k).tiles = r.tiles := Run.putCell_tiles ..
@[simp] theorem Run.await_coll (r : Run) (k : Reg) : (r.await k).coll = r.coll := Run.putCell_coll ..
@[simp] theorem Run.await_lease (r : Run) (k : Reg) : (r.await k).lease = r.lease := Run.putCell_lease ..
@[simp] theorem Run.await_extn (r : Run) (k : Reg) : (r.await k).extn = r.extn := Run.putCell_extn ..
@[simp] theorem Run.await_startC (r : Run) (k : Reg) : (r.await k).startC = r.startC := Run.putCell_startC ..
@[simp] theorem Run.await_relCur (r : Run) (k : Reg) : (r.await k).relCur = r.relCur := Run.putCell_relCur ..
@[simp] theorem Run.await_preempt (r : Run) (k : Reg) : (r.await k).preempt = r.preempt := Run.putCell_preempt ..
@[simp] theorem Run.await_ending (r : Run) (k : Reg) : (r.await k).ending = r.ending := Run.putCell_ending ..

@[simp] theorem Run.orphanReg_task (r : Run) (k : Reg) : (r.orphanReg k).task = r.task := Run.putCell_task ..
@[simp] theorem Run.orphanReg_fc (r : Run) (k : Reg) : (r.orphanReg k).fc = r.fc := Run.putCell_fc ..
@[simp] theorem Run.orphanReg_ctxn (r : Run) (k : Reg) : (r.orphanReg k).ctxn = r.ctxn := Run.putCell_ctxn ..
@[simp] theorem Run.orphanReg_ctx (r : Run) (k : Reg) : (r.orphanReg k).ctx = r.ctx := Run.putCell_ctx ..
@[simp] theorem Run.orphanReg_fz (r : Run) (k : Reg) : (r.orphanReg k).fz = r.fz := Run.putCell_fz ..
@[simp] theorem Run.orphanReg_strict (r : Run) (k : Reg) : (r.orphanReg k).strict = r.strict := Run.putCell_strict ..
@[simp] theorem Run.orphanReg_active (r : Run) (k : Reg) : (r.orphanReg k).active = r.active := Run.putCell_active ..
@[simp] theorem Run.orphanReg_place (r : Run) (k : Reg) : (r.orphanReg k).place = r.place := Run.putCell_place ..
@[simp] theorem Run.orphanReg_pc (r : Run) (k : Reg) : (r.orphanReg k).pc = r.pc := Run.putCell_pc ..
@[simp] theorem Run.orphanReg_loops (r : Run) (k : Reg) : (r.orphanReg k).loops = r.loops := Run.putCell_loops ..
@[simp] theorem Run.orphanReg_aside (r : Run) (k : Reg) : (r.orphanReg k).aside = r.aside := Run.putCell_aside ..
@[simp] theorem Run.orphanReg_flights (r : Run) (k : Reg) : (r.orphanReg k).flights = r.flights := Run.putCell_flights ..
@[simp] theorem Run.orphanReg_sys (r : Run) (k : Reg) : (r.orphanReg k).sys = r.sys := Run.putCell_sys ..
@[simp] theorem Run.orphanReg_due (r : Run) (k : Reg) : (r.orphanReg k).due = r.due := Run.putCell_due ..
@[simp] theorem Run.orphanReg_stall (r : Run) (k : Reg) : (r.orphanReg k).stall = r.stall := Run.putCell_stall ..
@[simp] theorem Run.orphanReg_yields (r : Run) (k : Reg) : (r.orphanReg k).yields = r.yields := Run.putCell_yields ..
@[simp] theorem Run.orphanReg_pauseTo (r : Run) (k : Reg) : (r.orphanReg k).pauseTo = r.pauseTo := Run.putCell_pauseTo ..
@[simp] theorem Run.orphanReg_cmdMem (r : Run) (k : Reg) : (r.orphanReg k).cmdMem = r.cmdMem := Run.putCell_cmdMem ..
@[simp] theorem Run.orphanReg_tids (r : Run) (k : Reg) : (r.orphanReg k).tids = r.tids := Run.putCell_tids ..
@[simp] theorem Run.orphanReg_cmds (r : Run) (k : Reg) : (r.orphanReg k).cmds = r.cmds := Run.putCell_cmds ..
@[simp] theorem Run.orphanReg_nextId (r : Run) (k : Reg) : (r.orphanReg k).nextId = r.nextId := Run.putCell_nextId ..
@[simp] theorem Run.orphanReg_prevP (r : Run) (k : Reg) : (r.orphanReg k).prevP = r.prevP := Run.putCell_prevP ..
@[simp] theorem Run.orphanReg_ports (r : Run) (k : Reg) : (r.orphanReg k).ports = r.ports := Run.putCell_ports ..
@[simp] theorem Run.orphanReg_region (r : Run) (k : Reg) : (r.orphanReg k).region = r.region := Run.putCell_region ..
@[simp] theorem Run.orphanReg_tiles (r : Run) (k : Reg) : (r.orphanReg k).tiles = r.tiles := Run.putCell_tiles ..
@[simp] theorem Run.orphanReg_coll (r : Run) (k : Reg) : (r.orphanReg k).coll = r.coll := Run.putCell_coll ..
@[simp] theorem Run.orphanReg_lease (r : Run) (k : Reg) : (r.orphanReg k).lease = r.lease := Run.putCell_lease ..
@[simp] theorem Run.orphanReg_extn (r : Run) (k : Reg) : (r.orphanReg k).extn = r.extn := Run.putCell_extn ..
@[simp] theorem Run.orphanReg_startC (r : Run) (k : Reg) : (r.orphanReg k).startC = r.startC := Run.putCell_startC ..
@[simp] theorem Run.orphanReg_relCur (r : Run) (k : Reg) : (r.orphanReg k).relCur = r.relCur := Run.putCell_relCur ..
@[simp] theorem Run.orphanReg_preempt (r : Run) (k : Reg) : (r.orphanReg k).preempt = r.preempt := Run.putCell_preempt ..
@[simp] theorem Run.orphanReg_ending (r : Run) (k : Reg) : (r.orphanReg k).ending = r.ending := Run.putCell_ending ..

/-! ## Cells -/

theorem Run.cell_putCell_self (r : Run) {k : Reg} (c : RegCell) (h : k ≠ 0#5) : (r.putCell k c).cell k = c := by
  simp [Run.putCell, Run.cell, h]

theorem Run.cell_putCell_other (r : Run) {j k : Reg} (c : RegCell) (h : j ≠ k) :
    (r.putCell k c).cell j = r.cell j := by
  unfold Run.putCell Run.cell
  split
  · rfl
  · exact Vector.getElem_set_ne k.isLt j.isLt (fun e => h (BitVec.eq_of_toNat_eq e.symm))

theorem Run.putCell_zero (r : Run) (c : RegCell) : r.putCell 0#5 c = r := rfl

/-- R82: a written register is full and reads as written; s0 reads 0. -/
theorem Run.reg_setReg_self (r : Run) (k : Reg) (v : W64) :
    (r.setReg k v).reg k = if k = 0#5 then 0#64 else v := by
  unfold Run.reg
  split
  · rfl
  · rename_i h; rw [Run.setReg, Run.cell_putCell_self r _ h]

theorem Run.full_setReg_self (r : Run) (k : Reg) (v : W64) : (r.setReg k v).full k = true := by
  unfold Run.full
  by_cases h : k = 0#5
  · simp [h]
  · rw [Run.setReg, Run.cell_putCell_self r _ h]; simp

theorem Run.cell_setReg_other (r : Run) {j k : Reg} (v : W64) (h : j ≠ k) : (r.setReg k v).cell j = r.cell j :=
  Run.cell_putCell_other r _ h

theorem Run.reg_setReg_other (r : Run) {j k : Reg} (v : W64) (h : j ≠ k) : (r.setReg k v).reg j = r.reg j := by
  unfold Run.reg; rw [Run.cell_setReg_other r v h]

theorem Run.full_setReg_other (r : Run) {j k : Reg} (v : W64) (h : j ≠ k) : (r.setReg k v).full j = r.full j := by
  unfold Run.full; rw [Run.cell_setReg_other r v h]

/-- R82, R85: a register that a late producer names is empty and awaited. -/
theorem Run.awaited_await_self (r : Run) {k : Reg} (h : k ≠ 0#5) : (r.await k).awaited k = true := by
  unfold Run.awaited Run.full Run.await
  rw [Run.cell_putCell_self r _ h]; simp [h]

/-- R87: a register that MKE names is empty and orphaned. -/
theorem Run.orphan_orphanReg_self (r : Run) {k : Reg} (h : k ≠ 0#5) : (r.orphanReg k).orphan k = true := by
  unfold Run.orphan Run.full Run.orphanReg
  rw [Run.cell_putCell_self r _ h]; simp [h]

theorem Run.full_zero (r : Run) : r.full 0#5 = true := rfl
theorem Run.reg_zero (r : Run) : r.reg 0#5 = 0#64 := rfl
theorem Run.awaited_zero (r : Run) : r.awaited 0#5 = false := rfl

/-- A full register is neither awaited nor orphaned. -/
theorem Run.not_awaited_of_full {r : Run} {k : Reg} (h : r.full k = true) : r.awaited k = false := by
  simp [Run.awaited, h]

end Sys2Proof.Machine
end

