-- ==== Sys2Proof/Laws/Operands.lean ====
section
/-! SUPPORT. What each shape of scalar instruction comes to: with its sources full and its destination not awaited it
runs; with an empty source it waits or traps; with an awaited destination it waits. -/

namespace Sys2Proof.Machine

/-- Every source is full: the instruction reads them. -/
theorem readSrcs_of_full {r : Run} {l : List Src} (h : ∀ x ∈ l, r.full x.1 = true) : readSrcs r l = .go := by
  have h1 : (l.any fun x => !r.full x.1 && (x.2 || r.orphan x.1)) = false := by
    rw [List.any_eq_false]; intro x hx; simp [h x hx]
  have h2 : (l.all fun x => r.full x.1) = true := by rw [List.all_eq_true]; exact h
  simp [readSrcs, h1, h2]

/-- R83: an empty trapping source, or an orphaned waiting one, traps and names the first empty source (R84). -/
theorem readSrcs_of_trap {r : Run} {l : List Src} {x : Src} (hx : x ∈ l) (he : r.full x.1 = false)
    (ht : x.2 = true ∨ r.orphan x.1 = true) : readSrcs r l = .trap (firstEmpty r l) := by
  have h1 : (l.any fun x => !r.full x.1 && (x.2 || r.orphan x.1)) = true := by
    rw [List.any_eq_true]; exact ⟨x, hx, by simp [he]; exact ht⟩
  simp [readSrcs, h1]

/-- R83: with no source that traps and one that is awaited, the instruction waits. -/
theorem readSrcs_of_wait {r : Run} {l : List Src} {x : Src} (hx : x ∈ l) (he : r.full x.1 = false)
    (hn : ∀ y ∈ l, r.full y.1 = false → y.2 = false ∧ r.orphan y.1 = false) : readSrcs r l = .wait := by
  have h1 : (l.any fun x => !r.full x.1 && (x.2 || r.orphan x.1)) = false := by
    rw [List.any_eq_false]
    intro y hy
    cases hf : r.full y.1
    · simp [hn y hy hf]
    · simp
  have h2 : (l.all fun x => r.full x.1) = false := by
    rw [List.all_eq_false]; exact ⟨x, hx, by simp [he]⟩
  simp [readSrcs, h1, h2]

theorem withSrcs_ready {l : List Src} {s : State} (h : ∀ x ∈ l, s.cc.full x.1 = true) (k : State → Result) :
    withSrcs l s k = k s := by
  simp [withSrcs, readSrcs_of_full h]

theorem withSrcs_trap {l : List Src} {s : State} {x : Src} (hx : x ∈ l) (he : s.cc.full x.1 = false)
    (ht : x.2 = true ∨ s.cc.orphan x.1 = true) (k : State → Result) :
    withSrcs l s k = .next (s.trap 0x02 0 (firstEmpty s.cc l).toNat 0#64 false) := by
  simp [withSrcs, readSrcs_of_trap hx he ht]

theorem withSrcs_wait {l : List Src} {s : State} {x : Src} (hx : x ∈ l) (he : s.cc.full x.1 = false)
    (hn : ∀ y ∈ l, s.cc.full y.1 = false → y.2 = false ∧ s.cc.orphan y.1 = false) (k : State → Result) :
    withSrcs l s k = .next s.stall := by
  simp [withSrcs, readSrcs_of_wait hx he hn]

theorem withDest_ready {d : Reg} {s : State} (h : s.cc.awaited d = false) (k : State → Result) :
    withDest d s k = k s := by simp [withDest, h]

theorem withDest_wait {d : Reg} {s : State} (h : s.cc.awaited d = true) (k : State → Result) :
    withDest d s k = .next s.stall := by simp [withDest, h]

/-- The shape of R89, R90, R92: with full sources and a free destination the result is written and control goes on. -/
theorem regReg_ready (f : W64 → W64 → W64) {d a b : Reg} (ta tb : Bool) {s : State} (ha : s.cc.full a = true)
    (hb : s.cc.full b = true) (hd : s.cc.awaited d = false) :
    regReg f d a b ta tb s = .next ((s.setReg d (f (s.reg a) (s.reg b))).retire) := by
  unfold regReg
  rw [withSrcs_ready (by simp [ha, hb]), withDest_ready hd]
  rfl

theorem regOne_ready (f : W64 → W64) {d a : Reg} (ta : Bool) {s : State} (ha : s.cc.full a = true)
    (hd : s.cc.awaited d = false) : regOne f d a ta s = .next ((s.setReg d (f (s.reg a))).retire) := by
  unfold regOne
  rw [withSrcs_ready (by simp [ha]), withDest_ready hd]
  rfl

theorem regConst_ready (v : State → W64) {d : Reg} {s : State} (hd : s.cc.awaited d = false) :
    regConst v d s = .next ((s.setReg d (v s)).retire) := by
  unfold regConst
  rw [withDest_ready hd]
  rfl

theorem branch_ready (c : W64 → W64 → Bool) {b a : Reg} (ta tb : Bool) (i : BitVec 14) {s : State}
    (ha : s.cc.full a = true) (hb : s.cc.full b = true) :
    branch c b a ta tb i s = .next (if c (s.reg a) (s.reg b) then s.jump (relTarget s i) else s.retire) := by
  unfold branch
  rw [withSrcs_ready (by simp [ha, hb])]

/-! ## The pc and the loop stack (R258) -/

/-- Where no entry ends, nothing is counted. -/
theorem loopEnd_none {pc : W64} {l : List LoopEnt} (h : ∀ e ∈ l, e.fin ≠ pc) : loopEnd pc l = (none, l) := by
  induction l with
  | nil => rfl
  | cons e l ih =>
    have h1 : e.fin ≠ pc := h e (by simp)
    have h2 := ih (fun x hx => h x (by simp [hx]))
    simp [loopEnd, h1, h2]

/-- Away from the end of a loop the pc moves on by one word. -/
theorem State.retire_pc {s : State} (h : ∀ e ∈ s.cc.loops, e.fin ≠ s.cc.pc) : s.retire.cc.pc = s.cc.pc + 4#64 := by
  simp [State.retire, Run.retire, loopEnd_none h, State.modCc]

theorem State.retire_loops {s : State} (h : ∀ e ∈ s.cc.loops, e.fin ≠ s.cc.pc) : s.retire.cc.loops = s.cc.loops := by
  simp [State.retire, Run.retire, loopEnd_none h, State.modCc]

@[simp] theorem State.retire_regs (s : State) : s.retire.cc.regs = s.cc.regs := rfl
@[simp] theorem State.jump_regs (s : State) (t : W64) : (s.jump t).cc.regs = s.cc.regs := rfl
@[simp] theorem State.jump_pc (s : State) (t : W64) : (s.jump t).cc.pc = t := rfl

/-- A completed write of a register: the whole state after it. -/
theorem finish_eq (d : Reg) (v : W64) (s : State) : finish d v s = .next ((s.setReg d v).retire) := rfl

/-- R85: a late producer marks rd, notes its delivery and goes on. -/
theorem finishLate_eq (d : Reg) (v : Option W64) (s : State) (f : Nat → State → State) :
    finishLate d v s f = .next (f s.cc.nextId (s.launch d v).2).retire := rfl

/-! ## Traps (R391) -/

/-- R391: with a handler address and no handler running, a precise trap enters the handler. -/
theorem State.trap_enters {s : State} (ht : s.cc.sys.tvec ≠ 0#64) (hm : s.cc.sys.hmode = false)
    (code reason detail : Nat) (tval : W64) (next : Bool) :
    (s.trap code reason detail tval next).cc.pc = s.cc.sys.tvec ∧
    (s.trap code reason detail tval next).cc.sys.cause = causeWord code reason detail ∧
    (s.trap code reason detail tval next).cc.sys.epc = (if next then s.cc.pc + 4#64 else s.cc.pc) ∧
    (s.trap code reason detail tval next).cc.sys.tval = tval ∧
    (s.trap code reason detail tval next).cc.sys.hmode = true ∧
    (s.trap code reason detail tval next).cc.loops = [] ∧
    (s.trap code reason detail tval next).cc.aside = s.cc.loops ∧
    (s.trap code reason detail tval next).cc.regs = s.cc.regs := by
  unfold State.trap State.trapEntry
  simp [ht, hm, State.modCc]

end Sys2Proof.Machine
end

