-- ==== Sys2Proof/Laws/Frames.lean ====
section
/-! SUPPORT. The frames of Safety.lean for the shapes the meanings are built from: a completed write of a register, a
wait, a trap entry, a late producer. -/

namespace Sys2Proof.Machine

/-- A register write changes the registers of its context and nothing else. -/
theorem Run.setReg_eq (r : Run) (k : Reg) (v : W64) : r.setReg k v = { r with regs := (r.setReg k v).regs } := by
  unfold Run.setReg Run.putCell; split <;> rfl

theorem Run.await_eq (r : Run) (k : Reg) : r.await k = { r with regs := (r.await k).regs } := by
  unfold Run.await Run.putCell; split <;> rfl

theorem Run.orphanReg_eq (r : Run) (k : Reg) : r.orphanReg k = { r with regs := (r.orphanReg k).regs } := by
  unfold Run.orphanReg Run.putCell; split <;> rfl

theorem SameBytes.of_mem {s t : State} (h : t.mem = s.mem) : SameBytes s t := fun _ => by rw [h]

/-- Where the pc goes when an instruction completes, from a state that differs only in what R258 does not read; `hg` is
R258 itself, `Obligations.LoopEndsAreCounted`. -/
theorem goesOn_retire {s t : State} (hg : GoesOn t t.retire) (hp : t.cc.pc = s.cc.pc) (hl : t.cc.loops = s.cc.loops) :
    GoesOn s t.retire := by
  unfold GoesOn at *
  rw [← hp, ← hl]
  exact hg

/-- What `finish` does, all of it. -/
theorem writes_finish (hg : ∀ u : State, GoesOn u u.retire) (d : Reg) (v : W64) (s : State) : Writes s ((s.setReg d v).retire) d v := by
  refine ⟨⟨Run.full_setReg_self .., Run.reg_setReg_self ..⟩, fun k hk => Run.cell_setReg_other _ _ hk,
    ⟨⟨rfl, SameBytes.of_mem (by simp)⟩, ?_⟩, goesOn_retire (hg _) (by simp) (by simp)⟩
  show (_ : Run) = _
  simp only [State.retire, Run.retire, State.modCc, State.setReg]
  rw [Run.setReg_eq]

/-- What `stall` does, all of it. -/
theorem waits_stall (s : State) : Waits s s.stall := by
  unfold State.stall State.giveWay State.modCc State.push
  simp only
  split <;> exact ⟨rfl, rfl, fun _ => rfl, rfl, rfl, fun _ => rfl⟩

/-- What a precise trap does when its handler can be entered (R391). -/
theorem enters_trap {s : State} (h : CanEnter s) (code reason detail : Nat) (tval : W64) (next : Bool) :
    Enters s (s.trap code reason detail tval next) (causeWord code reason detail)
      (if next then s.cc.pc + 4#64 else s.cc.pc) tval := by
  unfold State.trap State.trapEntry
  simp only [h.1, h.2]
  exact ⟨rfl, rfl, rfl, rfl, rfl, fun _ => rfl, rfl, fun _ => rfl⟩

/-- What starting a late producer does to its context, once the pc has moved on (R85). -/
theorem awaits_launch (hg : ∀ u : State, GoesOn u u.retire) (d : Reg) (v : Option W64) (s : State) : Awaits s ((s.launch d v).2.retire) d v := by
  refine ⟨fun h => ?_, fun k hk => ?_, rfl, ?_, goesOn_retire (hg _) (by simp [State.launch, State.modCc]) (by simp [State.launch, State.modCc])⟩
  · exact Run.awaited_await_self _ h
  · exact Run.cell_putCell_other _ _ hk
  · show (_ : Run) = _
    simp only [State.retire, Run.retire, State.modCc, State.launch]
    rw [Run.await_eq]

end Sys2Proof.Machine
end

