-- ==== Sys2Proof/Laws/KeepsMemoryExec.lean ====
section
/-! SUPPORT. What each meaning does to physical memory: an instruction that never writes memory leaves it as it is
(`exec…_mem`); every other keeps the canonical form (`exec…_wf`). -/

namespace Sys2Proof.Machine

theorem withCmd_wf (k : CmdRef) (s : State) (f : Run → Cmd → State → State)
    (hf : ∀ r c s, Memory.wf s.mem = true → Memory.wf (f r c s).mem = true) (hw : Memory.wf s.mem = true) :
    ∀ t, withCmd k s f = .next t → Memory.wf t.mem = true := by
  unfold withCmd; grind

theorem withSite_wf (a : SiteRef) (s : State) (f : Run → Site → State → State)
    (hf : ∀ r st s, Memory.wf s.mem = true → Memory.wf (f r st s).mem = true) (hw : Memory.wf s.mem = true) :
    ∀ t, withSite a s f = .next t → Memory.wf t.mem = true := by
  unfold withSite; grind

theorem withEvent_wf (i : Instr) (a : SiteRef) (s : State) (f : Run → Site → State → State)
    (hf : ∀ r st s, Memory.wf s.mem = true → Memory.wf (f r st s).mem = true) (hw : Memory.wf s.mem = true) :
    ∀ t, withEvent i a s f = .next t → Memory.wf t.mem = true := by
  have h1 := withSite_wf a s (fun r st s => if r.siteEvent st = some i then f r st s else s) (by grind) hw
  unfold withEvent; grind [State.wakeSite_mem]

theorem withEvent_mem (i : Instr) (a : SiteRef) (s : State) (f : Run → Site → State → State)
    (hf : ∀ r st s, (f r st s).mem = s.mem) : ∀ t, withEvent i a s f = .next t → t.mem = s.mem := by
  unfold withEvent withSite; grind [State.wakeSite_mem]

theorem withPort_wf (a : PortRef) (s : State) (f : Run → Port → State → State)
    (hf : ∀ r p s, Memory.wf s.mem = true → Memory.wf (f r p s).mem = true) (hw : Memory.wf s.mem = true) :
    ∀ t, withPort a s f = .next t → Memory.wf t.mem = true := by
  unfold withPort; grind

theorem withPacket_mem (r : PktRef) (s : State) (f : Queue → Packet → State → State)
    (hf : ∀ q p s, (f q p s).mem = s.mem) : ∀ t, withPacket r s f = .next t → t.mem = s.mem := by
  unfold withPacket; grind [State.endPacket_mem]

theorem withPacket_wf (r : PktRef) (s : State) (f : Queue → Packet → State → State)
    (hf : ∀ q p s, Memory.wf s.mem = true → Memory.wf (f q p s).mem = true) (hw : Memory.wf s.mem = true) :
    ∀ t, withPacket r s f = .next t → Memory.wf t.mem = true := by
  unfold withPacket; grind [State.endPacket_mem]

theorem withSrcs_wf (l : List Src) (s : State) (k : State → Result)
    (hk : ∀ t, k s = .next t → Memory.wf t.mem = true) (hw : Memory.wf s.mem = true) :
    ∀ t, withSrcs l s k = .next t → Memory.wf t.mem = true := by
  unfold withSrcs; grind [State.stall_mem, State.trap_wf]

theorem withDest_wf (d : Reg) (s : State) (k : State → Result)
    (hk : ∀ t, k s = .next t → Memory.wf t.mem = true) (hw : Memory.wf s.mem = true) :
    ∀ t, withDest d s k = .next t → Memory.wf t.mem = true := by
  unfold withDest; grind [State.stall_mem]

theorem withSignal_wf (x : CmdArgs) (s : State) (k : State → Result)
    (hk : ∀ t, k s = .next t → Memory.wf t.mem = true) (hw : Memory.wf s.mem = true) :
    ∀ t, withSignal x s k = .next t → Memory.wf t.mem = true := by
  unfold withSignal; grind [State.trapAcc_wf, State.ccLeaseFault_wf]

theorem withSync_wf (ea : W64) (n : SyncNeed) (c : BitVec 3) (s : State) (k : Extent → State → Result)
    (hk : ∀ e t, k e s = .next t → Memory.wf t.mem = true) (hw : Memory.wf s.mem = true) :
    ∀ t, withSync ea n c s k = .next t → Memory.wf t.mem = true := by
  unfold withSync; grind [State.trapAcc_wf, State.ccLeaseFault_wf, State.stall_mem]

theorem finishLate_wf (d : Reg) (v : Option W64) (s : State) (f : Nat → State → State)
    (hf : ∀ n s, (f n s).mem = s.mem) (hw : Memory.wf s.mem = true) :
    ∀ t, finishLate d v s f = .next t → Memory.wf t.mem = true := by
  unfold finishLate; grind [State.retire_mem, State.launch_mem]

theorem withScratch_wf (h : W64) (r : Run) (st : Site) (e : Nat × WinEnt) (s : State) (k : Nat → Nat → MbRes)
    (hk : ∀ o c, mbKeeps (k o c)) (hw : Memory.wf s.mem = true) : mbKeeps (withScratch h r st e s k) := by
  unfold withScratch; grind [mbKeeps, State.regionFault_wf]

theorem storeShadow_wf (h : W64) (st : Site) (pl : ShadowAt) (addr : Nat) (bs : List Byte) (d l : Rec) (s : State)
    (hw : Memory.wf s.mem = true) : mbKeeps (storeShadow h st pl addr bs d l s) := by
  unfold storeShadow; grind [mbKeeps, State.modRun_mem, State.wantEdge_mem]

theorem storeMem_wf (h : W64) (st : Site) (y : Extent) (ea : Nat) (bs : List Byte) (q : Rec) (s : State)
    (hw : Memory.wf s.mem = true) : mbKeeps (storeMem h st y ea bs q s) := by
  unfold storeMem; grind [storeShadow_wf]

theorem withMem_wf (h : W64) (r : Run) (st : Site) (e : Nat × WinEnt) (right : Right) (s : State)
    (k : Extent → Nat → Nat → MbRes) (d : MbRes) (hk : ∀ y a n, mbKeeps (k y a n)) (hd : mbKeeps d)
    (hw : Memory.wf s.mem = true) : mbKeeps (withMem h r st e right s k d) := by
  unfold withMem; grind [mbKeeps, State.regionFault_wf, State.regionAcc_wf]

theorem withLines_wf (h : W64) (st : Site) (l : List Nat) (q : Rec) (s : State) (k : State → MbRes)
    (hk : ∀ s, Memory.wf s.mem = true → mbKeeps (k s)) (hw : Memory.wf s.mem = true) :
    mbKeeps (withLines h st l q s k) := by
  unfold withLines; grind [mbKeeps, State.putSite_mem, State.pushNew_mem, State.l1Seen_mem]

theorem memRes_wf {α : Type} (h : W64) (st : Site) (e : Nat × WinEnt) (r : Except AccErr α × State)
    (k : α → State → MbRes) (hk : ∀ v t, Memory.wf t.mem = true → mbKeeps (k v t))
    (hr : Memory.wf r.2.mem = true) : mbKeeps (memRes h st e r k) := by
  unfold memRes; grind [mbKeeps, State.regionAcc_wf]

theorem parkRec_wf (h : W64) (st : Site) (x : SiteArgs) (va : Nat) (z : Bool) (q : Rec) (s : State)
    (hw : Memory.wf s.mem = true) : mbKeeps (parkRec h st x va z q s) := by
  unfold parkRec; grind [mbKeeps, State.putSite_mem, State.armPark_wf, State.fresh_mem]

theorem parkAt_wf (h : W64) (st : Site) (x : SiteArgs) (va pa : Nat) (z : Bool) (q : Rec) (s : State)
    (hw : Memory.wf s.mem = true) : mbKeeps (parkAt h st x va pa z q s) := by
  unfold parkAt; grind [mbKeeps, parkRec_wf]

theorem mbWord_wf (i : Instr) (a : SiteRef) (s : State) (f : Run → Site → Nat × WinEnt → Rec → State → MbRes)
    (hf : ∀ r st e q s, Memory.wf s.mem = true → mbKeeps (f r st e q s)) (hw : Memory.wf s.mem = true) :
    ∀ t, mbWord i a s f = .next t → Memory.wf t.mem = true := by
  unfold mbWord
  refine withEvent_wf i a s _ (fun r st s hs => ?_) hw
  have h1 := fun st l s hs => mbRun_keeps (fun s => Memory.wf s.mem = true) (f r st)
    (fun e q s o t h he => by have := hf r st e q s h; rw [he] at this; exact this)
    (fun e q s t h he => by have := hf r st e q s h; rw [he] at this; exact this) l s hs
  grind [State.emitMb_mem, State.putSite_mem]

theorem alWord_mem (i : Instr) (a : SiteRef) (x : SiteArgs) (s : State) (f : Bool → AlFn) :
    ∀ t, alWord i a x s f = .next t → t.mem = s.mem := by
  unfold alWord
  refine withEvent_mem i a s _ (fun r st s => ?_)
  split
  · exact State.alStep_mem ..
  · split
    · rfl
    · exact State.alStep_mem ..

theorem withSound_wf (reads : Bool) (ea : W64) (n right : Nat) (e : Extent) (s : State) (k : State → Result)
    (hk : ∀ t, k s = .next t → Memory.wf t.mem = true) (hw : Memory.wf s.mem = true) :
    ∀ t, withSound reads ea n right e s k = .next t → Memory.wf t.mem = true := by
  unfold withSound
  split
  · grind [State.memFault_wf]
  · exact hk

theorem syncRet_wf (d : Reg) (ea : W64) (size8 : Bool) (kind : HomeKind) (scope : Nat) (n : Nat) (needR : Bool)
    (needW : Bool) (e : Extent) (s : State) (hw : Memory.wf s.mem = true) :
    ∀ t, syncRet d ea size8 kind scope n needR needW e s = .next t → Memory.wf t.mem = true := by
  unfold syncRet
  grind [State.queueAcc_mem, finishLate, State.retire_mem, State.launch_mem, withSound_wf, State.issueSync_wf,
      Memory.wf_memPuts]

theorem atomLocal_wf (d : Reg) (ea : W64) (z : Bool) (kind : HomeKind) (e : Extent) (s : State) (hw : Memory.wf
    s.mem = true) :
    ∀ t, atomLocal d ea z kind e s = .next t → Memory.wf t.mem = true := by
  unfold atomLocal
  grind [State.performAt_wf, syncRet_wf, finishLate, State.retire_mem, State.launch_mem, withSound_wf,
      Memory.wf_memPuts]

theorem branch_wf (c : W64 → W64 → Bool) (b : Reg) (a : Reg) (ta : Bool) (tb : Bool) (i : BitVec 14) (s : State)
    (hw : Memory.wf s.mem = true) :
    ∀ t, branch c b a ta tb i s = .next t → Memory.wf t.mem = true := by
  unfold branch
  grind [State.retire_mem, withSrcs, State.stall_mem, State.trap_wf, State.jump_mem, Memory.wf_memPuts]

theorem execPowerGood_wf (b : BringUp) (s : State) (hw : Memory.wf s.mem = true) :
    ∀ t, execPowerGood b s = .next t → Memory.wf t.mem = true := by
  unfold execPowerGood
  grind [State.boot_mem, State.inReset_wf, Memory.wf_memPuts]

theorem execReadalm_wf (s : State) (hw : Memory.wf s.mem = true) :
    ∀ t, execReadalm s = .next t → Memory.wf t.mem = true := by
  unfold execReadalm
  grind [State.answerMail_wf, withMail, State.mailAnswer_wf, Memory.wf_memPuts]

theorem finish_mem (d : Reg) (v : W64) (s : State) :
    ∀ t, finish d v s = .next t → t.mem = s.mem := by
  unfold finish
  grind [State.setReg_mem, State.retire_mem]

theorem regReg_wf (f : W64 → W64 → W64) (d : Reg) (a : Reg) (b : Reg) (ta : Bool) (tb : Bool) (s : State) (hw :
    Memory.wf s.mem = true) :
    ∀ t, regReg f d a b ta tb s = .next t → Memory.wf t.mem = true := by
  unfold regReg
  grind [finish_mem, withSrcs, State.stall_mem, State.trap_wf, withDest, Memory.wf_memPuts]

theorem execDiv_wf (d : Reg) (a : Reg) (b : Reg) (ta : Bool) (tb : Bool) (s : State) (hw : Memory.wf s.mem = true) :
    ∀ t, execDiv d a b ta tb s = .next t → Memory.wf t.mem = true := by
  unfold execDiv
  grind [regReg_wf, Memory.wf_memPuts]

theorem execHfma2_mem (at_ : SiteRef) (x : SiteArgs) (s : State) :
    ∀ t, execHfma2 at_ x s = .next t → t.mem = s.mem := by
  unfold execHfma2
  grind [alWord_mem]

theorem execPromiseMissed_mem (s : State) :
    ∀ t, execPromiseMissed s = .next t → t.mem = s.mem := by
  unfold execPromiseMissed
  grind [State.modAll_mem]

theorem queueOnly_mem (ea : W64) (kind : AccKind) (s : State) :
    ∀ t, queueOnly ea kind s = .next t → t.mem = s.mem := by
  unfold queueOnly
  grind [State.retire_mem, State.number_mem, State.queueAcc_mem]

theorem storeAt_wf (ea : W64) (bs : List Byte) (e : Extent) (s : State) (hw : Memory.wf s.mem = true) :
    ∀ t, storeAt ea bs e s = .next t → Memory.wf t.mem = true := by
  unfold storeAt
  grind [State.importFault_wf, State.retire_mem, writePlace_wf, Memory.wf_memPuts]

theorem store_wf (b : Reg) (a : Reg) (ta : Bool) (tb : Bool) (z : BitVec 2) (o : BitVec 12) (s : State) (hw :
    Memory.wf s.mem = true) :
    ∀ t, store b a ta tb z o s = .next t → Memory.wf t.mem = true := by
  unfold store
  grind [withSrcs, State.stall_mem, State.trap_wf, queueOnly_mem, storeAt_wf, withAccess, State.ccLeaseFault_wf,
      State.trapAcc_wf, Memory.wf_memPuts]

theorem execStr_wf (b : Reg) (a : Reg) (ta : Bool) (tb : Bool) (z : BitVec 2) (o : BitVec 12) (s : State) (hw :
    Memory.wf s.mem = true) :
    ∀ t, execStr b a ta tb z o s = .next t → Memory.wf t.mem = true := by
  unfold execStr
  grind [store_wf, Memory.wf_memPuts]

theorem execBfi_wf (d : Reg) (a : Reg) (ta : Bool) (w : BitVec 6) (p : BitVec 6) (s : State) (hw : Memory.wf s.mem
    = true) :
    ∀ t, execBfi d a ta w p s = .next t → Memory.wf t.mem = true := by
  unfold execBfi
  grind [finish_mem, withSrcs, State.stall_mem, State.trap_wf, Memory.wf_memPuts]

theorem execSetw_wf (s : State) (hw : Memory.wf s.mem = true) :
    ∀ t, execSetw s = .next t → Memory.wf t.mem = true := by
  unfold execSetw
  grind [State.putQueue_mem, withMail, State.mailAnswer_wf, Memory.wf_memPuts]

theorem execShr_mem (at_ : SiteRef) (x : SiteArgs) (s : State) :
    ∀ t, execShr at_ x s = .next t → t.mem = s.mem := by
  unfold execShr
  grind [alWord_mem]

theorem execGuestCompletion_mem (site : Nat) (tag : Nat) (s : State) :
    ∀ t, execGuestCompletion site tag s = .next t → t.mem = s.mem := by
  unfold execGuestCompletion
  grind [State.guestComplete_mem]

theorem spJoin_wf (i : Instr) (a : SiteRef) (whole : Bool) (s : State) (f : Run → Site → SpCore → List SpLane →
    SpRes) (hw : Memory.wf s.mem = true) :
    ∀ t, spJoin i a whole s f = .next t → Memory.wf t.mem = true := by
  unfold spJoin
  grind [State.spDone_wf, withEvent, State.wakeSite_mem, withSite, Memory.wf_memPuts]

theorem execScan_wf (at_ : SiteRef) (x : SiteArgs) (s : State) (hw : Memory.wf s.mem = true) :
    ∀ t, execScan at_ x s = .next t → Memory.wf t.mem = true := by
  unfold execScan
  grind [spJoin_wf, Memory.wf_memPuts]

theorem execFsub_mem (at_ : SiteRef) (x : SiteArgs) (s : State) :
    ∀ t, execFsub at_ x s = .next t → t.mem = s.mem := by
  unfold execFsub
  grind [alWord_mem]

theorem execSra_wf (d : Reg) (a : Reg) (b : Reg) (ta : Bool) (tb : Bool) (s : State) (hw : Memory.wf s.mem = true) :
    ∀ t, execSra d a b ta tb s = .next t → Memory.wf t.mem = true := by
  unfold execSra
  grind [regReg_wf, Memory.wf_memPuts]

theorem execLoadrtn_wf (s : State) (hw : Memory.wf s.mem = true) :
    ∀ t, execLoadrtn s = .next t → Memory.wf t.mem = true := by
  unfold execLoadrtn
  grind [withMail, State.mailAnswer_wf, Memory.wf_memPuts]

theorem execFrsq_mem (at_ : SiteRef) (x : SiteArgs) (s : State) :
    ∀ t, execFrsq at_ x s = .next t → t.mem = s.mem := by
  unfold execFrsq
  grind [alWord_mem]

theorem execConst_mem (at_ : SiteRef) (x : SiteArgs) (s : State) :
    ∀ t, execConst at_ x s = .next t → t.mem = s.mem := by
  unfold execConst
  grind [alWord_mem]

theorem execMbServiceCycle_mem (at_ : SiteRef) (s : State) :
    ∀ t, execMbServiceCycle at_ s = .next t → t.mem = s.mem := by
  unfold execMbServiceCycle
  grind [State.serve_mem, withEvent, State.wakeSite_mem, withSite]

theorem execTidclr_mem (k : CmdRef) (x : CmdArgs) (s : State) :
    ∀ t, execTidclr k x s = .next t → t.mem = s.mem := by
  unfold execTidclr
  grind [State.cmdDone_mem, State.modRun_mem, withCmd]

theorem execGuestPreemptAnswer_wf (site : Nat) (tag : Nat) (ans : GuestAnswer) (s : State) (hw : Memory.wf s.mem =
    true) :
    ∀ t, execGuestPreemptAnswer site tag ans s = .next t → Memory.wf t.mem = true := by
  unfold execGuestPreemptAnswer
  grind [State.guestSaved_wf, State.guestFault_wf, State.guestComplete_mem, Memory.wf_memPuts]

theorem execRepeat_wf (at_ : SiteRef) (x : SiteArgs) (s : State) (hw : Memory.wf s.mem = true) :
    ∀ t, execRepeat at_ x s = .next t → Memory.wf t.mem = true := by
  unfold execRepeat
  grind [spJoin_wf, Memory.wf_memPuts]

theorem execSignal_wf (k : CmdRef) (x : CmdArgs) (s : State) (hw : Memory.wf s.mem = true) :
    ∀ t, execSignal k x s = .next t → Memory.wf t.mem = true := by
  unfold execSignal
  grind [State.syncCmd_wf, withCmd, Memory.wf_memPuts]

theorem execPbind_mem (k : CmdRef) (x : CmdArgs) (s : State) :
    ∀ t, execPbind k x s = .next t → t.mem = s.mem := by
  unfold execPbind
  grind [State.putPort_mem, State.cmdDone_mem, withPortCmd, withCmd, State.losePush_mem]

theorem execFexp2_mem (at_ : SiteRef) (x : SiteArgs) (s : State) :
    ∀ t, execFexp2 at_ x s = .next t → t.mem = s.mem := by
  unfold execFexp2
  grind [alWord_mem]

theorem execFmul_mem (at_ : SiteRef) (x : SiteArgs) (s : State) :
    ∀ t, execFmul at_ x s = .next t → t.mem = s.mem := by
  unfold execFmul
  grind [alWord_mem]

theorem execMinu_wf (d : Reg) (a : Reg) (b : Reg) (ta : Bool) (tb : Bool) (s : State) (hw : Memory.wf s.mem = true) :
    ∀ t, execMinu d a b ta tb s = .next t → Memory.wf t.mem = true := by
  unfold execMinu
  grind [regReg_wf, Memory.wf_memPuts]

theorem execSar_mem (at_ : SiteRef) (x : SiteArgs) (s : State) :
    ∀ t, execSar at_ x s = .next t → t.mem = s.mem := by
  unfold execSar
  grind [alWord_mem]

theorem execFclass_mem (at_ : SiteRef) (x : SiteArgs) (s : State) :
    ∀ t, execFclass at_ x s = .next t → t.mem = s.mem := by
  unfold execFclass
  grind [alWord_mem]

theorem execPortRunAhead_mem (p : PortRef) (s : State) :
    ∀ t, execPortRunAhead p s = .next t → t.mem = s.mem := by
  unfold execPortRunAhead
  grind [withPort, State.runAhead_mem]

theorem withTable_wf (ea : W64) (e : Extent) (n : Nat) (s : State) (k : List W64 → State → Result)
    (hk : ∀ ws u, u.mem = s.mem → ∀ t, k ws u = .next t → Memory.wf t.mem = true)
    (hw : Memory.wf s.mem = true) : ∀ t, withTable ea e n s k = .next t → Memory.wf t.mem = true := by
  have h1 := ccWords_mem s e ea n
  unfold withTable
  split
  · grind [State.memFault_wf]
  · split
    · grind [State.importFault_wf]
    · rename_i ws s1 he
      exact hk _ _ (by grind)

theorem execSpawn_wf (d a b : Reg) (ta tb p : Bool) (r : BitVec 3) (s : State) (hw : Memory.wf s.mem = true) :
    ∀ t, execSpawn d a b ta tb p r s = .next t → Memory.wf t.mem = true := by
  unfold execSpawn
  refine withSrcs_wf _ _ _ ?_ hw
  simp only [withAccess]
  split
  · grind [State.trap_wf, State.trapAcc_wf]
  · split
    · grind [State.ccLeaseFault_wf]
    · split
      · grind [State.stall_mem]
      · refine withTable_wf _ _ _ _ _ (fun ws s1 hm => ?_) hw
        have h2 : Memory.wf s1.mem = true := by rw [hm]; exact hw
        split
        · grind [State.trap_wf, State.trapAcc_wf]
        · refine withDest_wf _ _ _ ?_ h2
          split
          · grind [State.trap_wf, State.trapAcc_wf]
          · rename_i h s2 hn
            exact finishLate_wf _ _ _ _ (fun n s => State.push_mem ..) (by
              rw [State.newTask_mem _ _ _ _ _ _ _ _ _ hn]; exact h2)

theorem execLoop_wf (a : Reg) (ta : Bool) (l : BitVec 13) (s : State) (hw : Memory.wf s.mem = true) :
    ∀ t, execLoop a ta l s = .next t → Memory.wf t.mem = true := by
  unfold execLoop
  grind [State.retire_mem, State.modCc_mem, withSrcs, State.stall_mem, State.trap_wf, State.jump_mem,
      Memory.wf_memPuts]

theorem execFmin_mem (at_ : SiteRef) (x : SiteArgs) (s : State) :
    ∀ t, execFmin at_ x s = .next t → t.mem = s.mem := by
  unfold execFmin
  grind [alWord_mem]

theorem execPstart_mem (k : CmdRef) (x : CmdArgs) (s : State) :
    ∀ t, execPstart k x s = .next t → t.mem = s.mem := by
  unfold execPstart
  grind [State.putPort_mem, State.cmdDone_mem, withPortCmd, withCmd]

theorem execPktNop_mem (p : PktRef) (s : State) :
    ∀ t, execPktNop p s = .next t → t.mem = s.mem := by
  unfold execPktNop
  grind [State.endPacket_mem, withPacket]

theorem runMma_mem (zero : Bool) (k : CmdRef) (x : CmdArgs) (s : State) :
    ∀ t, runMma zero k x s = .next t → t.mem = s.mem := by
  unfold runMma
  grind [State.cmdDone_mem, State.modRun_mem, withCmd]

theorem execMmazE2m1_mem (k : CmdRef) (x : CmdArgs) (s : State) :
    ∀ t, execMmazE2m1 k x s = .next t → t.mem = s.mem := by
  unfold execMmazE2m1
  grind [runMma_mem]

theorem execFence_mem (_e : Bool) (_f : Bool) (_g : Bool) (_h : Bool) (_c : BitVec 3) (s : State) :
    ∀ t, execFence _e _f _g _h _c s = .next t → t.mem = s.mem := by
  unfold execFence
  grind [State.retire_mem]

theorem execTidset_wf (k : CmdRef) (x : CmdArgs) (s : State) (hw : Memory.wf s.mem = true) :
    ∀ t, execTidset k x s = .next t → Memory.wf t.mem = true := by
  unfold execTidset
  grind [State.cmdDone_mem, State.modRun_mem, withCmd, readExt_mem, State.cmdFault_wf, Memory.wf_memPuts]

theorem execBgeu_wf (b : Reg) (a : Reg) (ta : Bool) (tb : Bool) (i : BitVec 14) (s : State) (hw : Memory.wf s.mem =
    true) :
    ∀ t, execBgeu b a ta tb i s = .next t → Memory.wf t.mem = true := by
  unfold execBgeu
  grind [branch_wf, Memory.wf_memPuts]

theorem execMmazE4m3_mem (k : CmdRef) (x : CmdArgs) (s : State) :
    ∀ t, execMmazE4m3 k x s = .next t → t.mem = s.mem := by
  unfold execMmazE4m3
  grind [runMma_mem]

theorem execImportRefusal_wf (task : W64) (va : W64) (reason : RefusedAccess) (s : State) (hw : Memory.wf s.mem =
    true) :
    ∀ t, execImportRefusal task va reason s = .next t → Memory.wf t.mem = true := by
  unfold execImportRefusal
  grind [State.refused_wf, Memory.wf_memPuts]

theorem execAnd_wf (d : Reg) (a : Reg) (b : Reg) (ta : Bool) (tb : Bool) (s : State) (hw : Memory.wf s.mem = true) :
    ∀ t, execAnd d a b ta tb s = .next t → Memory.wf t.mem = true := by
  unfold execAnd
  grind [regReg_wf, Memory.wf_memPuts]

theorem execMmaL6_mem (k : CmdRef) (x : CmdArgs) (s : State) :
    ∀ t, execMmaL6 k x s = .next t → t.mem = s.mem := by
  unfold execMmaL6
  grind [runMma_mem]

theorem execBlt_wf (b : Reg) (a : Reg) (ta : Bool) (tb : Bool) (i : BitVec 14) (s : State) (hw : Memory.wf s.mem =
    true) :
    ∀ t, execBlt b a ta tb i s = .next t → Memory.wf t.mem = true := by
  unfold execBlt
  grind [branch_wf, Memory.wf_memPuts]

theorem execBge_wf (b : Reg) (a : Reg) (ta : Bool) (tb : Bool) (i : BitVec 14) (s : State) (hw : Memory.wf s.mem =
    true) :
    ∀ t, execBge b a ta tb i s = .next t → Memory.wf t.mem = true := by
  unfold execBge
  grind [branch_wf, Memory.wf_memPuts]

theorem execPktBarrier_wf (p : PktRef) (s : State) (hw : Memory.wf s.mem = true) :
    ∀ t, execPktBarrier p s = .next t → Memory.wf t.mem = true := by
  unfold execPktBarrier
  refine withPacket_wf _ _ _ (fun q k s hs => ?_) hw
  dsimp only
  split
  · rw [State.endPacket_mem]; exact hs
  · split
    · rw [State.endPacket_mem]; exact hs
    · exact foldl_wf _ (fun s x hs => State.armSlot_wf _ _ _ _ _ hs) _ _ (by rw [State.modPacket_mem]; exact hs)

theorem execLcvt_mem (at_ : SiteRef) (x : SiteArgs) (s : State) :
    ∀ t, execLcvt at_ x s = .next t → t.mem = s.mem := by
  unfold execLcvt
  grind [alWord_mem]

theorem execPeerIngress_wf (m : PeerMsg) (s : State) (hw : Memory.wf s.mem = true) :
    ∀ t, execPeerIngress m s = .next t → Memory.wf t.mem = true := by
  unfold execPeerIngress
  grind [State.peerDo_wf, State.peerRefuse_mem, Memory.wf_memPuts]

theorem execHmul2_mem (at_ : SiteRef) (x : SiteArgs) (s : State) :
    ∀ t, execHmul2 at_ x s = .next t → t.mem = s.mem := by
  unfold execHmul2
  grind [alWord_mem]

theorem syncOnly_wf (ea : W64) (size8 : Bool) (kind : HomeKind) (scope : Nat) (n : Nat) (needR : Bool) (needW :
    Bool) (e : Extent) (s : State) (hw : Memory.wf s.mem = true) :
    ∀ t, syncOnly ea size8 kind scope n needR needW e s = .next t → Memory.wf t.mem = true := by
  unfold syncOnly
  grind [State.retire_mem, State.number_mem, queueOnly_mem, withSound_wf, State.issueSync_wf, Memory.wf_memPuts]

theorem execBinit_wf (a b : Reg) (ta tb : Bool) (c : BitVec 3) (s : State) (hw : Memory.wf s.mem = true) :
    ∀ t, execBinit a b ta tb c s = .next t → Memory.wf t.mem = true := by
  unfold execBinit
  refine withSrcs_wf _ _ _ ?_ hw
  refine withSync_wf _ _ _ _ _ (fun e => ?_) hw
  have h1 := fun ea z k c n w r e => syncOnly_wf ea z k c n w r e s hw
  have h2 := fun a b c d e => State.trap_wf s a b c d e hw
  have h3 := barWords_mem s e (s.reg a)
  split
  · grind
  · split
    · split
      · grind [State.stall_mem]
      · split
        · grind [State.importFault_wf]
        · split
          · exact syncOnly_wf _ _ _ _ _ _ _ _ _ (by grind)
          · grind [State.trap_wf]
    · exact h1 _ _ _ _ _ _ _ _

theorem execFollowOnIssue_mem (k : CmdRef) (s : State) :
    ∀ t, execFollowOnIssue k s = .next t → t.mem = s.mem := by
  unfold execFollowOnIssue
  grind [State.kick_mem, State.modCtx_mem]

theorem execQ8dot4_mem (at_ : SiteRef) (x : SiteArgs) (s : State) :
    ∀ t, execQ8dot4 at_ x s = .next t → t.mem = s.mem := by
  unfold execQ8dot4
  grind [alWord_mem]

theorem execRegq_wf (s : State) (hw : Memory.wf s.mem = true) :
    ∀ t, execRegq s = .next t → Memory.wf t.mem = true := by
  unfold execRegq
  grind [State.putQueue_mem, withMail, State.mailAnswer_wf, Memory.wf_memPuts]

theorem execResetq_wf (s : State) (hw : Memory.wf s.mem = true) :
    ∀ t, execResetq s = .next t → Memory.wf t.mem = true := by
  unfold execResetq
  grind [State.putQueue_mem, withMail, State.forgetGuest_mem, State.mailAnswer_wf, Memory.wf_memPuts]

theorem execDepdec_wf (a : Reg) (b : Reg) (ta : Bool) (tb : Bool) (s : State) (hw : Memory.wf s.mem = true) :
    ∀ t, execDepdec a b ta tb s = .next t → Memory.wf t.mem = true := by
  unfold execDepdec
  grind [State.stall_mem, State.retire_mem, withSrcs, State.trap_wf, State.setCount_mem, Memory.wf_memPuts]

theorem execFabs_mem (at_ : SiteRef) (x : SiteArgs) (s : State) :
    ∀ t, execFabs at_ x s = .next t → t.mem = s.mem := by
  unfold execFabs
  grind [alWord_mem]

theorem execDone_wf (a : Reg) (ta : Bool) (s : State) (hw : Memory.wf s.mem = true) :
    ∀ t, execDone a ta s = .next t → Memory.wf t.mem = true := by
  unfold execDone
  grind [State.stall_mem, State.modCc_mem, withSrcs, State.trap_wf, State.settle_wf, State.modTask_mem,
      Memory.wf_memPuts]

theorem execDevinfoWrite_mem (f : DevField) (s : State) :
    ∀ t, execDevinfoWrite f s = .next t → t.mem = s.mem := by
  unfold execDevinfoWrite
  grind

theorem execFutrd_wf (d : Reg) (a : Reg) (ta : Bool) (z : Bool) (c : BitVec 3) (s : State) (hw : Memory.wf s.mem =
    true) :
    ∀ t, execFutrd d a ta z c s = .next t → Memory.wf t.mem = true := by
  unfold execFutrd
  grind [withSrcs, State.stall_mem, State.trap_wf, withDest, syncRet_wf, withSync, State.ccLeaseFault_wf,
      State.trapAcc_wf, Memory.wf_memPuts]

theorem execLeaseWalk_wf (s : State) (hw : Memory.wf s.mem = true) :
    ∀ t, execLeaseWalk s = .next t → Memory.wf t.mem = true := by
  unfold execLeaseWalk
  grind [State.endEarly_wf, State.walkOne_wf, State.putTask_mem, State.push_mem, Memory.wf_memPuts]

theorem execAgind_mem (k : CmdRef) (x : CmdArgs) (s : State) :
    ∀ t, execAgind k x s = .next t → t.mem = s.mem := by
  unfold execAgind
  grind [State.putPort_mem, State.cmdDone_mem, withPortCmd, withCmd]

theorem execHash_mem (at_ : SiteRef) (x : SiteArgs) (s : State) :
    ∀ t, execHash at_ x s = .next t → t.mem = s.mem := by
  unfold execHash
  grind [alWord_mem]

theorem execThermalStep_mem (cool : Bool) (s : State) :
    ∀ t, execThermalStep cool s = .next t → t.mem = s.mem := by
  unfold execThermalStep
  grind

theorem issueWord_wf (d : Reg) (n : BitVec 11) (w : W128) (s : State) (hw : Memory.wf s.mem = true) :
    ∀ t, issueWord d n w s = .next t → Memory.wf t.mem = true := by
  have h1 := fun a b c d e => State.trap_wf s a b c d e hw
  have h2 : ∀ fw : Option W128, ∀ b : Bool, ∀ t, (if b then
        Host.Outcome.next s.stall
      else match (if opCmd w = 0x38 then contribPath s (unpackCmd w) else none) with
        | some ea => .next (s.trapAcc 0x0C ea 4 2)
        | none => .next (s.accept d w fw)) = (.next t : Result) → Memory.wf t.mem = true := by
    intro fw b
    have := State.stall_mem s
    have := State.trapAcc_wf s 0x0C
    have := State.accept_mem s d w fw
    split
    · grind
    · split <;> grind
  unfold issueWord
  simp only
  generalize (if (unpackCmd w).ff = true then some (SMap.get 0#128 s.cc.cmdMem (n.toNat + 1)) else none) = fw
  cases fw with
  | none =>
    dsimp only
    iterate 3 (split; · grind)
    split
    · grind [State.stall_mem]
    · split
      · grind
      · exact withSignal_wf _ _ _ (h2 _ _) hw
  | some f =>
    dsimp only
    iterate 3 (split; · grind)
    split
    · grind [State.stall_mem]
    · split
      · grind
      · exact withSignal_wf _ _ _ (withSignal_wf _ _ _ (h2 _ _) hw) hw

theorem execIssue_wf (d : Reg) (a : Reg) (b : Reg) (n : BitVec 11) (s : State) (hw : Memory.wf s.mem = true) :
    ∀ t, execIssue d a b n s = .next t → Memory.wf t.mem = true := by
  unfold execIssue
  grind [withSrcs, State.stall_mem, State.trap_wf, withDest, issueWord_wf, Memory.wf_memPuts]

theorem execLacc_mem (at_ : SiteRef) (x : SiteArgs) (s : State) :
    ∀ t, execLacc at_ x s = .next t → t.mem = s.mem := by
  unfold execLacc
  grind [alWord_mem]

theorem regOne_wf (f : W64 → W64) (d : Reg) (a : Reg) (ta : Bool) (s : State) (hw : Memory.wf s.mem = true) :
    ∀ t, regOne f d a ta s = .next t → Memory.wf t.mem = true := by
  unfold regOne
  grind [finish_mem, withSrcs, State.stall_mem, State.trap_wf, withDest, Memory.wf_memPuts]

theorem execSext_wf (d : Reg) (a : Reg) (ta : Bool) (z : BitVec 2) (s : State) (hw : Memory.wf s.mem = true) :
    ∀ t, execSext d a ta z s = .next t → Memory.wf t.mem = true := by
  unfold execSext
  grind [regOne_wf, Memory.wf_memPuts]

theorem execFlog2_mem (at_ : SiteRef) (x : SiteArgs) (s : State) :
    ∀ t, execFlog2 at_ x s = .next t → t.mem = s.mem := by
  unfold execFlog2
  grind [alWord_mem]

theorem execGuestPromiseMissed_mem (s : State) :
    ∀ t, execGuestPromiseMissed s = .next t → t.mem = s.mem := by
  unfold execGuestPromiseMissed
  grind [State.modAll_mem]

theorem execFork_mem (at_ : SiteRef) (x : SiteArgs) (s : State) :
    ∀ t, execFork at_ x s = .next t → t.mem = s.mem := by
  unfold execFork
  grind [State.emitSent_mem, State.putSite_mem, flow, withEvent, State.wakeSite_mem, withSite]

theorem execYield_mem (s : State) :
    ∀ t, execYield s = .next t → t.mem = s.mem := by
  unfold execYield
  grind [State.retire_mem, State.giveWay_mem]

theorem execAlClz_mem (at_ : SiteRef) (x : SiteArgs) (s : State) :
    ∀ t, execAlClz at_ x s = .next t → t.mem = s.mem := by
  unfold execAlClz
  grind [alWord_mem]

theorem execGuestReauthentication_wf (site : Nat) (r : BootImage) (s : State) (hw : Memory.wf s.mem = true) :
    ∀ t, execGuestReauthentication site r s = .next t → Memory.wf t.mem = true := by
  unfold execGuestReauthentication
  grind [State.kickAll_mem, State.guestAuth_wf, Memory.wf_memPuts]

theorem execTagset_mem (at_ : SiteRef) (x : SiteArgs) (s : State) :
    ∀ t, execTagset at_ x s = .next t → t.mem = s.mem := by
  unfold execTagset
  grind [State.emitSent_mem, State.putSite_mem, flow, withEvent, State.wakeSite_mem, withSite]

theorem execNot_mem (at_ : SiteRef) (x : SiteArgs) (s : State) :
    ∀ t, execNot at_ x s = .next t → t.mem = s.mem := by
  unfold execNot
  grind [alWord_mem]

theorem execRsum_mem (at_ : SiteRef) (x : SiteArgs) (s : State) :
    ∀ t, execRsum at_ x s = .next t → t.mem = s.mem := by
  unfold execRsum
  grind [alWord_mem]

theorem execTopk_wf (at_ : SiteRef) (x : SiteArgs) (s : State) (hw : Memory.wf s.mem = true) :
    ∀ t, execTopk at_ x s = .next t → Memory.wf t.mem = true := by
  unfold execTopk
  grind [spJoin_wf, Memory.wf_memPuts]

theorem execIota_mem (at_ : SiteRef) (x : SiteArgs) (s : State) :
    ∀ t, execIota at_ x s = .next t → t.mem = s.mem := by
  unfold execIota
  grind [alWord_mem]

theorem execFadd_mem (at_ : SiteRef) (x : SiteArgs) (s : State) :
    ∀ t, execFadd at_ x s = .next t → t.mem = s.mem := by
  unfold execFadd
  grind [alWord_mem]

theorem execAlPopc_mem (at_ : SiteRef) (x : SiteArgs) (s : State) :
    ∀ t, execAlPopc at_ x s = .next t → t.mem = s.mem := by
  unfold execAlPopc
  grind [alWord_mem]

theorem execPktGuest_mem (p : PktRef) (s : State) :
    ∀ t, execPktGuest p s = .next t → t.mem = s.mem := by
  unfold execPktGuest
  grind [State.endPacket_mem, State.sendGuest_mem, withPacket, State.unstart_mem]

theorem execImulh_mem (at_ : SiteRef) (x : SiteArgs) (s : State) :
    ∀ t, execImulh at_ x s = .next t → t.mem = s.mem := by
  unfold execImulh
  grind [alWord_mem]

theorem execMmaE5m2_mem (k : CmdRef) (x : CmdArgs) (s : State) :
    ∀ t, execMmaE5m2 k x s = .next t → t.mem = s.mem := by
  unfold execMmaE5m2
  grind [runMma_mem]

theorem execPktCopy_wf (p : PktRef) (s : State) (hw : Memory.wf s.mem = true) :
    ∀ t, execPktCopy p s = .next t → Memory.wf t.mem = true := by
  unfold execPktCopy
  refine withPacket_wf _ _ _ (fun q k s hs => ?_) hw
  have h0 : Memory.wf (s.endPacket p false).mem = true := by rw [State.endPacket_mem]; exact hs
  dsimp only
  split
  · exact h0
  · refine soundSource_wf _ _ _ _ _ _ ?_ hs
    split
    · exact h0
    · rename_i old s1 he
      have h2 : Memory.wf (copiedBytes s1 (k.w 2).toNat (k.w 3).toNat old).2.mem = true := by
        rw [copiedBytes_mem, ctxRange_mem _ _ _ _ _ _ _ he]; exact hs
      split
      · exact h0
      · rw [State.endPacket_mem]; exact ctxPut_wf _ _ _ _ _ h2 _ ‹_›

theorem execMerge_mem (at_ : SiteRef) (x : SiteArgs) (s : State) :
    ∀ t, execMerge at_ x s = .next t → t.mem = s.mem := by
  unfold execMerge
  grind [State.putSite_mem, State.emitPacked_mem, withEvent, State.wakeSite_mem, withSite, State.emit_mem]

theorem execHomeRetry_wf (s : State) (hw : Memory.wf s.mem = true) :
    ∀ t, execHomeRetry s = .next t → Memory.wf t.mem = true := by
  unfold execHomeRetry
  grind [State.attempt_wf, Memory.wf_memPuts, foldl_wf, foldl_mem]

theorem execPortElementLanded_wf (p : PortRef) (j : Nat) (e : MemErr) (s : State) (hw : Memory.wf s.mem = true) :
    ∀ t, execPortElementLanded p j e s = .next t → Memory.wf t.mem = true := by
  unfold execPortElementLanded
  refine withPort_wf _ _ _ (fun r q s hs => ?_) hw
  have h1 := fun (s : State) l a n => readVa_mem s l a n
  have h2 := fun (s : State) f e hs => State.regionAcc_wf s p.task f e hs
  have h3 : ∀ u : State, u.mem = s.mem → Memory.wf (match r.portVa q (r.affineOff q j) .r with
      | .error x => u.regionAcc p.task (portInfo p.port (q.laneOf j)) x
      | .ok va =>
        match readVa u r.lease va (contBytes (tidFmt q.tid)) with
        | (.error x, s1) => s1.regionAcc p.task (portInfo p.port (q.laneOf j)) x
        | (.ok bs, s1) => s1.putPort p.task p.port { q with landed := q.landed ++ [(j, leNat bs)] }).mem = true := by
    intro u hu
    split
    · exact h2 _ _ _ (hu ▸ hs)
    · split <;> grind [State.putPort_mem]
  split
  · exact hs
  · cases e with
    | uncorrectable pa => exact State.roundError_wf _ _ _ _ hs
    | corrected pa => exact h3 (s.correctable 0 pa) (State.correctable_mem s 0 pa)
    | none => exact h3 _ rfl

theorem execAlXor_mem (at_ : SiteRef) (x : SiteArgs) (s : State) :
    ∀ t, execAlXor at_ x s = .next t → t.mem = s.mem := by
  unfold execAlXor
  grind [alWord_mem]

theorem execContextSwitch_mem (s : State) : ∀ t, execContextSwitch s = .next t → t.mem = s.mem := by
  intro t h
  cases h
  exact (foldl_mem _ (fun s (r : Run) => State.wakeCore_mem s r.fc) _ _).trans (foldl_mem _ (fun s r =>
      State.switchFrom_mem s r) _ _)

theorem spBoth_wf (i : Instr) (union : Bool) (a : SiteRef) (x : SiteArgs) (s : State) (hw : Memory.wf s.mem = true) :
    ∀ t, spBoth i union a x s = .next t → Memory.wf t.mem = true := by
  unfold spBoth
  grind [State.spDone_wf, withEvent, State.wakeSite_mem, withSite, Memory.wf_memPuts]

theorem execUnion_wf (at_ : SiteRef) (x : SiteArgs) (s : State) (hw : Memory.wf s.mem = true) :
    ∀ t, execUnion at_ x s = .next t → Memory.wf t.mem = true := by
  unfold execUnion
  grind [spBoth_wf, Memory.wf_memPuts]

theorem execCopy_wf (k : CmdRef) (x : CmdArgs) (s : State) (hw : Memory.wf s.mem = true) :
    ∀ t, execCopy k x s = .next t → Memory.wf t.mem = true := by
  unfold execCopy
  grind [State.cmdDone_mem, State.cmdEnd_wf, copyRange_wf, withCmd, State.cmdFault_wf, Memory.wf_memPuts]

theorem execMmaF16_mem (k : CmdRef) (x : CmdArgs) (s : State) :
    ∀ t, execMmaF16 k x s = .next t → t.mem = s.mem := by
  unfold execMmaF16
  grind [runMma_mem]

theorem execInvalidationAck_mem (site : Nat) (tag : Nat) (s : State) :
    ∀ t, execInvalidationAck site tag s = .next t → t.mem = s.mem := by
  unfold execInvalidationAck
  grind [State.kickAll_mem, State.putGuest_mem, State.modTag_mem]

theorem execFutwr_wf (a : Reg) (b : Reg) (ta : Bool) (tb : Bool) (z : Bool) (c : BitVec 3) (s : State) (hw :
    Memory.wf s.mem = true) :
    ∀ t, execFutwr a b ta tb z c s = .next t → Memory.wf t.mem = true := by
  unfold execFutwr
  grind [withSrcs, State.stall_mem, State.trap_wf, syncOnly_wf, withSync, State.ccLeaseFault_wf, State.trapAcc_wf,
      Memory.wf_memPuts]

theorem execSpst_wf (at_ : SiteRef) (x : SiteArgs) (s : State) (hw : Memory.wf s.mem = true) :
    ∀ t, execSpst at_ x s = .next t → Memory.wf t.mem = true := by
  unfold execSpst
  exact mbWord_wf _ _ _ _ (fun r st e q s hs => withScratch_wf _ _ _ _ _ _ (fun o c => storeShadow_wf _ _ _ _ _ _ _
      _ hs) hs) hw

theorem execImad_mem (at_ : SiteRef) (x : SiteArgs) (s : State) :
    ∀ t, execImad at_ x s = .next t → t.mem = s.mem := by
  unfold execImad
  grind [alWord_mem]

theorem execArrivec_wf (k : CmdRef) (x : CmdArgs) (s : State) (hw : Memory.wf s.mem = true) :
    ∀ t, execArrivec k x s = .next t → Memory.wf t.mem = true := by
  unfold execArrivec
  grind [State.syncCmd_wf, withCmd, Memory.wf_memPuts]

theorem execXori_wf (d : Reg) (a : Reg) (ta : Bool) (i : BitVec 15) (s : State) (hw : Memory.wf s.mem = true) :
    ∀ t, execXori d a ta i s = .next t → Memory.wf t.mem = true := by
  unfold execXori
  grind [regOne_wf, Memory.wf_memPuts]

theorem execPktLaunch_wf (p : PktRef) (s : State) (hw : Memory.wf s.mem = true) :
    ∀ t, execPktLaunch p s = .next t → Memory.wf t.mem = true := by
  unfold execPktLaunch
  refine withPacket_wf _ _ _ (fun q k s hs => ?_) hw
  refine soundSource_wf _ _ _ _ _ _ ?_ hs
  split
  · rw [State.endPacket_mem]; exact hs
  · rename_i ws s1 he
    have h1 : Memory.wf s1.mem = true := by rw [launchTemplate_mem s q k _ _ he]; exact hs
    split
    · rw [State.endPacket_mem]; exact h1
    · split
      · rw [State.unstart_mem]; exact h1
      · rename_i h u hn
        rw [State.push_mem, State.modPacket_mem, State.newTask_mem _ _ _ _ _ _ _ _ _ hn]; exact h1

theorem execAtom_wf (d : Reg) (a : Reg) (b : Reg) (ta : Bool) (tb : Bool) (o : BitVec 4) (z : Bool) (c : BitVec 3)
    (s : State) (hw : Memory.wf s.mem = true) :
    ∀ t, execAtom d a b ta tb o z c s = .next t → Memory.wf t.mem = true := by
  unfold execAtom
  grind [withSrcs, State.stall_mem, State.trap_wf, withDest, syncRet_wf, atomLocal_wf, withSync,
      State.ccLeaseFault_wf, State.trapAcc_wf, Memory.wf_memPuts]

theorem execMmazL6_mem (k : CmdRef) (x : CmdArgs) (s : State) :
    ∀ t, execMmazL6 k x s = .next t → t.mem = s.mem := by
  unfold execMmazL6
  grind [runMma_mem]

theorem syncHeld_wf (ea : W64) (size8 : Bool) (kind : HomeKind) (scope : Nat) (n : Nat) (needR : Bool) (needW :
    Bool) (e : Extent) (s : State) (hw : Memory.wf s.mem = true) :
    ∀ t, syncHeld ea size8 kind scope n needR needW e s = .next t → Memory.wf t.mem = true := by
  unfold syncHeld
  grind [State.number_mem, State.queueAcc_mem, withSound_wf, State.issueSync_wf, Memory.wf_memPuts]

theorem execWatch_wf (d : Reg) (a : Reg) (b : Reg) (ta : Bool) (tb : Bool) (m : BitVec 4) (z : Bool) (c : BitVec 3)
    (s : State) (hw : Memory.wf s.mem = true) :
    ∀ t, execWatch d a b ta tb m z c s = .next t → Memory.wf t.mem = true := by
  unfold execWatch
  grind [State.stall_mem, withSrcs, State.trap_wf, syncHeld_wf, withSync, State.ccLeaseFault_wf, State.trapAcc_wf,
      Memory.wf_memPuts]

theorem execUnregq_wf (s : State) (hw : Memory.wf s.mem = true) :
    ∀ t, execUnregq s = .next t → Memory.wf t.mem = true := by
  unfold execUnregq
  grind [withMail, State.forgetGuest_mem, State.mailAnswer_wf, Memory.wf_memPuts]

theorem execAdd_wf (d : Reg) (a : Reg) (b : Reg) (ta : Bool) (tb : Bool) (s : State) (hw : Memory.wf s.mem = true) :
    ∀ t, execAdd d a b ta tb s = .next t → Memory.wf t.mem = true := by
  unfold execAdd
  grind [regReg_wf, Memory.wf_memPuts]

theorem execSrl_wf (d : Reg) (a : Reg) (b : Reg) (ta : Bool) (tb : Bool) (s : State) (hw : Memory.wf s.mem = true) :
    ∀ t, execSrl d a b ta tb s = .next t → Memory.wf t.mem = true := by
  unfold execSrl
  grind [regReg_wf, Memory.wf_memPuts]

theorem execDivu_wf (d : Reg) (a : Reg) (b : Reg) (ta : Bool) (tb : Bool) (s : State) (hw : Memory.wf s.mem = true) :
    ∀ t, execDivu d a b ta tb s = .next t → Memory.wf t.mem = true := by
  unfold execDivu
  grind [regReg_wf, Memory.wf_memPuts]

theorem execCred_wf (k : CmdRef) (x : CmdArgs) (s : State) (hw : Memory.wf s.mem = true) :
    ∀ t, execCred k x s = .next t → Memory.wf t.mem = true := by
  unfold execCred
  refine withCmd_wf _ _ _ (fun r c s hs => ?_) hw
  have h1 := credAll_wf r k c ((List.range x.p1.toNat).map fun i => x.p0.toNat + i) s hs
  split <;> grind [State.credWait_mem, State.cmdFault_wf]

theorem execHdot2_mem (at_ : SiteRef) (x : SiteArgs) (s : State) :
    ∀ t, execHdot2 at_ x s = .next t → t.mem = s.mem := by
  unfold execHdot2
  grind [alWord_mem]

theorem execAlAnd_mem (at_ : SiteRef) (x : SiteArgs) (s : State) :
    ∀ t, execAlAnd at_ x s = .next t → t.mem = s.mem := by
  unfold execAlAnd
  grind [alWord_mem]

theorem execOr_wf (d : Reg) (a : Reg) (b : Reg) (ta : Bool) (tb : Bool) (s : State) (hw : Memory.wf s.mem = true) :
    ∀ t, execOr d a b ta tb s = .next t → Memory.wf t.mem = true := by
  unfold execOr
  grind [regReg_wf, Memory.wf_memPuts]

theorem execSel_mem (at_ : SiteRef) (x : SiteArgs) (s : State) :
    ∀ t, execSel at_ x s = .next t → t.mem = s.mem := by
  unfold execSel
  grind [alWord_mem]

theorem execInvalidationDeadline_wf (s : State) (hw : Memory.wf s.mem = true) :
    ∀ t, execInvalidationDeadline s = .next t → Memory.wf t.mem = true := by
  unfold execInvalidationDeadline
  grind [State.guestReset_wf, Memory.wf_memPuts]

theorem execMmazBf16_mem (k : CmdRef) (x : CmdArgs) (s : State) :
    ∀ t, execMmazBf16 k x s = .next t → t.mem = s.mem := by
  unfold execMmazBf16
  grind [runMma_mem]

theorem execSlt_wf (d : Reg) (a : Reg) (b : Reg) (ta : Bool) (tb : Bool) (s : State) (hw : Memory.wf s.mem = true) :
    ∀ t, execSlt d a b ta tb s = .next t → Memory.wf t.mem = true := by
  unfold execSlt
  grind [regReg_wf, Memory.wf_memPuts]

theorem execPreemption_wf (task : W64) (s : State) (hw : Memory.wf s.mem = true) :
    ∀ t, execPreemption task s = .next t → Memory.wf t.mem = true := by
  unfold execPreemption
  grind [State.overrunEnd_wf, State.preemptNow_wf, Memory.wf_memPuts]

theorem execSlli_wf (d : Reg) (a : Reg) (ta : Bool) (h : BitVec 6) (s : State) (hw : Memory.wf s.mem = true) :
    ∀ t, execSlli d a ta h s = .next t → Memory.wf t.mem = true := by
  unfold execSlli
  grind [regOne_wf, Memory.wf_memPuts]

theorem loadAt_wf (d : Reg) (ea : W64) (n : Nat) (e : Extent) (s : State) (hw : Memory.wf s.mem = true) :
    ∀ t, loadAt d ea n e s = .next t → Memory.wf t.mem = true := by
  unfold loadAt
  grind [State.importFault_wf, State.memFault_wf, State.push_mem, finishLate, State.retire_mem, State.launch_mem,
      readPlace_mem, Memory.wf_memPuts]

theorem loadLater_mem (d : Reg) (ea : W64) (n : Nat) (s : State) :
    ∀ t, loadLater d ea n s = .next t → t.mem = s.mem := by
  unfold loadLater
  grind [State.queueAcc_mem, finishLate, State.retire_mem, State.launch_mem]

theorem load_wf (d : Reg) (a : Reg) (ta : Bool) (z : BitVec 2) (o : BitVec 13) (s : State) (hw : Memory.wf s.mem =
    true) :
    ∀ t, load d a ta z o s = .next t → Memory.wf t.mem = true := by
  unfold load
  grind [loadAt_wf, withSrcs, State.stall_mem, State.trap_wf, withDest, loadLater_mem, withAccess,
      State.ccLeaseFault_wf, State.trapAcc_wf, Memory.wf_memPuts]

theorem execLd_wf (d : Reg) (a : Reg) (ta : Bool) (z : BitVec 2) (o : BitVec 13) (s : State) (hw : Memory.wf s.mem
    = true) :
    ∀ t, execLd d a ta z o s = .next t → Memory.wf t.mem = true := by
  unfold execLd
  grind [load_wf, Memory.wf_memPuts]

theorem execPortEmit_wf (p : PortRef) (s : State) (hw : Memory.wf s.mem = true) :
    ∀ t, execPortEmit p s = .next t → Memory.wf t.mem = true := by
  unfold execPortEmit
  grind [withPort, State.emitMeta_wf, State.emitAffine_wf, State.emitPush_mem, Memory.wf_memPuts]

theorem execHadd2_mem (at_ : SiteRef) (x : SiteArgs) (s : State) :
    ∀ t, execHadd2 at_ x s = .next t → t.mem = s.mem := by
  unfold execHadd2
  grind [alWord_mem]

theorem execWaitc_wf (k : CmdRef) (x : CmdArgs) (s : State) (hw : Memory.wf s.mem = true) :
    ∀ t, execWaitc k x s = .next t → Memory.wf t.mem = true := by
  unfold execWaitc
  grind [State.syncCmd_wf, withCmd, Memory.wf_memPuts]

theorem execSltu_wf (d : Reg) (a : Reg) (b : Reg) (ta : Bool) (tb : Bool) (s : State) (hw : Memory.wf s.mem = true) :
    ∀ t, execSltu d a b ta tb s = .next t → Memory.wf t.mem = true := by
  unfold execSltu
  grind [regReg_wf, Memory.wf_memPuts]

theorem execSpval_wf (at_ : SiteRef) (x : SiteArgs) (s : State) (hw : Memory.wf s.mem = true) :
    ∀ t, execSpval at_ x s = .next t → Memory.wf t.mem = true := by
  unfold execSpval
  grind [spJoin_wf, Memory.wf_memPuts]

theorem execMload_wf (k : CmdRef) (x : CmdArgs) (s : State) (hw : Memory.wf s.mem = true) :
    ∀ t, execMload k x s = .next t → Memory.wf t.mem = true := by
  unfold execMload
  grind [State.cmdDone_mem, mapAcc_wf, mapAcc_mem, State.modRun_mem, withCmd, loadElem_mem, State.cmdFault_wf,
      Memory.wf_memPuts]

theorem execRingPartial_wf (group : Byte) (epoch : BitVec 16) (dest : W64) (first : W64) (vals : RingVals) (s :
    State) (hw : Memory.wf s.mem = true) :
    ∀ t, execRingPartial group epoch dest first vals s = .next t → Memory.wf t.mem = true := by
  unfold execRingPartial
  grind [State.ringArrives_wf, Memory.wf_memPuts]

theorem execHostWrite_wf (pa : Nat) (bytes : List Byte) (s : State) (hw : Memory.wf s.mem = true) :
    ∀ t, execHostWrite pa bytes s = .next t → Memory.wf t.mem = true := by
  unfold execHostWrite
  grind [State.land_wf, Memory.wf_memPuts]

theorem execSigop_wf (d : Reg) (a : Reg) (b : Reg) (ta : Bool) (tb : Bool) (o : BitVec 3) (z : Bool) (c : BitVec 3)
    (s : State) (hw : Memory.wf s.mem = true) :
    ∀ t, execSigop d a b ta tb o z c s = .next t → Memory.wf t.mem = true := by
  unfold execSigop
  grind [withSrcs, State.stall_mem, State.trap_wf, withDest, syncRet_wf, withSync, State.ccLeaseFault_wf,
      State.trapAcc_wf, Memory.wf_memPuts]

theorem execBfx_wf (d : Reg) (a : Reg) (ta : Bool) (w : BitVec 6) (p : BitVec 6) (s : State) (hw : Memory.wf s.mem
    = true) :
    ∀ t, execBfx d a ta w p s = .next t → Memory.wf t.mem = true := by
  unfold execBfx
  grind [regOne_wf, Memory.wf_memPuts]

theorem execAgaff_wf (k : CmdRef) (x : CmdArgs) (s : State) (hw : Memory.wf s.mem = true) :
    ∀ t, execAgaff k x s = .next t → Memory.wf t.mem = true := by
  unfold execAgaff
  grind [State.putPort_mem, State.cmdDone_mem, withPortCmd, withCmd, readExt_mem, State.cmdFault_wf,
      Memory.wf_memPuts]

theorem execRecall_wf (s : State) (hw : Memory.wf s.mem = true) :
    ∀ t, execRecall s = .next t → Memory.wf t.mem = true := by
  unfold execRecall
  grind [withMail, State.recallTags_mem, State.push_mem, State.mailAnswer_wf, State.recallRuns_mem, Memory.wf_memPuts]

theorem execShuf_mem (at_ : SiteRef) (x : SiteArgs) (s : State) :
    ∀ t, execShuf at_ x s = .next t → t.mem = s.mem := by
  unfold execShuf
  grind [alWord_mem]

theorem execRecirc_wf (at_ : SiteRef) (x : SiteArgs) (s : State) (hw : Memory.wf s.mem = true) :
    ∀ t, execRecirc at_ x s = .next t → Memory.wf t.mem = true := by
  unfold execRecirc
  grind [State.recircStep_wf, withEvent, State.wakeSite_mem, withSite, Memory.wf_memPuts]

theorem execReservationLapse_mem (s : State) :
    ∀ t, execReservationLapse s = .next t → t.mem = s.mem := by
  unfold execReservationLapse
  grind [State.urgent_mem]

theorem execIcmp_mem (at_ : SiteRef) (x : SiteArgs) (s : State) :
    ∀ t, execIcmp at_ x s = .next t → t.mem = s.mem := by
  unfold execIcmp
  grind [alWord_mem]

theorem execMbcdbWrite_mem (v : W64) (s : State) :
    ∀ t, execMbcdbWrite v s = .next t → t.mem = s.mem := by
  unfold execMbcdbWrite
  grind [State.mailNext_mem]

theorem execPortIndexRecord_wf (p : PortRef) (s : State) (hw : Memory.wf s.mem = true) :
    ∀ t, execPortIndexRecord p s = .next t → Memory.wf t.mem = true := by
  unfold execPortIndexRecord
  grind [State.putPort_mem, withPort, State.pushNew_mem, State.indexStep_wf, Memory.wf_memPuts]

theorem execFcvt_mem (at_ : SiteRef) (x : SiteArgs) (s : State) :
    ∀ t, execFcvt at_ x s = .next t → t.mem = s.mem := by
  unfold execFcvt
  grind [alWord_mem]

theorem execFmax_mem (at_ : SiteRef) (x : SiteArgs) (s : State) :
    ∀ t, execFmax at_ x s = .next t → t.mem = s.mem := by
  unfold execFmax
  grind [alWord_mem]

theorem execRem_wf (d : Reg) (a : Reg) (b : Reg) (ta : Bool) (tb : Bool) (s : State) (hw : Memory.wf s.mem = true) :
    ∀ t, execRem d a b ta tb s = .next t → Memory.wf t.mem = true := by
  unfold execRem
  grind [regReg_wf, Memory.wf_memPuts]

theorem execXor_wf (d : Reg) (a : Reg) (b : Reg) (ta : Bool) (tb : Bool) (s : State) (hw : Memory.wf s.mem = true) :
    ∀ t, execXor d a b ta tb s = .next t → Memory.wf t.mem = true := by
  unfold execXor
  grind [regReg_wf, Memory.wf_memPuts]

theorem execMin_wf (d : Reg) (a : Reg) (b : Reg) (ta : Bool) (tb : Bool) (s : State) (hw : Memory.wf s.mem = true) :
    ∀ t, execMin d a b ta tb s = .next t → Memory.wf t.mem = true := by
  unfold execMin
  grind [regReg_wf, Memory.wf_memPuts]

theorem execRetire_mem (at_ : SiteRef) (x : SiteArgs) (s : State) :
    ∀ t, execRetire at_ x s = .next t → t.mem = s.mem := by
  unfold execRetire
  grind [State.putSite_mem, flow, withEvent, State.wakeSite_mem, withSite]

theorem execDeferredTrapEntry_wf (s : State) (hw : Memory.wf s.mem = true) :
    ∀ t, execDeferredTrapEntry s = .next t → Memory.wf t.mem = true := by
  unfold execDeferredTrapEntry
  grind [State.trapEntry_wf, State.modCc_mem, Memory.wf_memPuts]

theorem execMmazF16_mem (k : CmdRef) (x : CmdArgs) (s : State) :
    ∀ t, execMmazF16 k x s = .next t → t.mem = s.mem := by
  unfold execMmazF16
  grind [runMma_mem]

theorem execBltu_wf (b : Reg) (a : Reg) (ta : Bool) (tb : Bool) (i : BitVec 14) (s : State) (hw : Memory.wf s.mem =
    true) :
    ∀ t, execBltu b a ta tb i s = .next t → Memory.wf t.mem = true := by
  unfold execBltu
  grind [branch_wf, Memory.wf_memPuts]

theorem execPopc_wf (d : Reg) (a : Reg) (ta : Bool) (s : State) (hw : Memory.wf s.mem = true) :
    ∀ t, execPopc d a ta s = .next t → Memory.wf t.mem = true := by
  unfold execPopc
  grind [regOne_wf, Memory.wf_memPuts]

theorem execBinv_wf (a : Reg) (ta : Bool) (c : BitVec 3) (s : State) (hw : Memory.wf s.mem = true) :
    ∀ t, execBinv a ta c s = .next t → Memory.wf t.mem = true := by
  unfold execBinv
  grind [withSrcs, State.stall_mem, State.trap_wf, syncOnly_wf, withSync, State.ccLeaseFault_wf, State.trapAcc_wf,
      Memory.wf_memPuts]

theorem execSpldi_wf (at_ : SiteRef) (x : SiteArgs) (s : State) (hw : Memory.wf s.mem = true) :
    ∀ t, execSpldi at_ x s = .next t → Memory.wf t.mem = true := by
  unfold execSpldi
  exact mbWord_wf _ _ _ _ (fun r st e q s hs => withScratch_wf _ _ _ _ _ _ (fun o c => hs) hs) hw

theorem execBcast_mem (at_ : SiteRef) (x : SiteArgs) (s : State) :
    ∀ t, execBcast at_ x s = .next t → t.mem = s.mem := by
  unfold execBcast
  grind [alWord_mem]

theorem execCompact_mem (at_ : SiteRef) (x : SiteArgs) (s : State) :
    ∀ t, execCompact at_ x s = .next t → t.mem = s.mem := by
  unfold execCompact
  grind [State.putSite_mem, State.emitPlaced_mem, flow, withEvent, State.wakeSite_mem, withSite, State.emitPacked_mem]

theorem execUnknownCommand_wf (s : State) (hw : Memory.wf s.mem = true) :
    ∀ t, execUnknownCommand s = .next t → Memory.wf t.mem = true := by
  unfold execUnknownCommand
  grind [State.answerMail_wf, withMail, Memory.wf_memPuts]

theorem execScatter_wf (k : CmdRef) (x : CmdArgs) (s : State) (hw : Memory.wf s.mem = true) :
    ∀ t, execScatter k x s = .next t → Memory.wf t.mem = true := by
  unfold execScatter
  grind [State.cmdEnd_wf, gatherRow_wf, forAcc_wf, forAcc_mem, withCmd, Memory.wf_memPuts]

theorem execMark_mem (at_ : SiteRef) (x : SiteArgs) (s : State) :
    ∀ t, execMark at_ x s = .next t → t.mem = s.mem := by
  unfold execMark
  grind [State.emitSent_mem, State.putSite_mem, flow, withEvent, State.wakeSite_mem, withSite]

theorem execPreemptDeadline_wf (s : State) (hw : Memory.wf s.mem = true) :
    ∀ t, execPreemptDeadline s = .next t → Memory.wf t.mem = true := by
  unfold execPreemptDeadline
  grind [State.guestReset_wf, Memory.wf_memPuts]

theorem execSt_wf (b : Reg) (a : Reg) (ta : Bool) (tb : Bool) (z : BitVec 2) (o : BitVec 12) (s : State) (hw :
    Memory.wf s.mem = true) :
    ∀ t, execSt b a ta tb z o s = .next t → Memory.wf t.mem = true := by
  unfold execSt
  grind [store_wf, Memory.wf_memPuts]

theorem execGuestAccess_wf (g : GuestAcc) (s : State) (hw : Memory.wf s.mem = true) :
    ∀ t, execGuestAccess g s = .next t → Memory.wf t.mem = true := by
  unfold execGuestAccess
  grind [State.guestAccess_wf, Memory.wf_memPuts]

theorem execIadd_mem (at_ : SiteRef) (x : SiteArgs) (s : State) :
    ∀ t, execIadd at_ x s = .next t → t.mem = s.mem := by
  unfold execIadd
  grind [alWord_mem]

theorem execMmaBf16_mem (k : CmdRef) (x : CmdArgs) (s : State) :
    ∀ t, execMmaBf16 k x s = .next t → t.mem = s.mem := by
  unfold execMmaBf16
  grind [runMma_mem]

theorem execMmazE5m2_mem (k : CmdRef) (x : CmdArgs) (s : State) :
    ∀ t, execMmazE5m2 k x s = .next t → t.mem = s.mem := by
  unfold execMmazE5m2
  grind [runMma_mem]

theorem execSrw_wf (a : Reg) (r : BitVec 12) (s : State) (hw : Memory.wf s.mem = true) :
    ∀ t, execSrw a r s = .next t → Memory.wf t.mem = true := by
  unfold execSrw
  grind [State.retire_mem, State.modCc_mem, withSrcs, State.stall_mem, State.trap_wf, Memory.wf_memPuts]

theorem execL1st_wf (at_ : SiteRef) (x : SiteArgs) (s : State) (hw : Memory.wf s.mem = true) :
    ∀ t, execL1st at_ x s = .next t → Memory.wf t.mem = true := by
  unfold execL1st
  exact mbWord_wf _ _ _ _ (fun r st e q s hs => withMem_wf _ _ _ _ _ _ _ _ (fun y a n => storeMem_wf _ _ _ _ _ _ _
      hs) hs hs) hw

theorem execSpld_wf (at_ : SiteRef) (x : SiteArgs) (s : State) (hw : Memory.wf s.mem = true) :
    ∀ t, execSpld at_ x s = .next t → Memory.wf t.mem = true := by
  unfold execSpld
  exact mbWord_wf _ _ _ _ (fun r st e q s hs => withScratch_wf _ _ _ _ _ _ (fun o c => hs) hs) hw

theorem execSrli_wf (d : Reg) (a : Reg) (ta : Bool) (h : BitVec 6) (s : State) (hw : Memory.wf s.mem = true) :
    ∀ t, execSrli d a ta h s = .next t → Memory.wf t.mem = true := by
  unfold execSrli
  grind [regOne_wf, Memory.wf_memPuts]

theorem execRmax_mem (at_ : SiteRef) (x : SiteArgs) (s : State) :
    ∀ t, execRmax at_ x s = .next t → t.mem = s.mem := by
  unfold execRmax
  grind [alWord_mem]

theorem execIsect_wf (at_ : SiteRef) (x : SiteArgs) (s : State) (hw : Memory.wf s.mem = true) :
    ∀ t, execIsect at_ x s = .next t → Memory.wf t.mem = true := by
  unfold execIsect
  grind [spBoth_wf, Memory.wf_memPuts]

theorem execMax_wf (d : Reg) (a : Reg) (b : Reg) (ta : Bool) (tb : Bool) (s : State) (hw : Memory.wf s.mem = true) :
    ∀ t, execMax d a b ta tb s = .next t → Memory.wf t.mem = true := by
  unfold execMax
  grind [regReg_wf, Memory.wf_memPuts]

theorem execAging_mem (s : State) :
    ∀ t, execAging s = .next t → t.mem = s.mem := by
  unfold execAging
  grind

theorem execRemu_wf (d : Reg) (a : Reg) (b : Reg) (ta : Bool) (tb : Bool) (s : State) (hw : Memory.wf s.mem = true) :
    ∀ t, execRemu d a b ta tb s = .next t → Memory.wf t.mem = true := by
  unfold execRemu
  grind [regReg_wf, Memory.wf_memPuts]

theorem execSll_wf (d : Reg) (a : Reg) (b : Reg) (ta : Bool) (tb : Bool) (s : State) (hw : Memory.wf s.mem = true) :
    ∀ t, execSll d a b ta tb s = .next t → Memory.wf t.mem = true := by
  unfold execSll
  grind [regReg_wf, Memory.wf_memPuts]

theorem execMulhu_wf (d : Reg) (a : Reg) (b : Reg) (ta : Bool) (tb : Bool) (s : State) (hw : Memory.wf s.mem = true) :
    ∀ t, execMulhu d a b ta tb s = .next t → Memory.wf t.mem = true := by
  unfold execMulhu
  grind [regReg_wf, Memory.wf_memPuts]

theorem execPacketComplete_mem (p : PktRef) (s : State) :
    ∀ t, execPacketComplete p s = .next t → t.mem = s.mem := by
  unfold execPacketComplete
  grind [State.packetDone_mem]

theorem execDoorbellWrite_wf (q : Nat) (v : W64) (s : State) (hw : Memory.wf s.mem = true) :
    ∀ t, execDoorbellWrite q v s = .next t → Memory.wf t.mem = true := by
  unfold execDoorbellWrite
  grind [State.ringBell_wf, Memory.wf_memPuts]

theorem execWindowEnd_mem (s : State) :
    ∀ t, execWindowEnd s = .next t → t.mem = s.mem := by
  unfold execWindowEnd
  grind [State.endSlot_mem, State.pushAll_mem]

theorem execScanl_mem (at_ : SiteRef) (x : SiteArgs) (s : State) :
    ∀ t, execScanl at_ x s = .next t → t.mem = s.mem := by
  unfold execScanl
  grind [alWord_mem]

theorem execL2push_wf (k : CmdRef) (x : CmdArgs) (s : State) (hw : Memory.wf s.mem = true) :
    ∀ t, execL2push k x s = .next t → Memory.wf t.mem = true := by
  unfold execL2push
  grind [withCmd, State.pushRows_wf, Memory.wf_memPuts]

theorem execMscale_wf (k : CmdRef) (x : CmdArgs) (s : State) (hw : Memory.wf s.mem = true) :
    ∀ t, execMscale k x s = .next t → Memory.wf t.mem = true := by
  unfold execMscale
  grind [State.cmdDone_mem, readFactors_mem, State.modRun_mem, withCmd, State.cmdFault_wf, Memory.wf_memPuts]

theorem execSlti_wf (d : Reg) (a : Reg) (ta : Bool) (i : BitVec 15) (s : State) (hw : Memory.wf s.mem = true) :
    ∀ t, execSlti d a ta i s = .next t → Memory.wf t.mem = true := by
  unfold execSlti
  grind [regOne_wf, Memory.wf_memPuts]

theorem execRoundMarker_mem (at_ : SiteRef) (s : State) :
    ∀ t, execRoundMarker at_ s = .next t → t.mem = s.mem := by
  unfold execRoundMarker
  refine withEvent_mem _ _ _ _ (fun r st s => ?_)
  grind [State.recircMarker_mem, State.siteMarker_mem]

theorem execCommandStart_wf (k : CmdRef) (s : State) (hw : Memory.wf s.mem = true) :
    ∀ t, execCommandStart k s = .next t → Memory.wf t.mem = true := by
  unfold execCommandStart
  grind [State.startCmd_wf, Memory.wf_memPuts]

theorem execMul_wf (d : Reg) (a : Reg) (b : Reg) (ta : Bool) (tb : Bool) (s : State) (hw : Memory.wf s.mem = true) :
    ∀ t, execMul d a b ta tb s = .next t → Memory.wf t.mem = true := by
  unfold execMul
  grind [regReg_wf, Memory.wf_memPuts]

theorem execZext_wf (d : Reg) (a : Reg) (ta : Bool) (z : BitVec 2) (s : State) (hw : Memory.wf s.mem = true) :
    ∀ t, execZext d a ta z s = .next t → Memory.wf t.mem = true := by
  unfold execZext
  grind [regOne_wf, Memory.wf_memPuts]

theorem flowBy_mem (i : Instr) (a : SiteRef) (s : State) (f : Run → Site → Nat × Rec → List Sent) :
    ∀ t, flowBy i a s f = .next t → t.mem = s.mem := by
  unfold flowBy
  grind [State.emitSent_mem, State.putSite_mem, flow, withEvent, State.wakeSite_mem, withSite]

theorem execSteer_mem (at_ : SiteRef) (x : SiteArgs) (s : State) :
    ∀ t, execSteer at_ x s = .next t → t.mem = s.mem := by
  unfold execSteer
  grind [flowBy_mem]

theorem execImax_mem (at_ : SiteRef) (x : SiteArgs) (s : State) :
    ∀ t, execImax at_ x s = .next t → t.mem = s.mem := by
  unfold execImax
  grind [alWord_mem]

theorem execCopym_wf (k : CmdRef) (x : CmdArgs) (s : State) (hw : Memory.wf s.mem = true) :
    ∀ t, execCopym k x s = .next t → Memory.wf t.mem = true := by
  unfold execCopym
  grind [State.modRun_mem, State.landed_wf, copymBytes_mem, withCmd, State.cmdFault_wf, Memory.wf_memPuts]

theorem execWaitph_wf (d : Reg) (a : Reg) (b : Reg) (ta : Bool) (tb : Bool) (c : BitVec 3) (s : State) (hw :
    Memory.wf s.mem = true) :
    ∀ t, execWaitph d a b ta tb c s = .next t → Memory.wf t.mem = true := by
  unfold execWaitph
  grind [withSrcs, State.stall_mem, State.trap_wf, withDest, syncRet_wf, withSync, State.ccLeaseFault_wf,
      State.trapAcc_wf, Memory.wf_memPuts]

theorem execTst_wf (at_ : SiteRef) (x : SiteArgs) (s : State) (hw : Memory.wf s.mem = true) :
    ∀ t, execTst at_ x s = .next t → Memory.wf t.mem = true := by
  unfold execTst
  exact mbWord_wf _ _ _ _ (fun r st e q s hs => withMem_wf _ _ _ _ _ _ _ _ (fun y a n => storeMem_wf _ _ _ _ _ _ _
      hs) hs hs) hw

theorem execReduce_wf (at_ : SiteRef) (x : SiteArgs) (s : State) (hw : Memory.wf s.mem = true) :
    ∀ t, execReduce at_ x s = .next t → Memory.wf t.mem = true := by
  unfold execReduce
  grind [spJoin_wf, Memory.wf_memPuts]

theorem execAlOr_mem (at_ : SiteRef) (x : SiteArgs) (s : State) :
    ∀ t, execAlOr at_ x s = .next t → t.mem = s.mem := by
  unfold execAlOr
  grind [alWord_mem]

theorem execGroupset_wf (s : State) (hw : Memory.wf s.mem = true) :
    ∀ t, execGroupset s = .next t → Memory.wf t.mem = true := by
  unfold execGroupset
  grind [withMail, State.mailAnswer_wf, Memory.wf_memPuts]

theorem execCommandComplete_wf (k : CmdRef) (s : State) (hw : Memory.wf s.mem = true) :
    ∀ t, execCommandComplete k s = .next t → Memory.wf t.mem = true := by
  unfold execCommandComplete
  grind [State.completeCmd_wf, Memory.wf_memPuts]

theorem execMaxu_wf (d : Reg) (a : Reg) (b : Reg) (ta : Bool) (tb : Bool) (s : State) (hw : Memory.wf s.mem = true) :
    ∀ t, execMaxu d a b ta tb s = .next t → Memory.wf t.mem = true := by
  unfold execMaxu
  grind [regReg_wf, Memory.wf_memPuts]

theorem execHomeOperation_wf (s : State) (hw : Memory.wf s.mem = true) :
    ∀ t, execHomeOperation s = .next t → Memory.wf t.mem = true := by
  unfold execHomeOperation
  grind [State.performFirst_wf, Memory.wf_memPuts]

theorem execMmaE4m3_mem (k : CmdRef) (x : CmdArgs) (s : State) :
    ∀ t, execMmaE4m3 k x s = .next t → t.mem = s.mem := by
  unfold execMmaE4m3
  grind [runMma_mem]

theorem execMstore_wf (k : CmdRef) (x : CmdArgs) (s : State) (hw : Memory.wf s.mem = true) :
    ∀ t, execMstore k x s = .next t → Memory.wf t.mem = true := by
  unfold execMstore
  grind [storeRow_wf, chainAcc_wf, chainAcc_mem, State.cmdDone_mem, State.modRun_mem, withCmd, State.cmdFault_wf,
      Memory.wf_memPuts]

theorem execPause_mem (n : BitVec 13) (s : State) :
    ∀ t, execPause n s = .next t → t.mem = s.mem := by
  unfold execPause
  grind [State.retire_mem, State.modCc_mem, State.giveWay_mem]

theorem execContrib_wf (k : CmdRef) (x : CmdArgs) (s : State) (hw : Memory.wf s.mem = true) :
    ∀ t, execContrib k x s = .next t → Memory.wf t.mem = true := by
  unfold execContrib
  refine withCmd_wf _ _ _ (fun r c s hs => ?_) hw
  have h1 := fun z t e n s => readVals_mem r z t e n s
  have h2 := fun s e hs => State.cmdFault_wf s k c e hs
  simp only
  split
  · grind [State.cmdDone_mem]
  · split
    · grind
    · split
      · grind
      · split
        · grind
        · exact State.contribSend_wf _ _ _ _ _ _ _ (by grind [State.modRun_mem])

theorem execBne_wf (b : Reg) (a : Reg) (ta : Bool) (tb : Bool) (i : BitVec 14) (s : State) (hw : Memory.wf s.mem =
    true) :
    ∀ t, execBne b a ta tb i s = .next t → Memory.wf t.mem = true := by
  unfold execBne
  grind [branch_wf, Memory.wf_memPuts]

theorem execDusk_mem (at_ : SiteRef) (x : SiteArgs) (s : State) :
    ∀ t, execDusk at_ x s = .next t → t.mem = s.mem := by
  unfold execDusk
  grind [flowBy_mem]

theorem execBeq_wf (b : Reg) (a : Reg) (ta : Bool) (tb : Bool) (i : BitVec 14) (s : State) (hw : Memory.wf s.mem =
    true) :
    ∀ t, execBeq b a ta tb i s = .next t → Memory.wf t.mem = true := by
  unfold execBeq
  grind [branch_wf, Memory.wf_memPuts]

theorem execLih_mem (d : Reg) (i : BitVec 21) (s : State) :
    ∀ t, execLih d i s = .next t → t.mem = s.mem := by
  unfold execLih
  grind [regConst, finish_mem, withDest, State.stall_mem]

theorem execFma_mem (at_ : SiteRef) (x : SiteArgs) (s : State) :
    ∀ t, execFma at_ x s = .next t → t.mem = s.mem := by
  unfold execFma
  grind [alWord_mem]

theorem execEret_wf (s : State) (hw : Memory.wf s.mem = true) :
    ∀ t, execEret s = .next t → Memory.wf t.mem = true := by
  unfold execEret
  grind [State.trapReturn_mem, State.trap_wf, Memory.wf_memPuts]

theorem execPlacementPass_mem (s : State) :
    ∀ t, execPlacementPass s = .next t → t.mem = s.mem := by
  unfold execPlacementPass
  grind [State.pass_mem]

theorem execFneg_mem (at_ : SiteRef) (x : SiteArgs) (s : State) :
    ∀ t, execFneg at_ x s = .next t → t.mem = s.mem := by
  unfold execFneg
  grind [alWord_mem]

theorem execCbar_mem (k : CmdRef) (x : CmdArgs) (s : State) :
    ∀ t, execCbar k x s = .next t → t.mem = s.mem := by
  unfold execCbar
  grind [State.cmdDone_mem, withCmd]

theorem execContribAck_wf (k : CmdRef) (status : BitVec 2) (s : State) (hw : Memory.wf s.mem = true) :
    ∀ t, execContribAck k status s = .next t → Memory.wf t.mem = true := by
  unfold execContribAck
  grind [State.contribEnd_wf, Memory.wf_memPuts]

theorem execArrive_wf (d : Reg) (a : Reg) (ta : Bool) (c : BitVec 3) (s : State) (hw : Memory.wf s.mem = true) :
    ∀ t, execArrive d a ta c s = .next t → Memory.wf t.mem = true := by
  unfold execArrive
  grind [withSrcs, State.stall_mem, State.trap_wf, withDest, syncRet_wf, withSync, State.ccLeaseFault_wf,
      State.trapAcc_wf, Memory.wf_memPuts]

theorem execPstop_mem (k : CmdRef) (x : CmdArgs) (s : State) :
    ∀ t, execPstop k x s = .next t → t.mem = s.mem := by
  unfold execPstop
  grind [State.putPort_mem, State.cmdDone_mem, withPortCmd, withCmd, State.losePush_mem, State.portDusk_mem]

theorem execMulh_wf (d : Reg) (a : Reg) (b : Reg) (ta : Bool) (tb : Bool) (s : State) (hw : Memory.wf s.mem = true) :
    ∀ t, execMulh d a b ta tb s = .next t → Memory.wf t.mem = true := by
  unfold execMulh
  grind [regReg_wf, Memory.wf_memPuts]

theorem execDepadd_wf (a : Reg) (b : Reg) (ta : Bool) (tb : Bool) (s : State) (hw : Memory.wf s.mem = true) :
    ∀ t, execDepadd a b ta tb s = .next t → Memory.wf t.mem = true := by
  unfold execDepadd
  grind [State.stall_mem, State.retire_mem, withSrcs, State.trap_wf, State.setCount_mem, Memory.wf_memPuts]

theorem execThermalTrip_mem (s : State) :
    ∀ t, execThermalTrip s = .next t → t.mem = s.mem := by
  unfold execThermalTrip
  grind

theorem execIabs_mem (at_ : SiteRef) (x : SiteArgs) (s : State) :
    ∀ t, execIabs at_ x s = .next t → t.mem = s.mem := by
  unfold execIabs
  grind [alWord_mem]

theorem execLda_wf (d : Reg) (a : Reg) (ta : Bool) (z : BitVec 2) (o : BitVec 13) (s : State) (hw : Memory.wf s.mem
    = true) :
    ∀ t, execLda d a ta z o s = .next t → Memory.wf t.mem = true := by
  unfold execLda
  grind [load_wf, Memory.wf_memPuts]

theorem execRed_wf (a : Reg) (b : Reg) (ta : Bool) (tb : Bool) (o : BitVec 4) (z : Bool) (c : BitVec 3) (s : State)
    (hw : Memory.wf s.mem = true) :
    ∀ t, execRed a b ta tb o z c s = .next t → Memory.wf t.mem = true := by
  unfold execRed
  grind [withSrcs, State.stall_mem, State.trap_wf, syncOnly_wf, withSync, State.ccLeaseFault_wf, State.trapAcc_wf,
      Memory.wf_memPuts]

theorem execEarlyEdge_mem (s : State) :
    ∀ t, execEarlyEdge s = .next t → t.mem = s.mem := by
  unfold execEarlyEdge
  grind [State.markSite_mem, State.modRun_mem, foldl_mem]

theorem execArm_wf (a : Reg) (b : Reg) (ta : Bool) (tb : Bool) (k : BitVec 4) (s : State) (hw : Memory.wf s.mem =
    true) :
    ∀ t, execArm a b ta tb k s = .next t → Memory.wf t.mem = true := by
  unfold execArm
  grind [State.stall_mem, State.retire_mem, State.usePending_mem, State.armAt_wf, withSrcs, State.trap_wf,
      withSound_wf, State.armEvents_mem, Memory.wf_memPuts]

theorem execFlush_wf (a : Reg) (ta : Bool) (o : BitVec 15) (s : State) (hw : Memory.wf s.mem = true) :
    ∀ t, execFlush a ta o s = .next t → Memory.wf t.mem = true := by
  unfold execFlush
  grind [State.retire_mem, withSrcs, State.stall_mem, State.trap_wf, State.ccLeaseFault_wf, State.flushPlace_mem,
      queueOnly_mem, Memory.wf_memPuts]

theorem execSrai_wf (d : Reg) (a : Reg) (ta : Bool) (h : BitVec 6) (s : State) (hw : Memory.wf s.mem = true) :
    ∀ t, execSrai d a ta h s = .next t → Memory.wf t.mem = true := by
  unfold execSrai
  grind [regOne_wf, Memory.wf_memPuts]

theorem execFrcp_mem (at_ : SiteRef) (x : SiteArgs) (s : State) :
    ∀ t, execFrcp at_ x s = .next t → t.mem = s.mem := by
  unfold execFrcp
  grind [alWord_mem]

theorem execIllegalInstruction_wf (w : W32) (s : State) (hw : Memory.wf s.mem = true) :
    ∀ t, execIllegalInstruction w s = .next t → Memory.wf t.mem = true := by
  unfold execIllegalInstruction
  grind [State.trap_wf, Memory.wf_memPuts]

theorem execPmark_mem (k : CmdRef) (x : CmdArgs) (s : State) :
    ∀ t, execPmark k x s = .next t → t.mem = s.mem := by
  unfold execPmark
  grind [State.cmdDone_mem, withCmd]

theorem execThermalThrottle_mem (s : State) :
    ∀ t, execThermalThrottle s = .next t → t.mem = s.mem := by
  unfold execThermalThrottle
  grind

theorem execPacketFetch_wf (q : Nat) (s : State) (hw : Memory.wf s.mem = true) :
    ∀ t, execPacketFetch q s = .next t → Memory.wf t.mem = true := by
  unfold execPacketFetch
  grind [State.feServe_mem, State.fetchPacket_wf, Memory.wf_memPuts]

theorem execL1ld_wf (at_ : SiteRef) (x : SiteArgs) (s : State) (hw : Memory.wf s.mem = true) :
    ∀ t, execL1ld at_ x s = .next t → Memory.wf t.mem = true := by
  unfold execL1ld
  exact mbWord_wf _ _ _ _ (fun r st e q s hs => withMem_wf _ _ _ _ _ _ _ _ (fun y a n => withLines_wf _ _ _ _ _ _
      (fun s hs => memRes_wf _ _ _ _ _ (fun v t ht => ht) (by grind [readVa_mem])) hs) hs hs) hw

theorem execLinkenWrite_wf (v : Bool) (s : State) (hw : Memory.wf s.mem = true) :
    ∀ t, execLinkenWrite v s = .next t → Memory.wf t.mem = true := by
  unfold execLinkenWrite
  grind [State.mailNext_mem, State.drainEvents_wf, Memory.wf_memPuts]

theorem execPower_wf (s : State) (hw : Memory.wf s.mem = true) :
    ∀ t, execPower s = .next t → Memory.wf t.mem = true := by
  unfold execPower
  grind [withMail, State.mailAnswer_wf, Memory.wf_memPuts]

theorem execCtz_wf (d : Reg) (a : Reg) (ta : Bool) (s : State) (hw : Memory.wf s.mem = true) :
    ∀ t, execCtz d a ta s = .next t → Memory.wf t.mem = true := by
  unfold execCtz
  grind [regOne_wf, Memory.wf_memPuts]

theorem execImin_mem (at_ : SiteRef) (x : SiteArgs) (s : State) :
    ∀ t, execImin at_ x s = .next t → t.mem = s.mem := by
  unfold execImin
  grind [alWord_mem]

theorem execJal_mem (d : Reg) (i : BitVec 21) (s : State) :
    ∀ t, execJal d i s = .next t → t.mem = s.mem := by
  unfold execJal
  grind [State.setReg_mem, withDest, State.stall_mem, State.jump_mem]

theorem execL1LineArrival_mem (at_ : SiteRef) (line : Nat) (s : State) :
    ∀ t, execL1LineArrival at_ line s = .next t → t.mem = s.mem := by
  unfold execL1LineArrival
  grind [State.wakeSite_mem, withSite, State.modRun_mem, State.push_mem, State.emitPacked_mem, State.l1Put_mem]

theorem execAddpc_mem (d : Reg) (i : BitVec 21) (s : State) :
    ∀ t, execAddpc d i s = .next t → t.mem = s.mem := by
  unfold execAddpc
  grind [regConst, finish_mem, withDest, State.stall_mem]

theorem execAttest_wf (s : State) (hw : Memory.wf s.mem = true) :
    ∀ t, execAttest s = .next t → Memory.wf t.mem = true := by
  unfold execAttest
  grind [State.land_wf, withMail, State.mailAnswer_wf, Memory.wf_memPuts]

theorem execGqpost_wf (k : CmdRef) (x : CmdArgs) (s : State) (hw : Memory.wf s.mem = true) :
    ∀ t, execGqpost k x s = .next t → Memory.wf t.mem = true := by
  unfold execGqpost
  refine withCmd_wf _ _ _ (fun r c s hs => ?_) hw
  have h1 := State.holdGuest_wf s k hs
  have h2 := State.guestEnd_wf s k
  have h3 := fun h => State.settle_wf (s.dropGuest k) h (by rw [State.dropGuest_mem]; exact hs)
  have h4 := fun site tag ws b => State.postGuest_mem s k site tag ws b
  simp only
  repeat' split
  all_goals first | exact h1 | exact h3 _ | (rw [h4]; exact hs) | exact h2 _ _ hs

theorem execPagein_wf (s : State) (hw : Memory.wf s.mem = true) :
    ∀ t, execPagein s = .next t → Memory.wf t.mem = true := by
  unfold execPagein
  grind [withMail, State.push_mem, State.mailAnswer_wf, Memory.wf_memPuts]

theorem execMke_mem (d : Reg) (s : State) :
    ∀ t, execMke d s = .next t → t.mem = s.mem := by
  unfold execMke
  grind [State.retire_mem, State.modCc_mem]

theorem execSrr_mem (d : Reg) (r : BitVec 12) (s : State) :
    ∀ t, execSrr d r s = .next t → t.mem = s.mem := by
  unfold execSrr
  grind [finish_mem, withDest, State.stall_mem]

theorem execShl_mem (at_ : SiteRef) (x : SiteArgs) (s : State) :
    ∀ t, execShl at_ x s = .next t → t.mem = s.mem := by
  unfold execShl
  grind [alWord_mem]

theorem execAndi_wf (d : Reg) (a : Reg) (ta : Bool) (i : BitVec 15) (s : State) (hw : Memory.wf s.mem = true) :
    ∀ t, execAndi d a ta i s = .next t → Memory.wf t.mem = true := by
  unfold execAndi
  grind [regOne_wf, Memory.wf_memPuts]

theorem execExtend_wf (d : Reg) (a : Reg) (ta : Bool) (s : State) (hw : Memory.wf s.mem = true) :
    ∀ t, execExtend d a ta s = .next t → Memory.wf t.mem = true := by
  unfold execExtend
  grind [extendBy_mem, withSrcs, State.stall_mem, State.trap_wf, withDest, State.push_mem, finishLate,
      State.retire_mem, State.launch_mem, Memory.wf_memPuts]

theorem execEndtask_wf (s : State) (hw : Memory.wf s.mem = true) :
    ∀ t, execEndtask s = .next t → Memory.wf t.mem = true := by
  unfold execEndtask
  grind [withMail, State.endUnplaced_wf, State.faultEnd_wf, State.mailAnswer_wf, Memory.wf_memPuts]

theorem execTld_wf (at_ : SiteRef) (x : SiteArgs) (s : State) (hw : Memory.wf s.mem = true) :
    ∀ t, execTld at_ x s = .next t → Memory.wf t.mem = true := by
  unfold execTld
  refine mbWord_wf _ _ _ _ (fun r st e q s hs => ?_) hw
  refine withMem_wf _ _ _ _ _ _ _ _ (fun y a n => ?_) hs hs
  split
  · exact State.regionAcc_wf _ _ _ _ hs
  · refine withLines_wf _ _ _ _ _ _ (fun s hs => ?_) hs
    refine memRes_wf _ _ _ _ _ (fun v t ht => ht) ?_
    rw [readValue_mem]; exact hs

theorem execLmul_mem (at_ : SiteRef) (x : SiteArgs) (s : State) :
    ∀ t, execLmul at_ x s = .next t → t.mem = s.mem := by
  unfold execLmul
  grind [alWord_mem]

theorem execSuspend_wf (b : Reg) (tb : Bool) (s : State) (hw : Memory.wf s.mem = true) :
    ∀ t, execSuspend b tb s = .next t → Memory.wf t.mem = true := by
  unfold execSuspend
  grind [State.stall_mem, withSrcs, State.trap_wf, State.suspendTask_mem, Memory.wf_memPuts]

theorem execRoundCountExpiry_mem (at_ : SiteRef) (s : State) :
    ∀ t, execRoundCountExpiry at_ s = .next t → t.mem = s.mem := by
  unfold execRoundCountExpiry
  grind [State.mark_mem, withEvent, State.wakeSite_mem, withSite]

theorem execDispatch_wf (s : State) (hw : Memory.wf s.mem = true) :
    ∀ t, execDispatch s = .next t → Memory.wf t.mem = true := by
  unfold execDispatch
  grind [State.dispatchTask_wf, State.push_mem, Memory.wf_memPuts]

theorem execIsub_mem (at_ : SiteRef) (x : SiteArgs) (s : State) :
    ∀ t, execIsub at_ x s = .next t → t.mem = s.mem := by
  unfold execIsub
  grind [alWord_mem]

theorem execTestph_wf (d : Reg) (a : Reg) (b : Reg) (ta : Bool) (tb : Bool) (c : BitVec 3) (s : State) (hw :
    Memory.wf s.mem = true) :
    ∀ t, execTestph d a b ta tb c s = .next t → Memory.wf t.mem = true := by
  unfold execTestph
  grind [withSrcs, State.stall_mem, State.trap_wf, withDest, syncRet_wf, withSync, State.ccLeaseFault_wf,
      State.trapAcc_wf, Memory.wf_memPuts]

theorem execFcmp_mem (at_ : SiteRef) (x : SiteArgs) (s : State) :
    ∀ t, execFcmp at_ x s = .next t → t.mem = s.mem := by
  unfold execFcmp
  grind [alWord_mem]

theorem execDuskToken_mem (at_ : SiteRef) (s : State) :
    ∀ t, execDuskToken at_ s = .next t → t.mem = s.mem := by
  unfold execDuskToken
  refine withEvent_mem _ _ _ _ (fun r st s => ?_)
  grind [State.recircDusk1_mem, State.recircDusk0_mem, State.siteDusk_mem]

theorem execUnpin_mem (k : CmdRef) (x : CmdArgs) (s : State) :
    ∀ t, execUnpin k x s = .next t → t.mem = s.mem := by
  unfold execUnpin
  grind [State.cmdDone_mem, State.modRun_mem, withCmd]

theorem execAtomr_wf (d : Reg) (a : Reg) (b : Reg) (ta : Bool) (tb : Bool) (n : BitVec 6) (c : BitVec 3) (s :
    State) (hw : Memory.wf s.mem = true) :
    ∀ t, execAtomr d a b ta tb n c s = .next t → Memory.wf t.mem = true := by
  unfold execAtomr
  grind [withSrcs, State.stall_mem, State.trap_wf, withDest, syncRet_wf, withSync, State.ccLeaseFault_wf,
      State.trapAcc_wf, Memory.wf_memPuts]

theorem execImul_mem (at_ : SiteRef) (x : SiteArgs) (s : State) :
    ∀ t, execImul at_ x s = .next t → t.mem = s.mem := by
  unfold execImul
  grind [alWord_mem]

theorem execRelease_wf (a : Reg) (ta : Bool) (s : State) (hw : Memory.wf s.mem = true) :
    ∀ t, execRelease a ta s = .next t → Memory.wf t.mem = true := by
  unfold execRelease
  grind [State.stall_mem, State.retire_mem, withSrcs, State.trap_wf, State.releaseUnits_mem, Memory.wf_memPuts]

theorem execRetryWrite_mem (v : Bool) (b : BringUp) (s : State) :
    ∀ t, execRetryWrite v b s = .next t → t.mem = s.mem := by
  unfold execRetryWrite
  grind [State.boot_mem]

theorem execAddi_wf (d : Reg) (a : Reg) (ta : Bool) (i : BitVec 15) (s : State) (hw : Memory.wf s.mem = true) :
    ∀ t, execAddi d a ta i s = .next t → Memory.wf t.mem = true := by
  unfold execAddi
  grind [regOne_wf, Memory.wf_memPuts]

theorem execLateDelivery_wf (k : CmdRef) (s : State) (hw : Memory.wf s.mem = true) :
    ∀ t, execLateDelivery k s = .next t → Memory.wf t.mem = true := by
  unfold execLateDelivery
  grind [State.modCtx_mem, State.drain_wf, Memory.wf_memPuts]

theorem execSltiu_wf (d : Reg) (a : Reg) (ta : Bool) (i : BitVec 15) (s : State) (hw : Memory.wf s.mem = true) :
    ∀ t, execSltiu d a ta i s = .next t → Memory.wf t.mem = true := by
  unfold execSltiu
  grind [regOne_wf, Memory.wf_memPuts]

theorem execSub_wf (d : Reg) (a : Reg) (b : Reg) (ta : Bool) (tb : Bool) (s : State) (hw : Memory.wf s.mem = true) :
    ∀ t, execSub d a b ta tb s = .next t → Memory.wf t.mem = true := by
  unfold execSub
  grind [regReg_wf, Memory.wf_memPuts]

theorem execGate_mem (at_ : SiteRef) (x : SiteArgs) (s : State) :
    ∀ t, execGate at_ x s = .next t → t.mem = s.mem := by
  unfold execGate
  grind [flowBy_mem]

theorem execFilter_mem (at_ : SiteRef) (x : SiteArgs) (s : State) :
    ∀ t, execFilter at_ x s = .next t → t.mem = s.mem := by
  unfold execFilter
  grind [flowBy_mem]

theorem execRoundCommit_wf (task : W64) (s : State) (hw : Memory.wf s.mem = true) :
    ∀ t, execRoundCommit task s = .next t → Memory.wf t.mem = true := by
  unfold execRoundCommit
  grind [State.commitAt_wf, State.endPass_wf, State.checkCommit_mem, Memory.wf_memPuts]

theorem execOrder_mem (at_ : SiteRef) (x : SiteArgs) (s : State) :
    ∀ t, execOrder at_ x s = .next t → t.mem = s.mem := by
  unfold execOrder
  grind [State.putSite_mem, State.emitPlaced_mem, flow, withEvent, State.wakeSite_mem, withSite, State.emitPacked_mem]

theorem execPktSignal_mem (p : PktRef) (s : State) : ∀ t, execPktSignal p s = .next t → t.mem = s.mem := by
  unfold execPktSignal
  refine withPacket_mem _ _ _ (fun q k s => ?_)
  dsimp only
  generalize (if bit (k.w 3) 3 = true then 8 else 4) = n
  split
  · exact State.endPacket_mem ..
  · exact State.sendCtx_getD_mem _ _ _ _ _ _ _ _ _ _ _ (State.endPacket_mem ..)

theorem execClz_wf (d : Reg) (a : Reg) (ta : Bool) (s : State) (hw : Memory.wf s.mem = true) :
    ∀ t, execClz d a ta s = .next t → Memory.wf t.mem = true := by
  unfold execClz
  grind [regOne_wf, Memory.wf_memPuts]

theorem execCoord_wf (at_ : SiteRef) (x : SiteArgs) (s : State) (hw : Memory.wf s.mem = true) :
    ∀ t, execCoord at_ x s = .next t → Memory.wf t.mem = true := by
  unfold execCoord
  grind [spJoin_wf, Memory.wf_memPuts]

theorem execPortRecordWrite_wf (p : PortRef) (s : State) (hw : Memory.wf s.mem = true) :
    ∀ t, execPortRecordWrite p s = .next t → Memory.wf t.mem = true := by
  unfold execPortRecordWrite
  grind [State.putPort_mem, withPort, State.pushNew_mem, State.writeStep_wf, Memory.wf_memPuts]

theorem execOri_wf (d : Reg) (a : Reg) (ta : Bool) (i : BitVec 15) (s : State) (hw : Memory.wf s.mem = true) :
    ∀ t, execOri d a ta i s = .next t → Memory.wf t.mem = true := by
  unfold execOri
  grind [regOne_wf, Memory.wf_memPuts]

theorem execCfg_wf (k : CmdRef) (_x : CmdArgs) (s : State) (hw : Memory.wf s.mem = true) :
    ∀ t, execCfg k _x s = .next t → Memory.wf t.mem = true := by
  unfold execCfg
  grind [State.cmdDone_mem, State.loadStage_wf, withCmd, Memory.wf_memPuts]

theorem execTfetch_wf (k : CmdRef) (x : CmdArgs) (s : State) (hw : Memory.wf s.mem = true) :
    ∀ t, execTfetch k x s = .next t → Memory.wf t.mem = true := by
  unfold execTfetch
  refine withCmd_wf _ _ _ (fun r c s hs => ?_) hw
  have h1 := mapAcc_mem (List.range 128) (panelRow r c) (fun i s => panelRow_mem r c i s)
  have h2 := mapAcc_mem (List.range 128) (panelScales r c) (fun i s => panelScales_mem r c i s)
  have h3 := fun (t : State) l => foldl_mem (State.pinLine k c) (fun s a => State.pinLine_mem k c s a) l t
  split
  · exact hs
  · split
    · grind [State.cmdFault_wf]
    · split
      · grind [State.cmdFault_wf]
      · refine State.landed_wf _ _ _ ?_; simp only [h3, State.modRun_mem]; grind

theorem execLapRetry_wf (q : Nat) (s : State) (hw : Memory.wf s.mem = true) :
    ∀ t, execLapRetry q s = .next t → Memory.wf t.mem = true := by
  unfold execLapRetry
  grind [State.retryLap_mem, State.feServe_mem, State.fetchPacket_wf, Memory.wf_memPuts]

theorem execMbrdbWrite_wf (v : W64) (s : State) (hw : Memory.wf s.mem = true) :
    ∀ t, execMbrdbWrite v s = .next t → Memory.wf t.mem = true := by
  unfold execMbrdbWrite
  grind [State.mailNext_mem, State.drainEvents_wf, Memory.wf_memPuts]

theorem execPark_wf (at_ : SiteRef) (x : SiteArgs) (s : State) (hw : Memory.wf s.mem = true) :
    ∀ t, execPark at_ x s = .next t → Memory.wf t.mem = true := by
  unfold execPark
  refine mbWord_wf _ _ _ _ (fun r st e q s hs => withMem_wf _ _ _ _ _ _ _ _ (fun y a n => ?_) hs hs) hw
  grind [mbKeeps, parkAt_wf, parkRec_wf, State.regionAcc_wf, State.fresh_mem]

theorem execLinkRetrain_wf (port : Nat) (s : State) (hw : Memory.wf s.mem = true) :
    ∀ t, execLinkRetrain port s = .next t → Memory.wf t.mem = true := by
  unfold execLinkRetrain
  grind [State.importFault_wf, Memory.wf_memPuts, foldl_wf, foldl_mem]

theorem execBook_wf (d a b : Reg) (ta tb : Bool) (s : State) (hw : Memory.wf s.mem = true) :
    ∀ t, execBook d a b ta tb s = .next t → Memory.wf t.mem = true := by
  unfold execBook
  refine withSrcs_wf _ _ _ ?_ hw
  simp only [withAccess]
  split
  · grind [State.trap_wf, State.trapAcc_wf]
  · split
    · grind [State.ccLeaseFault_wf]
    · split
      · grind [State.stall_mem]
      · refine withTable_wf _ _ _ _ _ (fun ws s1 hm => ?_) hw
        have h2 : Memory.wf s1.mem = true := by rw [hm]; exact hw
        split
        · grind [State.trap_wf, State.trapAcc_wf]
        · refine withDest_wf _ _ _ ?_ h2
          split
          · refine finishLate_wf _ _ _ _ (fun n s => State.push_mem ..) ?_
            rw [State.refreshClaim_mem, State.enter_mem]
            exact h2
          · exact finishLate_wf _ _ _ _ (fun n s => State.push_mem ..) h2

theorem execJalr_wf (d : Reg) (a : Reg) (ta : Bool) (o : BitVec 13) (s : State) (hw : Memory.wf s.mem = true) :
    ∀ t, execJalr d a ta o s = .next t → Memory.wf t.mem = true := by
  unfold execJalr
  grind [State.setReg_mem, withSrcs, State.stall_mem, State.trap_wf, withDest, State.jump_mem, Memory.wf_memPuts]

theorem execTrap_wf (n : BitVec 12) (s : State) (hw : Memory.wf s.mem = true) :
    ∀ t, execTrap n s = .next t → Memory.wf t.mem = true := by
  unfold execTrap
  grind [State.trap_wf, Memory.wf_memPuts]

theorem execMmaE2m1_mem (k : CmdRef) (x : CmdArgs) (s : State) :
    ∀ t, execMmaE2m1 k x s = .next t → t.mem = s.mem := by
  unfold execMmaE2m1
  grind [runMma_mem]

theorem execGuestFaultMessage_wf (site : Nat) (tag : Nat) (s : State) (hw : Memory.wf s.mem = true) :
    ∀ t, execGuestFaultMessage site tag s = .next t → Memory.wf t.mem = true := by
  unfold execGuestFaultMessage
  grind [State.guestFault_wf, Memory.wf_memPuts]

theorem execGather_wf (k : CmdRef) (x : CmdArgs) (s : State) (hw : Memory.wf s.mem = true) :
    ∀ t, execGather k x s = .next t → Memory.wf t.mem = true := by
  unfold execGather
  grind [State.cmdEnd_wf, gatherRow_wf, forAcc_wf, forAcc_mem, withCmd, Memory.wf_memPuts]

theorem execFull_mem (d : Reg) (a : Reg) (s : State) :
    ∀ t, execFull d a s = .next t → t.mem = s.mem := by
  unfold execFull
  grind [finish_mem, withDest, State.stall_mem]

theorem execSpatom_wf (at_ : SiteRef) (x : SiteArgs) (s : State) (hw : Memory.wf s.mem = true) :
    ∀ t, execSpatom at_ x s = .next t → Memory.wf t.mem = true := by
  unfold execSpatom
  exact mbWord_wf _ _ _ _ (fun r st e q s hs => withScratch_wf _ _ _ _ _ _ (fun o c => storeShadow_wf _ _ _ _ _ _ _
      _ hs) hs) hw

theorem execCerr_wf (s : State) (hw : Memory.wf s.mem = true) :
    ∀ t, execCerr s = .next t → Memory.wf t.mem = true := by
  unfold execCerr
  grind [State.postEvent_wf, Memory.wf_memPuts]

end Sys2Proof.Machine
end

