-- ==== Sys2Proof/Laws/PerInstr.lean ====
section
/-! SUPPORT. Facts about every instruction as syntax, one lemma for each constructor. -/

/-! Every instruction belongs to one layer: a scalar word (R30), a command word (R41), a site word (R47), or an event,
which has no word; and its layer's encoder is the one that gives it a word. -/

namespace Sys2Proof.Laws.OneLayer

open Sys2Proof

/-- At most one of the three encoders gives a word, and the command and site encoders do exactly for the constructors
that have an opcode of that layer. -/
def Statement (i : Instr) : Prop :=
  (encodeCmd i).isSome = i.cmdOpcode.isSome ∧ (encodeSite i).isSome = i.siteOpcode.isSome ∧
  i.cmdArgs.isSome = i.cmdOpcode.isSome ∧ i.siteArgs.isSome = i.siteOpcode.isSome ∧
  ((encodeWord i).isSome && i.cmdOpcode.isSome) = false ∧ ((encodeWord i).isSome && i.siteOpcode.isSome) = false ∧
  (i.cmdOpcode.isSome && i.siteOpcode.isSome) = false

theorem add : ∀ x0 x1 x2 x3 x4, Statement (.add x0 x1 x2 x3 x4) :=
  fun _ _ _ _ _ => ⟨rfl, rfl, rfl, rfl, rfl, rfl, rfl⟩

theorem sub : ∀ x0 x1 x2 x3 x4, Statement (.sub x0 x1 x2 x3 x4) :=
  fun _ _ _ _ _ => ⟨rfl, rfl, rfl, rfl, rfl, rfl, rfl⟩

theorem and : ∀ x0 x1 x2 x3 x4, Statement (.and x0 x1 x2 x3 x4) :=
  fun _ _ _ _ _ => ⟨rfl, rfl, rfl, rfl, rfl, rfl, rfl⟩

theorem or : ∀ x0 x1 x2 x3 x4, Statement (.or x0 x1 x2 x3 x4) :=
  fun _ _ _ _ _ => ⟨rfl, rfl, rfl, rfl, rfl, rfl, rfl⟩

theorem xor : ∀ x0 x1 x2 x3 x4, Statement (.xor x0 x1 x2 x3 x4) :=
  fun _ _ _ _ _ => ⟨rfl, rfl, rfl, rfl, rfl, rfl, rfl⟩

theorem sll : ∀ x0 x1 x2 x3 x4, Statement (.sll x0 x1 x2 x3 x4) :=
  fun _ _ _ _ _ => ⟨rfl, rfl, rfl, rfl, rfl, rfl, rfl⟩

theorem srl : ∀ x0 x1 x2 x3 x4, Statement (.srl x0 x1 x2 x3 x4) :=
  fun _ _ _ _ _ => ⟨rfl, rfl, rfl, rfl, rfl, rfl, rfl⟩

theorem sra : ∀ x0 x1 x2 x3 x4, Statement (.sra x0 x1 x2 x3 x4) :=
  fun _ _ _ _ _ => ⟨rfl, rfl, rfl, rfl, rfl, rfl, rfl⟩

theorem slt : ∀ x0 x1 x2 x3 x4, Statement (.slt x0 x1 x2 x3 x4) :=
  fun _ _ _ _ _ => ⟨rfl, rfl, rfl, rfl, rfl, rfl, rfl⟩

theorem sltu : ∀ x0 x1 x2 x3 x4, Statement (.sltu x0 x1 x2 x3 x4) :=
  fun _ _ _ _ _ => ⟨rfl, rfl, rfl, rfl, rfl, rfl, rfl⟩

theorem min : ∀ x0 x1 x2 x3 x4, Statement (.min x0 x1 x2 x3 x4) :=
  fun _ _ _ _ _ => ⟨rfl, rfl, rfl, rfl, rfl, rfl, rfl⟩

theorem max : ∀ x0 x1 x2 x3 x4, Statement (.max x0 x1 x2 x3 x4) :=
  fun _ _ _ _ _ => ⟨rfl, rfl, rfl, rfl, rfl, rfl, rfl⟩

theorem minu : ∀ x0 x1 x2 x3 x4, Statement (.minu x0 x1 x2 x3 x4) :=
  fun _ _ _ _ _ => ⟨rfl, rfl, rfl, rfl, rfl, rfl, rfl⟩

theorem maxu : ∀ x0 x1 x2 x3 x4, Statement (.maxu x0 x1 x2 x3 x4) :=
  fun _ _ _ _ _ => ⟨rfl, rfl, rfl, rfl, rfl, rfl, rfl⟩

theorem mul : ∀ x0 x1 x2 x3 x4, Statement (.mul x0 x1 x2 x3 x4) :=
  fun _ _ _ _ _ => ⟨rfl, rfl, rfl, rfl, rfl, rfl, rfl⟩

theorem mulh : ∀ x0 x1 x2 x3 x4, Statement (.mulh x0 x1 x2 x3 x4) :=
  fun _ _ _ _ _ => ⟨rfl, rfl, rfl, rfl, rfl, rfl, rfl⟩

theorem mulhu : ∀ x0 x1 x2 x3 x4, Statement (.mulhu x0 x1 x2 x3 x4) :=
  fun _ _ _ _ _ => ⟨rfl, rfl, rfl, rfl, rfl, rfl, rfl⟩

theorem div : ∀ x0 x1 x2 x3 x4, Statement (.div x0 x1 x2 x3 x4) :=
  fun _ _ _ _ _ => ⟨rfl, rfl, rfl, rfl, rfl, rfl, rfl⟩

theorem divu : ∀ x0 x1 x2 x3 x4, Statement (.divu x0 x1 x2 x3 x4) :=
  fun _ _ _ _ _ => ⟨rfl, rfl, rfl, rfl, rfl, rfl, rfl⟩

theorem rem : ∀ x0 x1 x2 x3 x4, Statement (.rem x0 x1 x2 x3 x4) :=
  fun _ _ _ _ _ => ⟨rfl, rfl, rfl, rfl, rfl, rfl, rfl⟩

theorem remu : ∀ x0 x1 x2 x3 x4, Statement (.remu x0 x1 x2 x3 x4) :=
  fun _ _ _ _ _ => ⟨rfl, rfl, rfl, rfl, rfl, rfl, rfl⟩

theorem clz : ∀ x0 x1 x2, Statement (.clz x0 x1 x2) :=
  fun _ _ _ => ⟨rfl, rfl, rfl, rfl, rfl, rfl, rfl⟩

theorem ctz : ∀ x0 x1 x2, Statement (.ctz x0 x1 x2) :=
  fun _ _ _ => ⟨rfl, rfl, rfl, rfl, rfl, rfl, rfl⟩

theorem popc : ∀ x0 x1 x2, Statement (.popc x0 x1 x2) :=
  fun _ _ _ => ⟨rfl, rfl, rfl, rfl, rfl, rfl, rfl⟩

theorem sext : ∀ x0 x1 x2 x3, Statement (.sext x0 x1 x2 x3) :=
  fun _ _ _ _ => ⟨rfl, rfl, rfl, rfl, rfl, rfl, rfl⟩

theorem zext : ∀ x0 x1 x2 x3, Statement (.zext x0 x1 x2 x3) :=
  fun _ _ _ _ => ⟨rfl, rfl, rfl, rfl, rfl, rfl, rfl⟩

theorem mke : ∀ x0, Statement (.mke x0) :=
  fun _ => ⟨rfl, rfl, rfl, rfl, rfl, rfl, rfl⟩

theorem full : ∀ x0 x1, Statement (.full x0 x1) :=
  fun _ _ => ⟨rfl, rfl, rfl, rfl, rfl, rfl, rfl⟩

theorem addpc : ∀ x0 x1, Statement (.addpc x0 x1) :=
  fun _ _ => ⟨rfl, rfl, rfl, rfl, rfl, rfl, rfl⟩

theorem addi : ∀ x0 x1 x2 x3, Statement (.addi x0 x1 x2 x3) :=
  fun _ _ _ _ => ⟨rfl, rfl, rfl, rfl, rfl, rfl, rfl⟩

theorem andi : ∀ x0 x1 x2 x3, Statement (.andi x0 x1 x2 x3) :=
  fun _ _ _ _ => ⟨rfl, rfl, rfl, rfl, rfl, rfl, rfl⟩

theorem ori : ∀ x0 x1 x2 x3, Statement (.ori x0 x1 x2 x3) :=
  fun _ _ _ _ => ⟨rfl, rfl, rfl, rfl, rfl, rfl, rfl⟩

theorem xori : ∀ x0 x1 x2 x3, Statement (.xori x0 x1 x2 x3) :=
  fun _ _ _ _ => ⟨rfl, rfl, rfl, rfl, rfl, rfl, rfl⟩

theorem slti : ∀ x0 x1 x2 x3, Statement (.slti x0 x1 x2 x3) :=
  fun _ _ _ _ => ⟨rfl, rfl, rfl, rfl, rfl, rfl, rfl⟩

theorem sltiu : ∀ x0 x1 x2 x3, Statement (.sltiu x0 x1 x2 x3) :=
  fun _ _ _ _ => ⟨rfl, rfl, rfl, rfl, rfl, rfl, rfl⟩

theorem slli : ∀ x0 x1 x2 x3, Statement (.slli x0 x1 x2 x3) :=
  fun _ _ _ _ => ⟨rfl, rfl, rfl, rfl, rfl, rfl, rfl⟩

theorem srli : ∀ x0 x1 x2 x3, Statement (.srli x0 x1 x2 x3) :=
  fun _ _ _ _ => ⟨rfl, rfl, rfl, rfl, rfl, rfl, rfl⟩

theorem srai : ∀ x0 x1 x2 x3, Statement (.srai x0 x1 x2 x3) :=
  fun _ _ _ _ => ⟨rfl, rfl, rfl, rfl, rfl, rfl, rfl⟩

theorem bfx : ∀ x0 x1 x2 x3 x4, Statement (.bfx x0 x1 x2 x3 x4) :=
  fun _ _ _ _ _ => ⟨rfl, rfl, rfl, rfl, rfl, rfl, rfl⟩

theorem bfi : ∀ x0 x1 x2 x3 x4, Statement (.bfi x0 x1 x2 x3 x4) :=
  fun _ _ _ _ _ => ⟨rfl, rfl, rfl, rfl, rfl, rfl, rfl⟩

theorem lih : ∀ x0 x1, Statement (.lih x0 x1) :=
  fun _ _ => ⟨rfl, rfl, rfl, rfl, rfl, rfl, rfl⟩

theorem ld : ∀ x0 x1 x2 x3 x4, Statement (.ld x0 x1 x2 x3 x4) :=
  fun _ _ _ _ _ => ⟨rfl, rfl, rfl, rfl, rfl, rfl, rfl⟩

theorem lda : ∀ x0 x1 x2 x3 x4, Statement (.lda x0 x1 x2 x3 x4) :=
  fun _ _ _ _ _ => ⟨rfl, rfl, rfl, rfl, rfl, rfl, rfl⟩

theorem st : ∀ x0 x1 x2 x3 x4 x5, Statement (.st x0 x1 x2 x3 x4 x5) :=
  fun _ _ _ _ _ _ => ⟨rfl, rfl, rfl, rfl, rfl, rfl, rfl⟩

theorem str : ∀ x0 x1 x2 x3 x4 x5, Statement (.str x0 x1 x2 x3 x4 x5) :=
  fun _ _ _ _ _ _ => ⟨rfl, rfl, rfl, rfl, rfl, rfl, rfl⟩

theorem fence : ∀ x0 x1 x2 x3 x4, Statement (.fence x0 x1 x2 x3 x4) :=
  fun _ _ _ _ _ => ⟨rfl, rfl, rfl, rfl, rfl, rfl, rfl⟩

theorem flush : ∀ x0 x1 x2, Statement (.flush x0 x1 x2) :=
  fun _ _ _ => ⟨rfl, rfl, rfl, rfl, rfl, rfl, rfl⟩

theorem beq : ∀ x0 x1 x2 x3 x4, Statement (.beq x0 x1 x2 x3 x4) :=
  fun _ _ _ _ _ => ⟨rfl, rfl, rfl, rfl, rfl, rfl, rfl⟩

theorem bne : ∀ x0 x1 x2 x3 x4, Statement (.bne x0 x1 x2 x3 x4) :=
  fun _ _ _ _ _ => ⟨rfl, rfl, rfl, rfl, rfl, rfl, rfl⟩

theorem blt : ∀ x0 x1 x2 x3 x4, Statement (.blt x0 x1 x2 x3 x4) :=
  fun _ _ _ _ _ => ⟨rfl, rfl, rfl, rfl, rfl, rfl, rfl⟩

theorem bge : ∀ x0 x1 x2 x3 x4, Statement (.bge x0 x1 x2 x3 x4) :=
  fun _ _ _ _ _ => ⟨rfl, rfl, rfl, rfl, rfl, rfl, rfl⟩

theorem bltu : ∀ x0 x1 x2 x3 x4, Statement (.bltu x0 x1 x2 x3 x4) :=
  fun _ _ _ _ _ => ⟨rfl, rfl, rfl, rfl, rfl, rfl, rfl⟩

theorem bgeu : ∀ x0 x1 x2 x3 x4, Statement (.bgeu x0 x1 x2 x3 x4) :=
  fun _ _ _ _ _ => ⟨rfl, rfl, rfl, rfl, rfl, rfl, rfl⟩

theorem jal : ∀ x0 x1, Statement (.jal x0 x1) :=
  fun _ _ => ⟨rfl, rfl, rfl, rfl, rfl, rfl, rfl⟩

theorem jalr : ∀ x0 x1 x2 x3, Statement (.jalr x0 x1 x2 x3) :=
  fun _ _ _ _ => ⟨rfl, rfl, rfl, rfl, rfl, rfl, rfl⟩

theorem loop : ∀ x0 x1 x2, Statement (.loop x0 x1 x2) :=
  fun _ _ _ => ⟨rfl, rfl, rfl, rfl, rfl, rfl, rfl⟩

theorem pause : ∀ x0, Statement (.pause x0) :=
  fun _ => ⟨rfl, rfl, rfl, rfl, rfl, rfl, rfl⟩

theorem atom : ∀ x0 x1 x2 x3 x4 x5 x6 x7, Statement (.atom x0 x1 x2 x3 x4 x5 x6 x7) :=
  fun _ _ _ _ _ _ _ _ => ⟨rfl, rfl, rfl, rfl, rfl, rfl, rfl⟩

theorem atomr : ∀ x0 x1 x2 x3 x4 x5 x6, Statement (.atomr x0 x1 x2 x3 x4 x5 x6) :=
  fun _ _ _ _ _ _ _ => ⟨rfl, rfl, rfl, rfl, rfl, rfl, rfl⟩

theorem red : ∀ x0 x1 x2 x3 x4 x5 x6, Statement (.red x0 x1 x2 x3 x4 x5 x6) :=
  fun _ _ _ _ _ _ _ => ⟨rfl, rfl, rfl, rfl, rfl, rfl, rfl⟩

theorem binit : ∀ x0 x1 x2 x3 x4, Statement (.binit x0 x1 x2 x3 x4) :=
  fun _ _ _ _ _ => ⟨rfl, rfl, rfl, rfl, rfl, rfl, rfl⟩

theorem binv : ∀ x0 x1 x2, Statement (.binv x0 x1 x2) :=
  fun _ _ _ => ⟨rfl, rfl, rfl, rfl, rfl, rfl, rfl⟩

theorem arrive : ∀ x0 x1 x2 x3, Statement (.arrive x0 x1 x2 x3) :=
  fun _ _ _ _ => ⟨rfl, rfl, rfl, rfl, rfl, rfl, rfl⟩

theorem testph : ∀ x0 x1 x2 x3 x4 x5, Statement (.testph x0 x1 x2 x3 x4 x5) :=
  fun _ _ _ _ _ _ => ⟨rfl, rfl, rfl, rfl, rfl, rfl, rfl⟩

theorem waitph : ∀ x0 x1 x2 x3 x4 x5, Statement (.waitph x0 x1 x2 x3 x4 x5) :=
  fun _ _ _ _ _ _ => ⟨rfl, rfl, rfl, rfl, rfl, rfl, rfl⟩

theorem sigop : ∀ x0 x1 x2 x3 x4 x5 x6 x7, Statement (.sigop x0 x1 x2 x3 x4 x5 x6 x7) :=
  fun _ _ _ _ _ _ _ _ => ⟨rfl, rfl, rfl, rfl, rfl, rfl, rfl⟩

theorem watch : ∀ x0 x1 x2 x3 x4 x5 x6 x7, Statement (.watch x0 x1 x2 x3 x4 x5 x6 x7) :=
  fun _ _ _ _ _ _ _ _ => ⟨rfl, rfl, rfl, rfl, rfl, rfl, rfl⟩

theorem futrd : ∀ x0 x1 x2 x3 x4, Statement (.futrd x0 x1 x2 x3 x4) :=
  fun _ _ _ _ _ => ⟨rfl, rfl, rfl, rfl, rfl, rfl, rfl⟩

theorem futwr : ∀ x0 x1 x2 x3 x4 x5, Statement (.futwr x0 x1 x2 x3 x4 x5) :=
  fun _ _ _ _ _ _ => ⟨rfl, rfl, rfl, rfl, rfl, rfl, rfl⟩

theorem spawn : ∀ x0 x1 x2 x3 x4 x5 x6, Statement (.spawn x0 x1 x2 x3 x4 x5 x6) :=
  fun _ _ _ _ _ _ _ => ⟨rfl, rfl, rfl, rfl, rfl, rfl, rfl⟩

theorem depadd : ∀ x0 x1 x2 x3, Statement (.depadd x0 x1 x2 x3) :=
  fun _ _ _ _ => ⟨rfl, rfl, rfl, rfl, rfl, rfl, rfl⟩

theorem depdec : ∀ x0 x1 x2 x3, Statement (.depdec x0 x1 x2 x3) :=
  fun _ _ _ _ => ⟨rfl, rfl, rfl, rfl, rfl, rfl, rfl⟩

theorem done : ∀ x0 x1, Statement (.done x0 x1) :=
  fun _ _ => ⟨rfl, rfl, rfl, rfl, rfl, rfl, rfl⟩

theorem suspend : ∀ x0 x1, Statement (.suspend x0 x1) :=
  fun _ _ => ⟨rfl, rfl, rfl, rfl, rfl, rfl, rfl⟩

theorem arm : ∀ x0 x1 x2 x3 x4, Statement (.arm x0 x1 x2 x3 x4) :=
  fun _ _ _ _ _ => ⟨rfl, rfl, rfl, rfl, rfl, rfl, rfl⟩

theorem book : ∀ x0 x1 x2 x3 x4, Statement (.book x0 x1 x2 x3 x4) :=
  fun _ _ _ _ _ => ⟨rfl, rfl, rfl, rfl, rfl, rfl, rfl⟩

theorem extend : ∀ x0 x1 x2, Statement (.extend x0 x1 x2) :=
  fun _ _ _ => ⟨rfl, rfl, rfl, rfl, rfl, rfl, rfl⟩

theorem release : ∀ x0 x1, Statement (.release x0 x1) :=
  fun _ _ => ⟨rfl, rfl, rfl, rfl, rfl, rfl, rfl⟩

theorem issue : ∀ x0 x1 x2 x3, Statement (.issue x0 x1 x2 x3) :=
  fun _ _ _ _ => ⟨rfl, rfl, rfl, rfl, rfl, rfl, rfl⟩

theorem srr : ∀ x0 x1, Statement (.srr x0 x1) :=
  fun _ _ => ⟨rfl, rfl, rfl, rfl, rfl, rfl, rfl⟩

theorem srw : ∀ x0 x1, Statement (.srw x0 x1) :=
  fun _ _ => ⟨rfl, rfl, rfl, rfl, rfl, rfl, rfl⟩

theorem trap : ∀ x0, Statement (.trap x0) :=
  fun _ => ⟨rfl, rfl, rfl, rfl, rfl, rfl, rfl⟩

theorem lateDelivery : ∀ x0, Statement (.lateDelivery x0) :=
  fun _ => ⟨rfl, rfl, rfl, rfl, rfl, rfl, rfl⟩

theorem cfg : ∀ x0 x1, Statement (.cfg x0 x1) :=
  fun _ _ => ⟨rfl, rfl, rfl, rfl, rfl, rfl, rfl⟩

theorem pbind : ∀ x0 x1, Statement (.pbind x0 x1) :=
  fun _ _ => ⟨rfl, rfl, rfl, rfl, rfl, rfl, rfl⟩

theorem agaff : ∀ x0 x1, Statement (.agaff x0 x1) :=
  fun _ _ => ⟨rfl, rfl, rfl, rfl, rfl, rfl, rfl⟩

theorem agind : ∀ x0 x1, Statement (.agind x0 x1) :=
  fun _ _ => ⟨rfl, rfl, rfl, rfl, rfl, rfl, rfl⟩

theorem pstart : ∀ x0 x1, Statement (.pstart x0 x1) :=
  fun _ _ => ⟨rfl, rfl, rfl, rfl, rfl, rfl, rfl⟩

theorem pstop : ∀ x0 x1, Statement (.pstop x0 x1) :=
  fun _ _ => ⟨rfl, rfl, rfl, rfl, rfl, rfl, rfl⟩

theorem pmark : ∀ x0 x1, Statement (.pmark x0 x1) :=
  fun _ _ => ⟨rfl, rfl, rfl, rfl, rfl, rfl, rfl⟩

theorem tidset : ∀ x0 x1, Statement (.tidset x0 x1) :=
  fun _ _ => ⟨rfl, rfl, rfl, rfl, rfl, rfl, rfl⟩

theorem tidclr : ∀ x0 x1, Statement (.tidclr x0 x1) :=
  fun _ _ => ⟨rfl, rfl, rfl, rfl, rfl, rfl, rfl⟩

theorem cbar : ∀ x0 x1, Statement (.cbar x0 x1) :=
  fun _ _ => ⟨rfl, rfl, rfl, rfl, rfl, rfl, rfl⟩

theorem copy : ∀ x0 x1, Statement (.copy x0 x1) :=
  fun _ _ => ⟨rfl, rfl, rfl, rfl, rfl, rfl, rfl⟩

theorem copym : ∀ x0 x1, Statement (.copym x0 x1) :=
  fun _ _ => ⟨rfl, rfl, rfl, rfl, rfl, rfl, rfl⟩

theorem gather : ∀ x0 x1, Statement (.gather x0 x1) :=
  fun _ _ => ⟨rfl, rfl, rfl, rfl, rfl, rfl, rfl⟩

theorem scatter : ∀ x0 x1, Statement (.scatter x0 x1) :=
  fun _ _ => ⟨rfl, rfl, rfl, rfl, rfl, rfl, rfl⟩

theorem l2push : ∀ x0 x1, Statement (.l2push x0 x1) :=
  fun _ _ => ⟨rfl, rfl, rfl, rfl, rfl, rfl, rfl⟩

theorem tfetch : ∀ x0 x1, Statement (.tfetch x0 x1) :=
  fun _ _ => ⟨rfl, rfl, rfl, rfl, rfl, rfl, rfl⟩

theorem unpin : ∀ x0 x1, Statement (.unpin x0 x1) :=
  fun _ _ => ⟨rfl, rfl, rfl, rfl, rfl, rfl, rfl⟩

theorem mmaE4m3 : ∀ x0 x1, Statement (.mmaE4m3 x0 x1) :=
  fun _ _ => ⟨rfl, rfl, rfl, rfl, rfl, rfl, rfl⟩

theorem mmaE5m2 : ∀ x0 x1, Statement (.mmaE5m2 x0 x1) :=
  fun _ _ => ⟨rfl, rfl, rfl, rfl, rfl, rfl, rfl⟩

theorem mmaBf16 : ∀ x0 x1, Statement (.mmaBf16 x0 x1) :=
  fun _ _ => ⟨rfl, rfl, rfl, rfl, rfl, rfl, rfl⟩

theorem mmaF16 : ∀ x0 x1, Statement (.mmaF16 x0 x1) :=
  fun _ _ => ⟨rfl, rfl, rfl, rfl, rfl, rfl, rfl⟩

theorem mmaE2m1 : ∀ x0 x1, Statement (.mmaE2m1 x0 x1) :=
  fun _ _ => ⟨rfl, rfl, rfl, rfl, rfl, rfl, rfl⟩

theorem mmaL6 : ∀ x0 x1, Statement (.mmaL6 x0 x1) :=
  fun _ _ => ⟨rfl, rfl, rfl, rfl, rfl, rfl, rfl⟩

theorem mmazE4m3 : ∀ x0 x1, Statement (.mmazE4m3 x0 x1) :=
  fun _ _ => ⟨rfl, rfl, rfl, rfl, rfl, rfl, rfl⟩

theorem mmazE5m2 : ∀ x0 x1, Statement (.mmazE5m2 x0 x1) :=
  fun _ _ => ⟨rfl, rfl, rfl, rfl, rfl, rfl, rfl⟩

theorem mmazBf16 : ∀ x0 x1, Statement (.mmazBf16 x0 x1) :=
  fun _ _ => ⟨rfl, rfl, rfl, rfl, rfl, rfl, rfl⟩

theorem mmazF16 : ∀ x0 x1, Statement (.mmazF16 x0 x1) :=
  fun _ _ => ⟨rfl, rfl, rfl, rfl, rfl, rfl, rfl⟩

theorem mmazE2m1 : ∀ x0 x1, Statement (.mmazE2m1 x0 x1) :=
  fun _ _ => ⟨rfl, rfl, rfl, rfl, rfl, rfl, rfl⟩

theorem mmazL6 : ∀ x0 x1, Statement (.mmazL6 x0 x1) :=
  fun _ _ => ⟨rfl, rfl, rfl, rfl, rfl, rfl, rfl⟩

theorem mload : ∀ x0 x1, Statement (.mload x0 x1) :=
  fun _ _ => ⟨rfl, rfl, rfl, rfl, rfl, rfl, rfl⟩

theorem mstore : ∀ x0 x1, Statement (.mstore x0 x1) :=
  fun _ _ => ⟨rfl, rfl, rfl, rfl, rfl, rfl, rfl⟩

theorem mscale : ∀ x0 x1, Statement (.mscale x0 x1) :=
  fun _ _ => ⟨rfl, rfl, rfl, rfl, rfl, rfl, rfl⟩

theorem contrib : ∀ x0 x1, Statement (.contrib x0 x1) :=
  fun _ _ => ⟨rfl, rfl, rfl, rfl, rfl, rfl, rfl⟩

theorem cred : ∀ x0 x1, Statement (.cred x0 x1) :=
  fun _ _ => ⟨rfl, rfl, rfl, rfl, rfl, rfl, rfl⟩

theorem signal : ∀ x0 x1, Statement (.signal x0 x1) :=
  fun _ _ => ⟨rfl, rfl, rfl, rfl, rfl, rfl, rfl⟩

theorem arrivec : ∀ x0 x1, Statement (.arrivec x0 x1) :=
  fun _ _ => ⟨rfl, rfl, rfl, rfl, rfl, rfl, rfl⟩

theorem waitc : ∀ x0 x1, Statement (.waitc x0 x1) :=
  fun _ _ => ⟨rfl, rfl, rfl, rfl, rfl, rfl, rfl⟩

theorem gqpost : ∀ x0 x1, Statement (.gqpost x0 x1) :=
  fun _ _ => ⟨rfl, rfl, rfl, rfl, rfl, rfl, rfl⟩

theorem commandStart : ∀ x0, Statement (.commandStart x0) :=
  fun _ => ⟨rfl, rfl, rfl, rfl, rfl, rfl, rfl⟩

theorem commandComplete : ∀ x0, Statement (.commandComplete x0) :=
  fun _ => ⟨rfl, rfl, rfl, rfl, rfl, rfl, rfl⟩

theorem followOnIssue : ∀ x0, Statement (.followOnIssue x0) :=
  fun _ => ⟨rfl, rfl, rfl, rfl, rfl, rfl, rfl⟩

theorem fadd : ∀ x0 x1, Statement (.fadd x0 x1) :=
  fun _ _ => ⟨rfl, rfl, rfl, rfl, rfl, rfl, rfl⟩

theorem fsub : ∀ x0 x1, Statement (.fsub x0 x1) :=
  fun _ _ => ⟨rfl, rfl, rfl, rfl, rfl, rfl, rfl⟩

theorem fmul : ∀ x0 x1, Statement (.fmul x0 x1) :=
  fun _ _ => ⟨rfl, rfl, rfl, rfl, rfl, rfl, rfl⟩

theorem fma : ∀ x0 x1, Statement (.fma x0 x1) :=
  fun _ _ => ⟨rfl, rfl, rfl, rfl, rfl, rfl, rfl⟩

theorem fmin : ∀ x0 x1, Statement (.fmin x0 x1) :=
  fun _ _ => ⟨rfl, rfl, rfl, rfl, rfl, rfl, rfl⟩

theorem fmax : ∀ x0 x1, Statement (.fmax x0 x1) :=
  fun _ _ => ⟨rfl, rfl, rfl, rfl, rfl, rfl, rfl⟩

theorem fabs : ∀ x0 x1, Statement (.fabs x0 x1) :=
  fun _ _ => ⟨rfl, rfl, rfl, rfl, rfl, rfl, rfl⟩

theorem fneg : ∀ x0 x1, Statement (.fneg x0 x1) :=
  fun _ _ => ⟨rfl, rfl, rfl, rfl, rfl, rfl, rfl⟩

theorem frcp : ∀ x0 x1, Statement (.frcp x0 x1) :=
  fun _ _ => ⟨rfl, rfl, rfl, rfl, rfl, rfl, rfl⟩

theorem frsq : ∀ x0 x1, Statement (.frsq x0 x1) :=
  fun _ _ => ⟨rfl, rfl, rfl, rfl, rfl, rfl, rfl⟩

theorem fexp2 : ∀ x0 x1, Statement (.fexp2 x0 x1) :=
  fun _ _ => ⟨rfl, rfl, rfl, rfl, rfl, rfl, rfl⟩

theorem flog2 : ∀ x0 x1, Statement (.flog2 x0 x1) :=
  fun _ _ => ⟨rfl, rfl, rfl, rfl, rfl, rfl, rfl⟩

theorem fcmp : ∀ x0 x1, Statement (.fcmp x0 x1) :=
  fun _ _ => ⟨rfl, rfl, rfl, rfl, rfl, rfl, rfl⟩

theorem fclass : ∀ x0 x1, Statement (.fclass x0 x1) :=
  fun _ _ => ⟨rfl, rfl, rfl, rfl, rfl, rfl, rfl⟩

theorem fcvt : ∀ x0 x1, Statement (.fcvt x0 x1) :=
  fun _ _ => ⟨rfl, rfl, rfl, rfl, rfl, rfl, rfl⟩

theorem hadd2 : ∀ x0 x1, Statement (.hadd2 x0 x1) :=
  fun _ _ => ⟨rfl, rfl, rfl, rfl, rfl, rfl, rfl⟩

theorem hmul2 : ∀ x0 x1, Statement (.hmul2 x0 x1) :=
  fun _ _ => ⟨rfl, rfl, rfl, rfl, rfl, rfl, rfl⟩

theorem hfma2 : ∀ x0 x1, Statement (.hfma2 x0 x1) :=
  fun _ _ => ⟨rfl, rfl, rfl, rfl, rfl, rfl, rfl⟩

theorem hdot2 : ∀ x0 x1, Statement (.hdot2 x0 x1) :=
  fun _ _ => ⟨rfl, rfl, rfl, rfl, rfl, rfl, rfl⟩

theorem q8dot4 : ∀ x0 x1, Statement (.q8dot4 x0 x1) :=
  fun _ _ => ⟨rfl, rfl, rfl, rfl, rfl, rfl, rfl⟩

theorem lmul : ∀ x0 x1, Statement (.lmul x0 x1) :=
  fun _ _ => ⟨rfl, rfl, rfl, rfl, rfl, rfl, rfl⟩

theorem lacc : ∀ x0 x1, Statement (.lacc x0 x1) :=
  fun _ _ => ⟨rfl, rfl, rfl, rfl, rfl, rfl, rfl⟩

theorem lcvt : ∀ x0 x1, Statement (.lcvt x0 x1) :=
  fun _ _ => ⟨rfl, rfl, rfl, rfl, rfl, rfl, rfl⟩

theorem iadd : ∀ x0 x1, Statement (.iadd x0 x1) :=
  fun _ _ => ⟨rfl, rfl, rfl, rfl, rfl, rfl, rfl⟩

theorem isub : ∀ x0 x1, Statement (.isub x0 x1) :=
  fun _ _ => ⟨rfl, rfl, rfl, rfl, rfl, rfl, rfl⟩

theorem imul : ∀ x0 x1, Statement (.imul x0 x1) :=
  fun _ _ => ⟨rfl, rfl, rfl, rfl, rfl, rfl, rfl⟩

theorem imulh : ∀ x0 x1, Statement (.imulh x0 x1) :=
  fun _ _ => ⟨rfl, rfl, rfl, rfl, rfl, rfl, rfl⟩

theorem imad : ∀ x0 x1, Statement (.imad x0 x1) :=
  fun _ _ => ⟨rfl, rfl, rfl, rfl, rfl, rfl, rfl⟩

theorem imin : ∀ x0 x1, Statement (.imin x0 x1) :=
  fun _ _ => ⟨rfl, rfl, rfl, rfl, rfl, rfl, rfl⟩

theorem imax : ∀ x0 x1, Statement (.imax x0 x1) :=
  fun _ _ => ⟨rfl, rfl, rfl, rfl, rfl, rfl, rfl⟩

theorem iabs : ∀ x0 x1, Statement (.iabs x0 x1) :=
  fun _ _ => ⟨rfl, rfl, rfl, rfl, rfl, rfl, rfl⟩

theorem alAnd : ∀ x0 x1, Statement (.alAnd x0 x1) :=
  fun _ _ => ⟨rfl, rfl, rfl, rfl, rfl, rfl, rfl⟩

theorem alOr : ∀ x0 x1, Statement (.alOr x0 x1) :=
  fun _ _ => ⟨rfl, rfl, rfl, rfl, rfl, rfl, rfl⟩

theorem alXor : ∀ x0 x1, Statement (.alXor x0 x1) :=
  fun _ _ => ⟨rfl, rfl, rfl, rfl, rfl, rfl, rfl⟩

theorem not : ∀ x0 x1, Statement (.not x0 x1) :=
  fun _ _ => ⟨rfl, rfl, rfl, rfl, rfl, rfl, rfl⟩

theorem shl : ∀ x0 x1, Statement (.shl x0 x1) :=
  fun _ _ => ⟨rfl, rfl, rfl, rfl, rfl, rfl, rfl⟩

theorem shr : ∀ x0 x1, Statement (.shr x0 x1) :=
  fun _ _ => ⟨rfl, rfl, rfl, rfl, rfl, rfl, rfl⟩

theorem sar : ∀ x0 x1, Statement (.sar x0 x1) :=
  fun _ _ => ⟨rfl, rfl, rfl, rfl, rfl, rfl, rfl⟩

theorem icmp : ∀ x0 x1, Statement (.icmp x0 x1) :=
  fun _ _ => ⟨rfl, rfl, rfl, rfl, rfl, rfl, rfl⟩

theorem sel : ∀ x0 x1, Statement (.sel x0 x1) :=
  fun _ _ => ⟨rfl, rfl, rfl, rfl, rfl, rfl, rfl⟩

theorem alPopc : ∀ x0 x1, Statement (.alPopc x0 x1) :=
  fun _ _ => ⟨rfl, rfl, rfl, rfl, rfl, rfl, rfl⟩

theorem alClz : ∀ x0 x1, Statement (.alClz x0 x1) :=
  fun _ _ => ⟨rfl, rfl, rfl, rfl, rfl, rfl, rfl⟩

theorem hash : ∀ x0 x1, Statement (.hash x0 x1) :=
  fun _ _ => ⟨rfl, rfl, rfl, rfl, rfl, rfl, rfl⟩

theorem rsum : ∀ x0 x1, Statement (.rsum x0 x1) :=
  fun _ _ => ⟨rfl, rfl, rfl, rfl, rfl, rfl, rfl⟩

theorem rmax : ∀ x0 x1, Statement (.rmax x0 x1) :=
  fun _ _ => ⟨rfl, rfl, rfl, rfl, rfl, rfl, rfl⟩

theorem scanl : ∀ x0 x1, Statement (.scanl x0 x1) :=
  fun _ _ => ⟨rfl, rfl, rfl, rfl, rfl, rfl, rfl⟩

theorem shuf : ∀ x0 x1, Statement (.shuf x0 x1) :=
  fun _ _ => ⟨rfl, rfl, rfl, rfl, rfl, rfl, rfl⟩

theorem bcast : ∀ x0 x1, Statement (.bcast x0 x1) :=
  fun _ _ => ⟨rfl, rfl, rfl, rfl, rfl, rfl, rfl⟩

theorem iota : ∀ x0 x1, Statement (.iota x0 x1) :=
  fun _ _ => ⟨rfl, rfl, rfl, rfl, rfl, rfl, rfl⟩

theorem const : ∀ x0 x1, Statement (.const x0 x1) :=
  fun _ _ => ⟨rfl, rfl, rfl, rfl, rfl, rfl, rfl⟩

theorem spld : ∀ x0 x1, Statement (.spld x0 x1) :=
  fun _ _ => ⟨rfl, rfl, rfl, rfl, rfl, rfl, rfl⟩

theorem spst : ∀ x0 x1, Statement (.spst x0 x1) :=
  fun _ _ => ⟨rfl, rfl, rfl, rfl, rfl, rfl, rfl⟩

theorem spldi : ∀ x0 x1, Statement (.spldi x0 x1) :=
  fun _ _ => ⟨rfl, rfl, rfl, rfl, rfl, rfl, rfl⟩

theorem spatom : ∀ x0 x1, Statement (.spatom x0 x1) :=
  fun _ _ => ⟨rfl, rfl, rfl, rfl, rfl, rfl, rfl⟩

theorem l1ld : ∀ x0 x1, Statement (.l1ld x0 x1) :=
  fun _ _ => ⟨rfl, rfl, rfl, rfl, rfl, rfl, rfl⟩

theorem l1st : ∀ x0 x1, Statement (.l1st x0 x1) :=
  fun _ _ => ⟨rfl, rfl, rfl, rfl, rfl, rfl, rfl⟩

theorem tld : ∀ x0 x1, Statement (.tld x0 x1) :=
  fun _ _ => ⟨rfl, rfl, rfl, rfl, rfl, rfl, rfl⟩

theorem tst : ∀ x0 x1, Statement (.tst x0 x1) :=
  fun _ _ => ⟨rfl, rfl, rfl, rfl, rfl, rfl, rfl⟩

theorem park : ∀ x0 x1, Statement (.park x0 x1) :=
  fun _ _ => ⟨rfl, rfl, rfl, rfl, rfl, rfl, rfl⟩

theorem scan : ∀ x0 x1, Statement (.scan x0 x1) :=
  fun _ _ => ⟨rfl, rfl, rfl, rfl, rfl, rfl, rfl⟩

theorem coord : ∀ x0 x1, Statement (.coord x0 x1) :=
  fun _ _ => ⟨rfl, rfl, rfl, rfl, rfl, rfl, rfl⟩

theorem isect : ∀ x0 x1, Statement (.isect x0 x1) :=
  fun _ _ => ⟨rfl, rfl, rfl, rfl, rfl, rfl, rfl⟩

theorem union : ∀ x0 x1, Statement (.union x0 x1) :=
  fun _ _ => ⟨rfl, rfl, rfl, rfl, rfl, rfl, rfl⟩

theorem reduce : ∀ x0 x1, Statement (.reduce x0 x1) :=
  fun _ _ => ⟨rfl, rfl, rfl, rfl, rfl, rfl, rfl⟩

theorem topk : ∀ x0 x1, Statement (.topk x0 x1) :=
  fun _ _ => ⟨rfl, rfl, rfl, rfl, rfl, rfl, rfl⟩

theorem spval : ∀ x0 x1, Statement (.spval x0 x1) :=
  fun _ _ => ⟨rfl, rfl, rfl, rfl, rfl, rfl, rfl⟩

theorem fork : ∀ x0 x1, Statement (.fork x0 x1) :=
  fun _ _ => ⟨rfl, rfl, rfl, rfl, rfl, rfl, rfl⟩

theorem filter : ∀ x0 x1, Statement (.filter x0 x1) :=
  fun _ _ => ⟨rfl, rfl, rfl, rfl, rfl, rfl, rfl⟩

theorem steer : ∀ x0 x1, Statement (.steer x0 x1) :=
  fun _ _ => ⟨rfl, rfl, rfl, rfl, rfl, rfl, rfl⟩

theorem merge : ∀ x0 x1, Statement (.merge x0 x1) :=
  fun _ _ => ⟨rfl, rfl, rfl, rfl, rfl, rfl, rfl⟩

theorem recirc : ∀ x0 x1, Statement (.recirc x0 x1) :=
  fun _ _ => ⟨rfl, rfl, rfl, rfl, rfl, rfl, rfl⟩

theorem compact : ∀ x0 x1, Statement (.compact x0 x1) :=
  fun _ _ => ⟨rfl, rfl, rfl, rfl, rfl, rfl, rfl⟩

theorem order : ∀ x0 x1, Statement (.order x0 x1) :=
  fun _ _ => ⟨rfl, rfl, rfl, rfl, rfl, rfl, rfl⟩

theorem mark : ∀ x0 x1, Statement (.mark x0 x1) :=
  fun _ _ => ⟨rfl, rfl, rfl, rfl, rfl, rfl, rfl⟩

theorem dusk : ∀ x0 x1, Statement (.dusk x0 x1) :=
  fun _ _ => ⟨rfl, rfl, rfl, rfl, rfl, rfl, rfl⟩

theorem gate : ∀ x0 x1, Statement (.gate x0 x1) :=
  fun _ _ => ⟨rfl, rfl, rfl, rfl, rfl, rfl, rfl⟩

theorem retire : ∀ x0 x1, Statement (.retire x0 x1) :=
  fun _ _ => ⟨rfl, rfl, rfl, rfl, rfl, rfl, rfl⟩

theorem tagset : ∀ x0 x1, Statement (.tagset x0 x1) :=
  fun _ _ => ⟨rfl, rfl, rfl, rfl, rfl, rfl, rfl⟩

theorem roundCountExpiry : ∀ x0, Statement (.roundCountExpiry x0) :=
  fun _ => ⟨rfl, rfl, rfl, rfl, rfl, rfl, rfl⟩

theorem roundMarker : ∀ x0, Statement (.roundMarker x0) :=
  fun _ => ⟨rfl, rfl, rfl, rfl, rfl, rfl, rfl⟩

theorem duskToken : ∀ x0, Statement (.duskToken x0) :=
  fun _ => ⟨rfl, rfl, rfl, rfl, rfl, rfl, rfl⟩

theorem roundCommit : ∀ x0, Statement (.roundCommit x0) :=
  fun _ => ⟨rfl, rfl, rfl, rfl, rfl, rfl, rfl⟩

theorem portEmit : ∀ x0, Statement (.portEmit x0) :=
  fun _ => ⟨rfl, rfl, rfl, rfl, rfl, rfl, rfl⟩

theorem portRunAhead : ∀ x0, Statement (.portRunAhead x0) :=
  fun _ => ⟨rfl, rfl, rfl, rfl, rfl, rfl, rfl⟩

theorem portElementLanded : ∀ x0 x1 x2, Statement (.portElementLanded x0 x1 x2) :=
  fun _ _ _ => ⟨rfl, rfl, rfl, rfl, rfl, rfl, rfl⟩

theorem portRecordWrite : ∀ x0, Statement (.portRecordWrite x0) :=
  fun _ => ⟨rfl, rfl, rfl, rfl, rfl, rfl, rfl⟩

theorem portIndexRecord : ∀ x0, Statement (.portIndexRecord x0) :=
  fun _ => ⟨rfl, rfl, rfl, rfl, rfl, rfl, rfl⟩

theorem mbServiceCycle : ∀ x0, Statement (.mbServiceCycle x0) :=
  fun _ => ⟨rfl, rfl, rfl, rfl, rfl, rfl, rfl⟩

theorem l1LineArrival : ∀ x0 x1, Statement (.l1LineArrival x0 x1) :=
  fun _ _ => ⟨rfl, rfl, rfl, rfl, rfl, rfl, rfl⟩

theorem preemption : ∀ x0, Statement (.preemption x0) :=
  fun _ => ⟨rfl, rfl, rfl, rfl, rfl, rfl, rfl⟩

theorem doorbellWrite : ∀ x0 x1, Statement (.doorbellWrite x0 x1) :=
  fun _ _ => ⟨rfl, rfl, rfl, rfl, rfl, rfl, rfl⟩

theorem lapRetry : ∀ x0, Statement (.lapRetry x0) :=
  fun _ => ⟨rfl, rfl, rfl, rfl, rfl, rfl, rfl⟩

theorem packetFetch : ∀ x0, Statement (.packetFetch x0) :=
  fun _ => ⟨rfl, rfl, rfl, rfl, rfl, rfl, rfl⟩

theorem pktNop : ∀ x0, Statement (.pktNop x0) :=
  fun _ => ⟨rfl, rfl, rfl, rfl, rfl, rfl, rfl⟩

theorem pktLaunch : ∀ x0, Statement (.pktLaunch x0) :=
  fun _ => ⟨rfl, rfl, rfl, rfl, rfl, rfl, rfl⟩

theorem pktCopy : ∀ x0, Statement (.pktCopy x0) :=
  fun _ => ⟨rfl, rfl, rfl, rfl, rfl, rfl, rfl⟩

theorem pktBarrier : ∀ x0, Statement (.pktBarrier x0) :=
  fun _ => ⟨rfl, rfl, rfl, rfl, rfl, rfl, rfl⟩

theorem pktSignal : ∀ x0, Statement (.pktSignal x0) :=
  fun _ => ⟨rfl, rfl, rfl, rfl, rfl, rfl, rfl⟩

theorem pktGuest : ∀ x0, Statement (.pktGuest x0) :=
  fun _ => ⟨rfl, rfl, rfl, rfl, rfl, rfl, rfl⟩

theorem packetComplete : ∀ x0, Statement (.packetComplete x0) :=
  fun _ => ⟨rfl, rfl, rfl, rfl, rfl, rfl, rfl⟩

theorem mbcdbWrite : ∀ x0, Statement (.mbcdbWrite x0) :=
  fun _ => ⟨rfl, rfl, rfl, rfl, rfl, rfl, rfl⟩

theorem mbrdbWrite : ∀ x0, Statement (.mbrdbWrite x0) :=
  fun _ => ⟨rfl, rfl, rfl, rfl, rfl, rfl, rfl⟩

theorem hostWrite : ∀ x0 x1, Statement (.hostWrite x0 x1) :=
  fun _ _ => ⟨rfl, rfl, rfl, rfl, rfl, rfl, rfl⟩

theorem peerIngress : ∀ x0, Statement (.peerIngress x0) :=
  fun _ => ⟨rfl, rfl, rfl, rfl, rfl, rfl, rfl⟩

theorem importRefusal : ∀ x0 x1 x2, Statement (.importRefusal x0 x1 x2) :=
  fun _ _ _ => ⟨rfl, rfl, rfl, rfl, rfl, rfl, rfl⟩

theorem contribAck : ∀ x0 x1, Statement (.contribAck x0 x1) :=
  fun _ _ => ⟨rfl, rfl, rfl, rfl, rfl, rfl, rfl⟩

theorem ringPartial : ∀ x0 x1 x2 x3 x4, Statement (.ringPartial x0 x1 x2 x3 x4) :=
  fun _ _ _ _ _ => ⟨rfl, rfl, rfl, rfl, rfl, rfl, rfl⟩

theorem linkRetrain : ∀ x0, Statement (.linkRetrain x0) :=
  fun _ => ⟨rfl, rfl, rfl, rfl, rfl, rfl, rfl⟩

theorem guestAccess : ∀ x0, Statement (.guestAccess x0) :=
  fun _ => ⟨rfl, rfl, rfl, rfl, rfl, rfl, rfl⟩

theorem guestCompletion : ∀ x0 x1, Statement (.guestCompletion x0 x1) :=
  fun _ _ => ⟨rfl, rfl, rfl, rfl, rfl, rfl, rfl⟩

theorem guestFaultMessage : ∀ x0 x1, Statement (.guestFaultMessage x0 x1) :=
  fun _ _ => ⟨rfl, rfl, rfl, rfl, rfl, rfl, rfl⟩

theorem invalidationAck : ∀ x0 x1, Statement (.invalidationAck x0 x1) :=
  fun _ _ => ⟨rfl, rfl, rfl, rfl, rfl, rfl, rfl⟩

theorem guestPreemptAnswer : ∀ x0 x1 x2, Statement (.guestPreemptAnswer x0 x1 x2) :=
  fun _ _ _ => ⟨rfl, rfl, rfl, rfl, rfl, rfl, rfl⟩

theorem powerGood : ∀ x0, Statement (.powerGood x0) :=
  fun _ => ⟨rfl, rfl, rfl, rfl, rfl, rfl, rfl⟩

theorem linkenWrite : ∀ x0, Statement (.linkenWrite x0) :=
  fun _ => ⟨rfl, rfl, rfl, rfl, rfl, rfl, rfl⟩

theorem retryWrite : ∀ x0 x1, Statement (.retryWrite x0 x1) :=
  fun _ _ => ⟨rfl, rfl, rfl, rfl, rfl, rfl, rfl⟩

theorem devinfoWrite : ∀ x0, Statement (.devinfoWrite x0) :=
  fun _ => ⟨rfl, rfl, rfl, rfl, rfl, rfl, rfl⟩

theorem thermalStep : ∀ x0, Statement (.thermalStep x0) :=
  fun _ => ⟨rfl, rfl, rfl, rfl, rfl, rfl, rfl⟩

theorem illegalInstruction : ∀ x0, Statement (.illegalInstruction x0) :=
  fun _ => ⟨rfl, rfl, rfl, rfl, rfl, rfl, rfl⟩

theorem guestReauthentication : ∀ x0 x1, Statement (.guestReauthentication x0 x1) :=
  fun _ _ => ⟨rfl, rfl, rfl, rfl, rfl, rfl, rfl⟩

theorem yield : Statement (.yield) :=
  ⟨rfl, rfl, rfl, rfl, rfl, rfl, rfl⟩

theorem eret : Statement (.eret) :=
  ⟨rfl, rfl, rfl, rfl, rfl, rfl, rfl⟩

theorem deferredTrapEntry : Statement (.deferredTrapEntry) :=
  ⟨rfl, rfl, rfl, rfl, rfl, rfl, rfl⟩

theorem contextSwitch : Statement (.contextSwitch) :=
  ⟨rfl, rfl, rfl, rfl, rfl, rfl, rfl⟩

theorem promiseMissed : Statement (.promiseMissed) :=
  ⟨rfl, rfl, rfl, rfl, rfl, rfl, rfl⟩

theorem guestPromiseMissed : Statement (.guestPromiseMissed) :=
  ⟨rfl, rfl, rfl, rfl, rfl, rfl, rfl⟩

theorem earlyEdge : Statement (.earlyEdge) :=
  ⟨rfl, rfl, rfl, rfl, rfl, rfl, rfl⟩

theorem homeOperation : Statement (.homeOperation) :=
  ⟨rfl, rfl, rfl, rfl, rfl, rfl, rfl⟩

theorem homeRetry : Statement (.homeRetry) :=
  ⟨rfl, rfl, rfl, rfl, rfl, rfl, rfl⟩

theorem aging : Statement (.aging) :=
  ⟨rfl, rfl, rfl, rfl, rfl, rfl, rfl⟩

theorem leaseWalk : Statement (.leaseWalk) :=
  ⟨rfl, rfl, rfl, rfl, rfl, rfl, rfl⟩

theorem placementPass : Statement (.placementPass) :=
  ⟨rfl, rfl, rfl, rfl, rfl, rfl, rfl⟩

theorem dispatch : Statement (.dispatch) :=
  ⟨rfl, rfl, rfl, rfl, rfl, rfl, rfl⟩

theorem windowEnd : Statement (.windowEnd) :=
  ⟨rfl, rfl, rfl, rfl, rfl, rfl, rfl⟩

theorem reservationLapse : Statement (.reservationLapse) :=
  ⟨rfl, rfl, rfl, rfl, rfl, rfl, rfl⟩

theorem regq : Statement (.regq) :=
  ⟨rfl, rfl, rfl, rfl, rfl, rfl, rfl⟩

theorem unregq : Statement (.unregq) :=
  ⟨rfl, rfl, rfl, rfl, rfl, rfl, rfl⟩

theorem resetq : Statement (.resetq) :=
  ⟨rfl, rfl, rfl, rfl, rfl, rfl, rfl⟩

theorem setw : Statement (.setw) :=
  ⟨rfl, rfl, rfl, rfl, rfl, rfl, rfl⟩

theorem pagein : Statement (.pagein) :=
  ⟨rfl, rfl, rfl, rfl, rfl, rfl, rfl⟩

theorem endtask : Statement (.endtask) :=
  ⟨rfl, rfl, rfl, rfl, rfl, rfl, rfl⟩

theorem loadrtn : Statement (.loadrtn) :=
  ⟨rfl, rfl, rfl, rfl, rfl, rfl, rfl⟩

theorem groupset : Statement (.groupset) :=
  ⟨rfl, rfl, rfl, rfl, rfl, rfl, rfl⟩

theorem readalm : Statement (.readalm) :=
  ⟨rfl, rfl, rfl, rfl, rfl, rfl, rfl⟩

theorem power : Statement (.power) :=
  ⟨rfl, rfl, rfl, rfl, rfl, rfl, rfl⟩

theorem attest : Statement (.attest) :=
  ⟨rfl, rfl, rfl, rfl, rfl, rfl, rfl⟩

theorem unknownCommand : Statement (.unknownCommand) :=
  ⟨rfl, rfl, rfl, rfl, rfl, rfl, rfl⟩

theorem cerr : Statement (.cerr) :=
  ⟨rfl, rfl, rfl, rfl, rfl, rfl, rfl⟩

theorem invalidationDeadline : Statement (.invalidationDeadline) :=
  ⟨rfl, rfl, rfl, rfl, rfl, rfl, rfl⟩

theorem preemptDeadline : Statement (.preemptDeadline) :=
  ⟨rfl, rfl, rfl, rfl, rfl, rfl, rfl⟩

theorem thermalThrottle : Statement (.thermalThrottle) :=
  ⟨rfl, rfl, rfl, rfl, rfl, rfl, rfl⟩

theorem thermalTrip : Statement (.thermalTrip) :=
  ⟨rfl, rfl, rfl, rfl, rfl, rfl, rfl⟩

end Sys2Proof.Laws.OneLayer

theorem Sys2Proof.Laws.OneLayer.repeat : ∀ x0 x1, Sys2Proof.Laws.OneLayer.Statement (.repeat x0 x1) :=
  fun _ _ => ⟨rfl, rfl, rfl, rfl, rfl, rfl, rfl⟩

theorem Sys2Proof.Laws.OneLayer.recall : Sys2Proof.Laws.OneLayer.Statement (.recall) :=
  ⟨rfl, rfl, rfl, rfl, rfl, rfl, rfl⟩
end

