-- ==== Sys2Proof/Tests/Slice0.lean ====
section
/-! SUPPORT. Tests: ill-formed terms that the checks of WellFormed refuse; words of the manual's encodings and what they decode to; for
every statement a state and operands that meet its hypotheses; and one step on the manual's worked examples. The expected values are
the manual's own tables and examples, or computed by hand from its rules. -/

namespace Sys2Proof.Tests

open Sys2Proof Sys2Proof.Machine Sys2Proof.Machine.Claims

set_option maxRecDepth 20000

/-! ## Small states -/

/-- A task of record 0 of die 0 in its first generation. -/
def hA : W64 := 0x100000000#64
/-- An extent of 64 KiB that may be read and written, mapped where it stands. -/
def extA : Extent := ⟨0, true, true, false, 0x200000, 0x10000, [⟨0x200000, 0x10000, 3#8, 1, 0x200000⟩], none⟩
/-- A dispatched task with that extent and a code page. -/
def runA : Run := { placedRun Run.reset with lease := extA :: (placedRun Run.reset).lease, extn := 1 }
def stA : State := { State.reset with cc := runA, dev := { DevInfo.reset with st := 2 } }
/-- The same with a value in a register. -/
def withReg (s : State) (k : Reg) (v : W64) : State := s.setReg k v
/-- The same with a trap handler set. -/
def withVec (s : State) : State := s.modCc fun r => { r with sys := { r.sys with tvec := 0x10100#64 } }
/-- A register that is empty: awaited, or orphaned. -/
def withEmpty (s : State) (k : Reg) (pend : Bool) : State := s.modCc fun r => r.putCell k ⟨0#64, false, pend⟩

/-- The bytes of the extent lie where they stand. -/
theorem flatA (ea n : Nat) (h : 0x200000 ≤ ea) (h' : ea + n ≤ 0x210000) : FlatAt extA ea n ea := by
  intro i hi
  refine ⟨3#8, ?_⟩
  have h1 : 0x200000 ≤ ea + i := by omega
  have h2 : ea + i < 0x200000 + 0x10000 := by omega
  simp only [Extent.place, Extent.runAt, extA, List.find?]
  simp [h1, h2]

/-- Nothing watches memory in a state with no barrier object and no vigil entry. -/
theorem unwatched_of_empty {s : State} (hb : s.bars = []) (hv : s.vigils = []) (pa n : Nat) : Unwatched s pa n := by
  simp [Unwatched, ClearOfBarriers, hb, hv]

/-- The fields of a command with nothing set. -/
def noArgs : CmdArgs := ⟨false, false, false, false, 0, 0, 0, 0, 0, 0, 0⟩
/-- An acceptance and a site. -/
def ref0 : CmdRef := ⟨5#64, 3⟩
def site0 : SiteRef := ⟨5#64, 2, 3⟩
/-- The fields of a site word: nothing, and one link source. -/
def noSrc : SiteArgs := ⟨0, 0x2C, 0x2C, 0x2C, 6, 0, 0⟩
def oneSrc : SiteArgs := ⟨0, 0, 0x2C, 0x2C, 6, 0, 0⟩

/-- R35 to R40: a scalar term with a sub-field outside its range is ill-formed, one term for each check. -/
theorem test_wf_refuses_scalar_terms :
    ([.sext 1 2 false 3, .zext 1 2 false 3, .bfx 1 2 false 63 1, .bfi 1 2 false 1 63, .fence true true true true 6,
      .fence false false true true 2, .fence true true false false 2, .loop 1 false 0, .atom 1 2 3 false false 10 true 2,
      .atom 1 2 3 false false 0 true 0, .atomr 1 2 3 false false 0 1, .red 1 2 false false 8 true 2, .red 1 2 false false 0 true 6,
      .binit 1 2 false false 1, .binv 1 false 6, .arrive 1 2 false 0, .testph 1 2 3 false false 1, .waitph 1 2 3 false false 7,
      .sigop 1 2 3 false false 5 true 2, .sigop 1 2 3 false false 0 true 1, .watch 1 2 3 false false 11 true 2,
      .watch 1 2 3 false false 0 true 0, .futrd 1 2 false true 1, .futwr 1 2 false false true 6, .arm 1 2 false false 5,
      .srr 1 5, .srw 1 0] : List Instr).all (fun i => !i.wf) = true := by decide

/-- R43 to R45: a command term with a flag, a field, a port, a tile or a scope its opcode does not allow is ill-formed, one term
for each command. -/
theorem test_wf_refuses_command_terms :
    ([.cfg ref0 { noArgs with ta := 1 }, .pbind ref0 { noArgs with tc := 16 }, .agaff ref0 { noArgs with scope := 6 },
      .agind ref0 { noArgs with scope := 1 }, .pstart ref0 { noArgs with fixed := 1 }, .pstop ref0 { noArgs with p0 := 1 },
      .pmark ref0 { noArgs with ff := true }, .tidset ref0 { noArgs with p1 := 0x10000 }, .tidclr ref0 { noArgs with fw := true },
      .cbar ref0 { noArgs with fixed := 8 }, .copy ref0 { noArgs with tb := 1 }, .copym ref0 { noArgs with tc := 4 },
      .gather ref0 { noArgs with fixed := 1 }, .scatter ref0 { noArgs with fc := true }, .l2push ref0 { noArgs with tc := 1 },
      .tfetch ref0 { noArgs with scope := 7 }, .unpin ref0 { noArgs with tc := 4 }, .mmaE4m3 ref0 { noArgs with tc := 4 },
      .mmaE5m2 ref0 { noArgs with fixed := 1 }, .mmaBf16 ref0 { noArgs with ff := true }, .mmaF16 ref0 { noArgs with fc := true },
      .mmaE2m1 ref0 { noArgs with scope := 6 }, .mmaL6 ref0 { noArgs with tc := 63 }, .mmazE4m3 ref0 { noArgs with tc := 4 },
      .mmazE5m2 ref0 { noArgs with fixed := 1 }, .mmazBf16 ref0 { noArgs with ff := true }, .mmazF16 ref0 { noArgs with fc := true },
      .mmazE2m1 ref0 { noArgs with scope := 6 }, .mmazL6 ref0 { noArgs with tc := 63 }, .mload ref0 { noArgs with tb := 1 },
      .mstore ref0 { noArgs with fc := true }, .mscale ref0 { noArgs with fixed := 1 }, .contrib ref0 { noArgs with scope := 6 },
      .cred ref0 { noArgs with tb := 1 }, .signal ref0 { noArgs with ta := 1 }, .arrivec ref0 { noArgs with p1 := 0x2000000 },
      .waitc ref0 { noArgs with p1 := 0x10000 }, .gqpost ref0 { noArgs with tc := 1 }] : List Instr).all (fun i => !i.wf) = true := by
  decide

/-- R47 to R52, R12: a site term off the array, or with a source, type, rounding, destination or modifier its operation does not
allow, is ill-formed, one term for each operation. -/
theorem test_wf_refuses_site_terms :
    ([.fadd ⟨5#64, 8, 3⟩ ⟨0, 0, 0, 0x2C, 8, 0, 0⟩, .fadd ⟨5#64, 0, 24⟩ ⟨0, 0, 0, 0x2C, 8, 0, 0⟩,
      .fadd site0 oneSrc, .fsub site0 oneSrc, .fmul site0 ⟨0, 0, 0, 0x2C, 8, 5, 0⟩, .fma site0 ⟨0, 0, 0, 0x2C, 8, 0, 0⟩,
      .fmin site0 ⟨0, 0, 0, 0x2C, 8, 1, 0⟩, .fmax site0 ⟨0, 0, 0, 0, 8, 0, 0⟩, .fabs site0 oneSrc, .fneg site0 oneSrc,
      .frcp site0 ⟨0, 0, 0x2C, 0x2C, 8, 0, 1⟩, .frsq site0 oneSrc, .fexp2 site0 oneSrc, .flog2 site0 oneSrc,
      .fcmp site0 ⟨0, 0, 0, 0x2C, 8, 0, 8⟩, .fclass site0 oneSrc, .fcvt site0 ⟨0, 0, 0x2C, 0x2C, 11, 0, 0x48⟩,
      .hadd2 site0 ⟨0, 0, 0, 0x2C, 8, 0, 0⟩, .hmul2 site0 ⟨0, 0, 0, 0x2C, 11, 0, 0⟩, .hfma2 site0 ⟨0, 0, 0, 0x2C, 9, 0, 0⟩,
      .hdot2 site0 ⟨0, 0, 0, 0x2C, 9, 0, 0⟩, .q8dot4 site0 ⟨0, 0, 0, 0, 0, 0, 1⟩, .lmul site0 ⟨0, 0, 0, 0x2C, 13, 0, 0⟩,
      .lacc site0 ⟨3, 0, 0x2C, 0x2C, 14, 0, 0⟩, .lcvt site0 ⟨0, 0, 0x2C, 0x2C, 8, 0, 2⟩, .iadd site0 ⟨0, 0, 0, 0x2C, 8, 0, 0⟩,
      .isub site0 oneSrc, .imul site0 ⟨0, 0, 0, 0x2C, 2, 0, 1⟩, .imulh site0 oneSrc, .imad site0 ⟨0, 0, 0, 0x2C, 2, 0, 0⟩,
      .imin site0 oneSrc, .imax site0 oneSrc, .iabs site0 oneSrc, .alAnd site0 oneSrc, .alOr site0 oneSrc, .alXor site0 oneSrc,
      .not site0 noSrc, .shl site0 oneSrc, .shr site0 oneSrc, .sar site0 oneSrc, .icmp site0 ⟨0, 0, 0, 0x2C, 2, 0, 6⟩,
      .sel site0 ⟨0, 0, 0, 0, 15, 0, 0⟩, .alPopc site0 noSrc, .alClz site0 noSrc, .hash site0 ⟨0, 0, 0x2C, 0x2C, 6, 0, 0x43E0⟩,
      .rsum site0 ⟨0, 0, 0x2C, 0x2C, 6, 1, 0⟩, .rmax site0 noSrc, .scanl site0 ⟨0, 0, 0x2C, 0x2C, 6, 0, 2⟩,
      .shuf site0 ⟨0, 0, 0, 0x2C, 6, 0, 1⟩, .bcast site0 ⟨0, 0, 0x2C, 0x2C, 15, 0, 0⟩, .iota site0 ⟨0, 0, 0x2C, 0x2C, 6, 0, 0x10000⟩,
      .const site0 oneSrc, .spld site0 ⟨7, 0, 0x2C, 0x2C, 6, 0, 0⟩, .spst site0 ⟨1, 0, 0, 0x2C, 6, 0, 0⟩,
      .spldi site0 ⟨8, 0, 0, 0x2C, 6, 0, 0xC00000⟩, .spatom site0 ⟨8, 0, 0, 0x2C, 6, 0, 0x700000⟩,
      .l1ld site0 ⟨8, 0, 0x2C, 0x2C, 6, 0, 0⟩, .l1st site0 ⟨8, 0, 0, 0x2C, 6, 0, 0x1000000⟩,
      .tld site0 ⟨8, 0, 0x2C, 0x2C, 8, 4, 0x1000000⟩, .tst site0 ⟨0, 0, 0, 0x2C, 8, 0, 0x1000001⟩,
      .park site0 ⟨15, 0, 0x2C, 0x2C, 6, 0, 0x1800000⟩, .scan site0 ⟨3, 0, 0, 0x2C, 6, 0, 0⟩, .coord site0 ⟨0, 0, 0, 0, 6, 0, 0x100⟩,
      .isect site0 ⟨0, 0, 0, 0x2C, 6, 0, 0⟩, .union site0 ⟨0, 8, 8, 0x2C, 6, 0, 0⟩, .repeat site0 ⟨3, 0, 0, 0x2C, 6, 0, 0⟩,
      .reduce site0 ⟨0, 0, 0, 0x2C, 6, 1, 0⟩, .topk site0 ⟨0, 0, 0, 0x2C, 6, 0, 0x80⟩, .spval site0 ⟨0, 0, 0, 0x2C, 6, 0, 0⟩,
      .fork site0 oneSrc, .filter site0 { oneSrc with mods := 2 }, .steer site0 { oneSrc with mods := 16 },
      .merge site0 ⟨1, 0, 8, 0x2C, 6, 0, 1⟩, .recirc site0 ⟨0, 8, 8, 0x2C, 6, 0, 0x10⟩, .compact site0 { oneSrc with mods := 1 },
      .order site0 { oneSrc with mods := 0x10000 }, .mark site0 { oneSrc with mods := 1 }, .dusk site0 { oneSrc with dst := 4 },
      .gate site0 { oneSrc with mods := 3 }, .retire site0 { oneSrc with dst := 1 }, .tagset site0 { oneSrc with mods := 0x20000 }] :
      List Instr).all (fun i => !i.wf) = true := by decide

/-- R12, R14, R311, R327, R374, R379, R384: an event of a unit that does not exist is ill-formed. -/
theorem test_wf_refuses_events :
    ([.roundCountExpiry ⟨5#64, 8, 0⟩, .roundMarker ⟨5#64, 0, 24⟩, .duskToken ⟨5#64, 8, 0⟩, .mbServiceCycle ⟨5#64, 0, 24⟩,
      .l1LineArrival ⟨5#64, 8, 0⟩ 0, .portEmit ⟨5#64, 16⟩, .portRunAhead ⟨5#64, 16⟩, .portElementLanded ⟨5#64, 16⟩ 0 .none,
      .portRecordWrite ⟨5#64, 16⟩, .portIndexRecord ⟨5#64, 16⟩, .doorbellWrite 131072 0, .lapRetry 131072, .packetFetch 131072,
      .pktNop ⟨131072, 0⟩, .pktLaunch ⟨0, 32⟩, .pktCopy ⟨0, 1⟩, .pktBarrier ⟨131072, 64⟩, .pktSignal ⟨0, 63⟩, .pktGuest ⟨0, 65⟩,
      .packetComplete ⟨131072, 0⟩, .hostWrite (2 ^ 49 - 1) [0, 0], .importRefusal 5 0 ⟨0, 8, 4, 5⟩, .importRefusal 5 0 ⟨7, 8, 4, 5⟩,
      .ringPartial 0 0 0 0 ⟨0, 0, 0, List.replicate 65 0⟩, .linkRetrain 48, .guestAccess ⟨2, 0, 0, 4, .read, false, false⟩, .guestAccess ⟨0, 256, 0, 4, .read, false, false⟩,
      .guestAccess ⟨0, 0, 0, 129, .read, false, false⟩, .guestCompletion 2 0, .guestFaultMessage 0 256, .invalidationAck 2 0,
      .guestPreemptAnswer 0 256 .saved, .guestReauthentication 2 ⟨0, 0, []⟩] : List Instr).all (fun i => !i.wf) = true := by decide

/-- R32, R34 to R40: reserved words are refused: major opcodes that are not allocated, functions that are not listed, fields that
are not used and not zero, sub-fields out of range, among them SEXT with size code 3. -/
theorem test_decode_refuses_reserved_words :
    ([0x58000000, 0x5C000000, 0x9C000000, 0xBC000000, 0xC4000000, 0xF8000000, 0x0000000E, 0x04000007, 0x08000018, 0x08000033,
      0x08000043, 0x08000800, 0x08000200, 0x28000040, 0x34001000, 0x3400003F ||| 0xFC0, 0x50000080, 0x5000006E, 0x50000012, 0x7C006000,
      0x7C002000, 0x80000008, 0x80000142, 0x8C000142, 0x8C00000A, 0x90000142, 0x94000162, 0x98000082, 0xA4000002, 0xA8000003,
      0xAC000005, 0xB0000001, 0xFC001000, 0xFC000005, 0xFC004000, 0xFC008001, 0xFC209000] : List Nat).all
      (fun w => (decodeTableWord 32 w).isNone) = true := by decide

/-- R30, R35: the groups 0x00 and 0x01, each field at its own value. -/
theorem test_decode_int :
    ([
      (0x00E84C00, .add 7#5 8#5 9#5 true false),
      (0x00E84C01, .sub 7#5 8#5 9#5 true false),
      (0x00E84C02, .and 7#5 8#5 9#5 true false),
      (0x00E84C03, .or 7#5 8#5 9#5 true false),
      (0x00E84C04, .xor 7#5 8#5 9#5 true false),
      (0x00E84C05, .sll 7#5 8#5 9#5 true false),
      (0x00E84C06, .srl 7#5 8#5 9#5 true false),
      (0x00E84C07, .sra 7#5 8#5 9#5 true false),
      (0x00E84C08, .slt 7#5 8#5 9#5 true false),
      (0x00E84C09, .sltu 7#5 8#5 9#5 true false),
      (0x00E84C0A, .min 7#5 8#5 9#5 true false),
      (0x00E84C0B, .max 7#5 8#5 9#5 true false),
      (0x00E84C0C, .minu 7#5 8#5 9#5 true false),
      (0x00E84C0D, .maxu 7#5 8#5 9#5 true false),
      (0x04E84C00, .mul 7#5 8#5 9#5 true false),
      (0x04E84C01, .mulh 7#5 8#5 9#5 true false),
      (0x04E84C02, .mulhu 7#5 8#5 9#5 true false),
      (0x04E84C03, .div 7#5 8#5 9#5 true false),
      (0x04E84C04, .divu 7#5 8#5 9#5 true false),
      (0x04E84C05, .rem 7#5 8#5 9#5 true false),
      (0x04E84C06, .remu 7#5 8#5 9#5 true false)] : List (Nat × Instr)).all
      (fun p => decide (decodeTableWord 32 p.1 = some p.2)) = true := by decide

/-- R30, R35, R36: the group 0x02, immediates, fields and constants, each field at its own value. -/
theorem test_decode_bit_and_immediate :
    ([
      (0x08E80400, .clz 7#5 8#5 true),
      (0x08E80410, .ctz 7#5 8#5 true),
      (0x08E80420, .popc 7#5 8#5 true),
      (0x08E80432, .sext 7#5 8#5 true 0x2#2),
      (0x08E80441, .zext 7#5 8#5 true 0x1#2),
      (0x08E00050, .mke 7#5),
      (0x08E80060, .full 7#5 8#5),
      (0x0CFFFFF7, .addpc 7#5 0x1FFFF7#21),
      (0x10E8F9B9, .addi 7#5 8#5 true 0x79B9#15),
      (0x14E8F9B9, .andi 7#5 8#5 true 0x79B9#15),
      (0x18E8F9B9, .ori 7#5 8#5 true 0x79B9#15),
      (0x1CE8F9B9, .xori 7#5 8#5 true 0x79B9#15),
      (0x20E8F9B9, .slti 7#5 8#5 true 0x79B9#15),
      (0x24E8F9B9, .sltiu 7#5 8#5 true 0x79B9#15),
      (0x28E88025, .slli 7#5 8#5 true 0x25#6),
      (0x2CE88025, .srli 7#5 8#5 true 0x25#6),
      (0x30E88025, .srai 7#5 8#5 true 0x25#6),
      (0x34E882C8, .bfx 7#5 8#5 true 0xB#6 0x8#6),
      (0x38E88F81, .bfi 7#5 8#5 true 0x3E#6 0x1#6),
      (0x3CFFFFF7, .lih 7#5 0x1FFFF7#21)] : List (Nat × Instr)).all
      (fun p => decide (decodeTableWord 32 p.1 = some p.2)) = true := by decide

/-- R30, R36, R37: loads, stores, fences, branches, jumps, LOOP and PAUSE, each field at its own value. -/
theorem test_decode_memory_and_branch :
    ([
      (0x40E8DFF8, .ld 7#5 8#5 true 0x2#2 0x1FF8#13),
      (0x44E8E010, .lda 7#5 8#5 true 0x3#2 0x10#13),
      (0x4928BFF0, .st 9#5 8#5 true false 0x3#2 0xFF0#12),
      (0x4D288001, .str 9#5 8#5 true false 0x0#2 0x1#12),
      (0x5000006A, .fence true true false true 0x2#3),
      (0x5408FFFF, .flush 8#5 true 0x7FFF#15),
      (0x6128A003, .beq 9#5 8#5 true false 0x2003#14),
      (0x6528A003, .bne 9#5 8#5 true false 0x2003#14),
      (0x6928A003, .blt 9#5 8#5 true false 0x2003#14),
      (0x6D28A003, .bge 9#5 8#5 true false 0x2003#14),
      (0x7128A003, .bltu 9#5 8#5 true false 0x2003#14),
      (0x7528A003, .bgeu 9#5 8#5 true false 0x2003#14),
      (0x78FFFFF7, .jal 7#5 0x1FFFF7#21),
      (0x7CE89FFE, .jalr 7#5 8#5 true 0x1FFE#13),
      (0x7C08B004, .loop 8#5 true 0x1004#13),
      (0x7C005001, .pause 0x1001#13)] : List (Nat × Instr)).all
      (fun p => decide (decodeTableWord 32 p.1 = some p.2)) = true := by decide

/-- R30, R37, R38: the synchronisation opcodes, each field at its own value. -/
theorem test_decode_synchronisation :
    ([
      (0x80E84D32, .atom 7#5 8#5 9#5 true false 0x9#4 true 0x2#3),
      (0x84E84D0A, .atomr 7#5 8#5 9#5 true false 0x21#6 0x2#3),
      (0x88084CF1, .red 8#5 9#5 true false 0x7#4 true 0x1#3),
      (0x8C084C02, .binit 8#5 9#5 true false 0x2#3),
      (0x8C080442, .binv 8#5 true 0x2#3),
      (0x8CE80482, .arrive 7#5 8#5 true 0x2#3),
      (0x8CE84CC2, .testph 7#5 8#5 9#5 true false 0x2#3),
      (0x8CE84D02, .waitph 7#5 8#5 9#5 true false 0x2#3),
      (0x90E84D15, .sigop 7#5 8#5 9#5 true false 0x4#3 true 0x5#3),
      (0x94E84D52, .watch 7#5 8#5 9#5 true false 0xA#4 true 0x2#3),
      (0x98E80412, .futrd 7#5 8#5 true true 0x2#3),
      (0x98084C52, .futwr 8#5 9#5 true false true 0x2#3)] : List (Nat × Instr)).all
      (fun p => decide (decodeTableWord 32 p.1 = some p.2)) = true := by decide

/-- R30, R39, R40: tasks, the calendar, ISSUE and the system group, each field at its own value. -/
theorem test_decode_task_and_system :
    ([
      (0xA0E84C0D, .spawn 7#5 8#5 9#5 true false true 0x5#3),
      (0xA4084C00, .depadd 8#5 9#5 true false),
      (0xA4084C01, .depdec 8#5 9#5 true false),
      (0xA8080400, .done 8#5 true),
      (0xA8004801, .suspend 9#5 false),
      (0xAC084C03, .arm 8#5 9#5 true false 0x3#4),
      (0xB0E84C00, .book 7#5 8#5 9#5 true false),
      (0xB4E80400, .extend 7#5 8#5 true),
      (0xB8080400, .release 8#5 true),
      (0xC0E84C01, .issue 7#5 8#5 9#5 0x401#11),
      (0xFCE00009, .srr 7#5 0x9#12),
      (0xFC084008, .srw 8#5 0x8#12),
      (0xFC009009, .trap 0x9#12),
      (0xA8000002, .yield),
      (0xFC008000, .eret)] : List (Nat × Instr)).all
      (fun p => decide (decodeTableWord 32 p.1 = some p.2)) = true := by decide

/-- R41 to R45: the commands of regions ports and copies; the words of CFG, COPY, CONTRIB, WAITC and MMA are the manual's. -/
theorem test_decode_regions_ports_and_copies :
    ([
      (0x01800000000200010000000400000001, fun k => .cfg k ⟨true, false, false, false, 0, 0, 0, 0, 0x20001, 0x4, 0x1⟩),
      (0x0201400D13891A000000004D00000000, fun k => .pbind k ⟨false, false, false, false, 5, 0, 3, 2, 0x13891A00, 0x4D, 0x0⟩),
      (0x0300003CC8000000000000400000FFFF, fun k => .agaff k ⟨false, false, false, false, 0, 0, 15, 1, 0x48000000, 0x40, 0xFFFF⟩),
      (0x0400001C4200000089ABCDEF00008000, fun k => .agind k ⟨false, false, false, false, 0, 0, 7, 0, 0x42000000, 0x89ABCDEF, 0x8000⟩),
      (0x05000024000000000000000000000000, fun k => .pstart k ⟨false, false, false, false, 0, 0, 9, 0, 0x0, 0x0, 0x0⟩),
      (0x0600000C000000000000000000000000, fun k => .pstop k ⟨false, false, false, false, 0, 0, 3, 0, 0x0, 0x0, 0x0⟩),
      (0x07800000000000000000000000000000, fun k => .pmark k ⟨true, false, false, false, 0, 0, 0, 0, 0x0, 0x0, 0x0⟩),
      (0x080FC001180000000000004000000001, fun k => .tidset k ⟨false, false, false, false, 63, 0, 0, 2, 0x18000000, 0x40, 0x1⟩),
      (0x09084000000000000000000000000000, fun k => .tidclr k ⟨false, false, false, false, 33, 0, 0, 0, 0x0, 0x0, 0x0⟩),
      (0x0A000000400000100000000000000000, fun k => .cbar k ⟨false, false, false, false, 0, 0, 0, 0, 0x40000010, 0x0, 0x0⟩),
      (0x108100158000100000000000000003E8, fun k => .copy k ⟨true, false, false, false, 4, 0, 5, 3, 0x1000, 0x0, 0x3E8⟩),
      (0x114100097FFC00000000008000000040, fun k => .copym k ⟨false, true, false, false, 4, 0, 2, 2, 0x7FFC0000, 0x80, 0x40⟩),
      (0x1220420D000000000000000700000008, fun k => .gather k ⟨false, false, true, false, 1, 2, 3, 2, 0x0, 0x7, 0x8⟩),
      (0x1300C20500000000000000090000000A, fun k => .scatter k ⟨false, false, false, false, 3, 2, 1, 2, 0x0, 0x9, 0xA⟩),
      (0x14018001400098000000000100000002, fun k => .l2push k ⟨false, false, false, false, 6, 0, 0, 2, 0x40009800, 0x1, 0x2⟩),
      (0x15C1C005401406000000008000000100, fun k => .tfetch k ⟨true, true, false, false, 7, 0, 1, 2, 0x40140600, 0x80, 0x100⟩),
      (0x1600000C600000000000000000000000, fun k => .unpin k ⟨false, false, false, false, 0, 0, 3, 0, 0x60000000, 0x0, 0x0⟩)] : List (Nat × (CmdRef → Instr))).all
      (fun p => decide (decodeCmd ⟨5#64, 3⟩ (BitVec.ofNat 128 p.1) = some (p.2 ⟨5#64, 3⟩))) = true := by decide

/-- R41 to R45: the commands of tiles and collectives; the words of CFG, COPY, CONTRIB, WAITC and MMA are the manual's. -/
theorem test_decode_tiles_and_collectives :
    ([
      (0x30020000810000000000000300000004, fun k => .mload k ⟨false, false, false, false, 8, 0, 0, 1, 0x1000000, 0x3, 0x4⟩),
      (0x3102400D09C000000000000300000004, fun k => .mstore k ⟨false, false, false, false, 9, 0, 3, 2, 0x9C00000, 0x3, 0x4⟩),
      (0x32024A0D078000000000000300000004, fun k => .mscale k ⟨false, false, false, false, 9, 10, 3, 2, 0x7800000, 0x3, 0x4⟩),
      (0x3890420E000500090000000000000400, fun k => .contrib k ⟨true, false, false, true, 1, 2, 3, 4, 0x50009, 0x0, 0x400⟩),
      (0x3900400D290000000000000500000006, fun k => .cred k ⟨false, false, false, false, 1, 0, 3, 2, 0x29000000, 0x5, 0x6⟩),
      (0x4000000EC000000000000005FFFFFFFF, fun k => .signal k ⟨false, false, false, false, 0, 0, 3, 5, 0x40000000, 0x5, 0xFFFFFFFF⟩),
      (0x41000019000000000000000501FFFFFF, fun k => .arrivec k ⟨false, false, false, false, 0, 0, 6, 2, 0x0, 0x5, 0x1FFFFFF⟩),
      (0x42000019800000000000000200000000, fun k => .waitc k ⟨false, false, false, false, 0, 0, 6, 3, 0x0, 0x2, 0x0⟩),
      (0x480000011C0000000000004000000002, fun k => .gqpost k ⟨false, false, false, false, 0, 0, 0, 2, 0x1C000000, 0x40, 0x2⟩),
      (0x20804200000080000000000000000000, fun k => .mmaE4m3 k ⟨true, false, false, false, 1, 2, 0, 0, 0x8000, 0x0, 0x0⟩),
      (0x2800C400010000000000000000001000, fun k => .mmazE4m3 k ⟨false, false, false, false, 3, 4, 0, 0, 0x1000000, 0x0, 0x1000⟩),
      (0x21804200000080000000000000000000, fun k => .mmaE5m2 k ⟨true, false, false, false, 1, 2, 0, 0, 0x8000, 0x0, 0x0⟩),
      (0x2900C404010080000000000200001000, fun k => .mmazE5m2 k ⟨false, false, false, false, 3, 4, 1, 0, 0x1008000, 0x2, 0x1000⟩),
      (0x22804200000080000000000000000000, fun k => .mmaBf16 k ⟨true, false, false, false, 1, 2, 0, 0, 0x8000, 0x0, 0x0⟩),
      (0x2A00C408010100000000000400001000, fun k => .mmazBf16 k ⟨false, false, false, false, 3, 4, 2, 0, 0x1010000, 0x4, 0x1000⟩),
      (0x23804200000080000000000000000000, fun k => .mmaF16 k ⟨true, false, false, false, 1, 2, 0, 0, 0x8000, 0x0, 0x0⟩),
      (0x2B00C40C010180000000000600001000, fun k => .mmazF16 k ⟨false, false, false, false, 3, 4, 3, 0, 0x1018000, 0x6, 0x1000⟩),
      (0x24804200000080000000000000000000, fun k => .mmaE2m1 k ⟨true, false, false, false, 1, 2, 0, 0, 0x8000, 0x0, 0x0⟩),
      (0x2C00C400010200000000000800001000, fun k => .mmazE2m1 k ⟨false, false, false, false, 3, 4, 0, 0, 0x1020000, 0x8, 0x1000⟩),
      (0x25804200000080000000000000000000, fun k => .mmaL6 k ⟨true, false, false, false, 1, 2, 0, 0, 0x8000, 0x0, 0x0⟩),
      (0x2D00C404010280000000000A00001000, fun k => .mmazL6 k ⟨false, false, false, false, 3, 4, 1, 0, 0x1028000, 0xA, 0x1000⟩)] : List (Nat × (CmdRef → Instr))).all
      (fun p => decide (decodeCmd ⟨5#64, 3⟩ (BitVec.ofNat 128 p.1) = some (p.2 ⟨5#64, 3⟩))) = true := by decide

/-- R47 to R50: words of number sites; those of FMA, HASH, SPLD, ISECT, FILTER and RECIRC are the manual's. -/
theorem test_decode_number_sites :
    ([
      (0x0200045900000000, fun r => .fadd r ⟨0, 0x0, 0x8, 0x2C, 8, 0, 0x0⟩),
      (0x0420315904000000, fun r => .fsub r ⟨4, 0x1, 0x22, 0x2C, 8, 1, 0x0⟩),
      (0x064BF5D910000000, fun r => .fmul r ⟨9, 0x1F, 0x2B, 0x2C, 8, 4, 0x0⟩),
      (0x0820045300000000, fun r => .fma r ⟨4, 0x0, 0x8, 0x29, 8, 0, 0x0⟩),
      (0x0A4000D900000000, fun r => .fmin r ⟨8, 0x0, 0x1, 0x2C, 8, 0, 0x0⟩),
      (0x0C7800D900000000, fun r => .fmax r ⟨15, 0x0, 0x1, 0x2C, 8, 0, 0x0⟩),
      (0x0E08565900000000, fun r => .fabs r ⟨1, 0x2, 0x2C, 0x2C, 8, 0, 0x0⟩),
      (0x1012165900000000, fun r => .fneg r ⟨2, 0x10, 0x2C, 0x2C, 8, 0, 0x0⟩),
      (0x1218165908000000, fun r => .frcp r ⟨3, 0x0, 0x2C, 0x2C, 8, 2, 0x0⟩),
      (0x142816590C000000, fun r => .frsq r ⟨5, 0x0, 0x2C, 0x2C, 8, 3, 0x0⟩),
      (0x1630165900000000, fun r => .fexp2 r ⟨6, 0x0, 0x2C, 0x2C, 8, 0, 0x0⟩),
      (0x1838165910000000, fun r => .flog2 r ⟨7, 0x0, 0x2C, 0x2C, 8, 4, 0x0⟩),
      (0x1A2000D900000005, fun r => .fcmp r ⟨4, 0x0, 0x1, 0x2C, 8, 0, 0x5⟩),
      (0x1C20165900000000, fun r => .fclass r ⟨4, 0x0, 0x2C, 0x2C, 8, 0, 0x0⟩),
      (0x1E2000D970000038, fun r => .fcvt r ⟨4, 0x0, 0x1, 0x2C, 11, 4, 0x38⟩),
      (0x202000D924000000, fun r => .hadd2 r ⟨4, 0x0, 0x1, 0x2C, 9, 1, 0x0⟩),
      (0x222000D940000000, fun r => .hmul2 r ⟨4, 0x0, 0x1, 0x2C, 10, 0, 0x0⟩),
      (0x2420008520000000, fun r => .hfma2 r ⟨4, 0x0, 0x1, 0x2, 9, 0, 0x0⟩),
      (0x2620008550000000, fun r => .hdot2 r ⟨4, 0x0, 0x1, 0x2, 10, 4, 0x0⟩),
      (0x2820008400000002, fun r => .q8dot4 r ⟨4, 0x0, 0x1, 0x2, 0, 0, 0x2⟩),
      (0x302000D9C0000000, fun r => .lmul r ⟨4, 0x0, 0x1, 0x2C, 14, 0, 0x0⟩),
      (0x322D1659C0000000, fun r => .lacc r ⟨5, 0x28, 0x2C, 0x2C, 14, 0, 0x0⟩),
      (0x3455965900000001, fun r => .lcvt r ⟨10, 0x2C, 0x2C, 0x2C, 8, 0, 0x1⟩)] : List (Nat × (SiteRef → Instr))).all
      (fun p => decide (decodeSite ⟨5#64, 2, 3⟩ (BitVec.ofNat 64 p.1) = some (p.2 ⟨5#64, 2, 3⟩))) = true := by decide

/-- R47 to R50: words of integer sites; those of FMA, HASH, SPLD, ISECT, FILTER and RECIRC are the manual's. -/
theorem test_decode_integer_sites :
    ([
      (0x404013D840000001, fun r => .iadd r ⟨8, 0x0, 0x27, 0x2C, 2, 0, 0x1⟩),
      (0x424000D8C0000000, fun r => .isub r ⟨8, 0x0, 0x1, 0x2C, 6, 0, 0x0⟩),
      (0x444000D840000000, fun r => .imul r ⟨8, 0x0, 0x1, 0x2C, 2, 0, 0x0⟩),
      (0x464000D8C0000000, fun r => .imulh r ⟨8, 0x0, 0x1, 0x2C, 6, 0, 0x0⟩),
      (0x4840008440000000, fun r => .imad r ⟨8, 0x0, 0x1, 0x2, 2, 0, 0x0⟩),
      (0x4A4000D840000000, fun r => .imin r ⟨8, 0x0, 0x1, 0x2C, 2, 0, 0x0⟩),
      (0x4C4000D8C0000000, fun r => .imax r ⟨8, 0x0, 0x1, 0x2C, 6, 0, 0x0⟩),
      (0x4E40165840000001, fun r => .iabs r ⟨8, 0x0, 0x2C, 0x2C, 2, 0, 0x1⟩),
      (0x504000D8C0000000, fun r => .alAnd r ⟨8, 0x0, 0x1, 0x2C, 6, 0, 0x0⟩),
      (0x524000D8C0000000, fun r => .alOr r ⟨8, 0x0, 0x1, 0x2C, 6, 0, 0x0⟩),
      (0x544000D840000000, fun r => .alXor r ⟨8, 0x0, 0x1, 0x2C, 2, 0, 0x0⟩),
      (0x56401658C0000000, fun r => .not r ⟨8, 0x0, 0x2C, 0x2C, 6, 0, 0x0⟩),
      (0x584000D8C0000000, fun r => .shl r ⟨8, 0x0, 0x1, 0x2C, 6, 0, 0x0⟩),
      (0x5A4000D8C0000000, fun r => .shr r ⟨8, 0x0, 0x1, 0x2C, 6, 0, 0x0⟩),
      (0x5C4000D840000000, fun r => .sar r ⟨8, 0x0, 0x1, 0x2C, 2, 0, 0x0⟩),
      (0x5E4000D840000005, fun r => .icmp r ⟨8, 0x0, 0x1, 0x2C, 2, 0, 0x5⟩),
      (0x6040008500000000, fun r => .sel r ⟨8, 0x0, 0x1, 0x2, 8, 0, 0x0⟩),
      (0x62401658C0000000, fun r => .alPopc r ⟨8, 0x0, 0x2C, 0x2C, 6, 0, 0x0⟩),
      (0x64401658C0000000, fun r => .alClz r ⟨8, 0x0, 0x2C, 0x2C, 6, 0, 0x0⟩),
      (0x66501658C000081C, fun r => .hash r ⟨10, 0x0, 0x2C, 0x2C, 6, 0, 0x81C⟩),
      (0x7040165910000000, fun r => .rsum r ⟨8, 0x0, 0x2C, 0x2C, 8, 4, 0x0⟩),
      (0x7240165840000000, fun r => .rmax r ⟨8, 0x0, 0x2C, 0x2C, 2, 0, 0x0⟩),
      (0x74401658C0000001, fun r => .scanl r ⟨8, 0x0, 0x2C, 0x2C, 6, 0, 0x1⟩),
      (0x76401658C000000F, fun r => .shuf r ⟨8, 0x0, 0x2C, 0x2C, 6, 0, 0xF⟩),
      (0x78401658C0000009, fun r => .bcast r ⟨8, 0x0, 0x2C, 0x2C, 6, 0, 0x9⟩),
      (0x7A459658C000FFFF, fun r => .iota r ⟨8, 0x2C, 0x2C, 0x2C, 6, 0, 0xFFFF⟩),
      (0x7C45965900FE0000, fun r => .const r ⟨8, 0x2C, 0x2C, 0x2C, 8, 0, 0xFE0000⟩)] : List (Nat × (SiteRef → Instr))).all
      (fun p => decide (decodeSite ⟨5#64, 2, 3⟩ (BitVec.ofNat 64 p.1) = some (p.2 ⟨5#64, 2, 3⟩))) = true := by decide

/-- R47 to R50: words of bank sparse and flow sites; those of FMA, HASH, SPLD, ISECT, FILTER and RECIRC are the manual's. -/
theorem test_decode_bank_sparse_and_flow_sites :
    ([
      (0x02C83658C0800000, fun r => .spld r ⟨9, 0x1, 0x2C, 0x2C, 6, 0, 0x800000⟩),
      (0x04802158C047FFFF, fun r => .spst r ⟨0, 0x1, 0x2, 0x2C, 6, 0, 0x47FFFF⟩),
      (0x06C02158C0380004, fun r => .spldi r ⟨8, 0x1, 0x2, 0x2C, 6, 0, 0x380004⟩),
      (0x08C00084C0700008, fun r => .spatom r ⟨8, 0x0, 0x1, 0x2, 6, 0, 0x700008⟩),
      (0x0AC01658C19C8005, fun r => .l1ld r ⟨8, 0x0, 0x2C, 0x2C, 6, 0, 0x19C8005⟩),
      (0x0C8000D8C3008000, fun r => .l1st r ⟨0, 0x0, 0x1, 0x2C, 6, 0, 0x3008000⟩),
      (0x0EC000D905860000, fun r => .tld r ⟨8, 0x0, 0x1, 0x2C, 8, 1, 0x1860000⟩),
      (0x108000850E140000, fun r => .tst r ⟨0, 0x0, 0x1, 0x2, 8, 3, 0x2140000⟩),
      (0x12C01658C19A0000, fun r => .park r ⟨8, 0x0, 0x2C, 0x2C, 6, 0, 0x19A0000⟩),
      (0x03000084C0000000, fun r => .scan r ⟨0, 0x0, 0x1, 0x2, 6, 0, 0x0⟩),
      (0x050800D8C00001FF, fun r => .coord r ⟨1, 0x0, 0x1, 0x2C, 6, 0, 0x1FF⟩),
      (0x07000402C0000009, fun r => .isect r ⟨0, 0x0, 0x8, 0x1, 6, 0, 0x9⟩),
      (0x09100558C0000000, fun r => .union r ⟨2, 0x0, 0xA, 0x2C, 6, 0, 0x0⟩),
      (0x0B1000D8C0000000, fun r => .repeat r ⟨2, 0x0, 0x1, 0x2C, 6, 0, 0x0⟩),
      (0x0D1800D90C000000, fun r => .reduce r ⟨3, 0x0, 0x1, 0x2C, 8, 3, 0x0⟩),
      (0x0F0000D90000007F, fun r => .topk r ⟨0, 0x0, 0x1, 0x2C, 8, 0, 0x7F⟩),
      (0x11000084C0000000, fun r => .spval r ⟨0, 0x0, 0x1, 0x2, 6, 0, 0x0⟩),
      (0x03881658C000000A, fun r => .fork r ⟨1, 0x0, 0x2C, 0x2C, 6, 0, 0xA⟩),
      (0x05803658C0000006, fun r => .filter r ⟨0, 0x1, 0x2C, 0x2C, 6, 0, 0x6⟩),
      (0x07931658C000000F, fun r => .steer r ⟨2, 0x18, 0x2C, 0x2C, 6, 0, 0xF⟩),
      (0x09800458C0000001, fun r => .merge r ⟨0, 0x0, 0x8, 0x2C, 6, 0, 0x1⟩),
      (0x0B800458C0000010, fun r => .recirc r ⟨0, 0x0, 0x8, 0x2C, 6, 0, 0x10⟩),
      (0x0D801658C0000000, fun r => .compact r ⟨0, 0x0, 0x2C, 0x2C, 6, 0, 0x0⟩),
      (0x0F801658C000FFFF, fun r => .order r ⟨0, 0x0, 0x2C, 0x2C, 6, 0, 0xFFFF⟩),
      (0x11801658C0000000, fun r => .mark r ⟨0, 0x0, 0x2C, 0x2C, 6, 0, 0x0⟩),
      (0x13981658C0000000, fun r => .dusk r ⟨3, 0x0, 0x2C, 0x2C, 6, 0, 0x0⟩),
      (0x15801658C00000F6, fun r => .gate r ⟨0, 0x0, 0x2C, 0x2C, 6, 0, 0xF6⟩),
      (0x17801658C0000000, fun r => .retire r ⟨0, 0x0, 0x2C, 0x2C, 6, 0, 0x0⟩),
      (0x19801658C001FFFF, fun r => .tagset r ⟨0, 0x0, 0x2C, 0x2C, 6, 0, 0x1FFFF⟩)] : List (Nat × (SiteRef → Instr))).all
      (fun p => decide (decodeSite ⟨5#64, 2, 3⟩ (BitVec.ofNat 64 p.1) = some (p.2 ⟨5#64, 2, 3⟩))) = true := by decide

/-! ## Witnesses: states and operands that meet the hypotheses of the statements -/

/-- For `TwoSourceArithmeticWritesItsResult`, `ImmediateArithmeticWritesItsResult`, `OneSourceArithmeticWritesItsResult`,
`FieldsConstantsAndFullWriteTheirResult` and the branches: full sources, a free destination, the widest field. -/
theorem witness_arithmetic : Ready (withReg stA 2 7) [2, 3] ∧ Ready stA [2, 1] ∧ Free (withReg stA 2 7) 1 ∧
    (63#6 : BitVec 6).toNat + ((0#6 : BitVec 6).toNat + 1) ≤ 64 ∧
    OneSource 1 2 false (.bfx 1 2 false 63 0) (fun x v => v = keepN (x.toNat / 2 ^ (0#6 : BitVec 6).toNat % 2 ^ ((63#6 : BitVec 6).toNat + 1))) ∧
    OneSource 1 2 true (.sext 1 2 true 2) (fun x v => v = keepI ((x.toNat : Int).bmod (2 ^ extBits 2))) := by
  refine ⟨by simp only [Ready]; decide, by simp only [Ready]; decide, by simp only [Free]; decide, by decide, ?_, ?_⟩
  · exact .bfx 63 0 (by decide)
  · exact .sext 2 (by decide)

/-- For `EmptySourcesTrapAndAwaitedRegistersHold`: each way a source or a destination can be empty. -/
theorem witness_empty_registers :
    (CanEnter (withEmpty (withVec stA) 2 false) ∧ (withEmpty (withVec stA) 2 false).cc.full 2 = false ∧
      (withEmpty (withVec stA) 2 false).cc.orphan 2 = true) ∧
    (CanEnter (withEmpty (withVec stA) 3 true) ∧ (withEmpty (withVec stA) 3 true).cc.full 3 = false) ∧
    ((withEmpty stA 2 true).cc.awaited 2 = true ∧ (withEmpty stA 2 true).cc.full 3 = true) ∧
    (Ready (withEmpty stA 1 true) [2, 3] ∧ (withEmpty stA 1 true).cc.awaited 1 = true) := by
  simp only [CanEnter, Ready]; decide

/-- For `BranchesGoWhereTheirConditionSays`: a condition that holds and one that does not. -/
theorem witness_branches : Ready (withReg stA 2 7) [2, 3] ∧ (withReg stA 2 7).reg 3 ≠ (withReg stA 2 7).reg 2 ∧
    stA.reg 2 = stA.reg 3 := by
  simp only [Ready]; decide

/-- For `JumpsLinkAndGo`: an aligned and a misaligned target. -/
theorem witness_jumps : Free stA 1 ∧ Ready (withReg stA 2 0x10008) [2] ∧
    (keepI (((withReg stA 2 0x10008).reg 2).toNat + 4 * (-1#13 : BitVec 13).toInt)).toNat % 4 = 0 ∧
    (keepI (((withReg stA 2 0x10007).reg 2).toNat + 4 * (0#13 : BitVec 13).toInt)).toNat % 4 ≠ 0 ∧ CanEnter (withVec (withReg stA 2 0x10007)) := by
  simp only [Ready, Free, CanEnter]; decide

/-- A context with four loops that end elsewhere, and one whose loops end at the pc. -/
def loopsFull : State := (withVec stA).modCc fun r => { r with loops := List.replicate 4 ⟨0x10000#64, 0x10400#64, 2⟩ }
def loopsHere : State := stA.modCc fun r => { r with loops := [⟨0x10000#64, 0x10000#64, 1⟩, ⟨0xFFF0#64, 0x10000#64, 2⟩] }

/-- For `LoopPushesSkipsOrTraps`: the counts 1, 2^32 − 1, 0 and 2^32, and a full loop stack. -/
theorem witness_loop :
    Ready (withReg stA 2 1) [2] ∧ 0 < ((withReg stA 2 1).reg 2).toNat ∧ ((withReg stA 2 0xFFFFFFFF).reg 2).toNat < 2 ^ 32 ∧
    stA.cc.loops.length < 4 ∧ (∀ e ∈ stA.cc.loops, e.fin ≠ stA.cc.pc) ∧ (stA.reg 2).toNat = 0 ∧ stA.cc.loops = [] ∧
    2 ^ 32 ≤ ((withReg (withVec stA) 2 0x100000000).reg 2).toNat ∧ CanEnter (withReg (withVec stA) 2 0x100000000) ∧
    4 ≤ (withReg loopsFull 2 1).cc.loops.length ∧ CanEnter (withReg loopsFull 2 1) := by
  simp only [Ready, CanEnter]; decide

/-- For `LoopEndsAreCounted`: an entry that goes round behind one that is popped. -/
theorem witness_loop_ends : loopsHere.cc.loops = [⟨0x10000#64, 0x10000#64, 1⟩] ++ ⟨0xFFF0#64, 0x10000#64, 2⟩ :: [] ∧
    loopsHere.cc.pc = 0x10000#64 ∧ (∀ x ∈ stA.cc.loops, x.fin = stA.cc.pc → x.left ≤ 1) := by decide

/-- Two contexts on one core. -/
def runB : Run := { runA with task := 0x100000001#64, ctxn := 1, active := false }
def stAB : State := { stA with cc := { runA with yields := true }, runs := [runB] }

/-- For `PauseYieldAndSwitchShareTheCore`: with and without another context that can issue. -/
theorem witness_switch :
    stAB.cc.task ≠ 0#64 ∧ stAB.cc.active = true ∧ stAB.cc.yields = true ∧ stAB.cc.ctxn < 3 ∧ (∀ x ∈ stAB.runs, x.task ≠ stAB.cc.task) ∧
    (∀ x ∈ stAB.runs, x.fc = stAB.cc.fc → x.ctxn ≠ stAB.cc.ctxn) ∧ residentAt stAB 0 ((stAB.cc.ctxn + 1) % 3) = some runB ∧
    runB.canIssue stAB.cyc = true ∧ (∀ x ∈ stA.runs, x.fc = runA.fc → x.canIssue stA.cyc = false) ∧ (4097#13 : BitVec 13) ≠ 0#13 := by decide

/-- For `SystemRegistersReadAndWrite`: the last fault record word, and the writable registers. -/
theorem witness_system_registers : SysReg stA 0x027#12 0 ∧ Free stA 1 ∧ Ready stA [2] ∧ srWritable 0x012#12 = true ∧
    srWritable 0x008#12 = true := by
  refine ⟨.frec 7 (by decide), ?_⟩
  simp only [Ready, Free]; decide

/-- For `TrapsEnterTheHandler` and `EretReturnsAndRestoresTheLoops`: a handler that can be entered, and one that runs. -/
theorem witness_traps : CanEnter (withVec loopsHere) ∧
    ((withVec stA).modCc fun r => { r with sys := { r.sys with hmode := true } }).cc.sys.hmode = true := by
  simp only [CanEnter]; decide

/-- A task record for the task of `runA`. -/
def recA : TaskRec where
  handle := hA
  st := .running
  prio := 3
  eprio := 3
  fz := false
  strict := false
  res := false
  extn := 1
  ctx := 0
  count := 0
  pc := 0x10000#64
  image := 0#64
  decl := 0#64
  parent := 0#64
  live := 0#32
  ncmd := 0
  cmds := 0#64
  crec := 0#64
  regs := []
  readyAt := 0
  leaseAt := 0
  bookAt := 0
  wakes := 0
  kids := 0
  arms := []
  cent := ⟨true, 0, 0#64⟩
  walk := ⟨[], none, false⟩
  lease := []
  save := none
  area := none
  startC := some 0
/-- A started window of that task. -/
def winA : AlmEnt where
  floor := 0
  made := 0
  st := 2
  dies := 1
  gslot := 0
  gsite := 0
  rgn := false
  handle := hA
  start := 0
  last := 64
  fc := 0
  row0 := 0
  cgo := 0
  hgt := 0
  wid := 0
  ctxn := 0
  tiles := 0
  ports := 0
  l2sh := 0
  seamsh := 0
  lsh := 0
  lkind := 0
  lport := 0
  xlim := 0
def stT : State := { stA with tasks := [(0, recA)], alm := [winA] }

theorem endsAlone_stT : EndsAlone stT := by
  refine ⟨recA, ?_⟩
  decide

/-- For `TrapWithoutHandlerEndsTheTask`: no handler, and a handler that runs. -/
theorem witness_trap_without_handler : stT.cc.sys.tvec = 0#64 ∧ EndsAlone stT ∧
    (let s := stT.modCc fun r => { r with sys := { r.sys with tvec := 4, hmode := true } }
     s.cc.sys.hmode = true ∧ EndsAlone s) := by
  refine ⟨by decide, endsAlone_stT, by decide, recA, ?_⟩
  decide

/-- For `DeferredTrapIsTakenInOrder`: a region fault before a missed promise, and the earliest promise. -/
def dueR : DueTrap := ⟨true, 0, 0x15#64, 1#64, 0, Vector.replicate 8 0#64⟩
def dueP (p : Nat) : DueTrap := ⟨false, p, 0xA#64, keepN p, p, Vector.replicate 8 0#64⟩
def stDue (l : List DueTrap) : State := (withVec stA).modCc fun r => { r with due := l }
theorem witness_deferred :
    (CanEnter (stDue [dueP 3, dueR]) ∧ (stDue [dueP 3, dueR]).cc.ending = none ∧ dueR ∈ (stDue [dueP 3, dueR]).cc.due ∧
      ∀ x ∈ (stDue [dueP 3, dueR]).cc.due, x.region = true → x = dueR) ∧
    (CanEnter (stDue [dueP 4, dueP 3]) ∧ dueP 3 ∈ (stDue [dueP 4, dueP 3]).cc.due ∧
      ∀ x ∈ (stDue [dueP 4, dueP 3]).cc.due, x.region = false ∧ (x ≠ dueP 3 → (dueP 3).prom < x.prom)) := by
  simp only [CanEnter]; decide

/-- A context in which a load into s5 has its value, and one whose MKE cancelled it. -/
def stFlight (live : Bool) : State := stA.modCc fun r =>
  { r.putCell 5 ⟨0#64, false, live⟩ with flights := [⟨0, 5, live, some 9#64⟩], nextId := 1 }
/-- For `LateDeliveryFillsItsRegister`. -/
theorem witness_delivery : ∀ live, (stFlight live).run? (stFlight live).cc.task = some (stFlight live).cc ∧
    ((stFlight live).cc.flights.find? fun g => decide (g.id = 0)) = some ⟨0, 5, live, some 9#64⟩ := by decide

/-- An extent that may only be written. -/
def extW : Extent := ⟨0, false, true, false, 0x200000, 0x1000, [⟨0x200000, 0x1000, 2#8, 1, 0x200000⟩], none⟩

/-- For `LoadsDeliverTheirBytes`, `StoresPutTheirBytes` and `FenceAndFlushOrderAndChangeNothing`: the last double word of the extent,
addressed with a negative offset; nothing out, and an operation on its way. -/
theorem witness_accesses :
    (let s := withReg stA 2 0x210000
     Ready s [2] ∧ Free s 1 ∧ Ready s [2, 3] ∧ addrOf s 2 (-8#13 : BitVec 13) = 0x20FFF8 ∧
     Granted s (addrOf s 2 (-8#13 : BitVec 13)) (2 ^ (3#2 : BitVec 2).toNat) .r extA 0x20FFF8 ∧
     Granted s (addrOf s 2 (-8#12 : BitVec 12)) (2 ^ (3#2 : BitVec 2).toNat) .w extA 0x20FFF8 ∧ s.badAt 0x20FFF8 8 = none ∧ MemoryOk s ∧
     ClearOfBarriers s 0x20FFF8 8 ∧ Unwatched s 0x20FFF8 8 ∧ ccBusy s = false ∧
     covered s.cc.lease (addrOf s 2 (-1#15 : BitVec 15)).toNat 1 .r = .ok extA ∧
     extA.place (addrOf s 2 (-1#15 : BitVec 15)).toNat = .phys 0x20FFFF 3#8) ∧
    (let s := { withReg stA 2 0x200000 with cc := { (withReg stA 2 0x200000).cc with lease := [extW] } }
     Ready s [2] ∧ covered s.cc.lease (addrOf s 2 (0#15 : BitVec 15)).toNat 1 .r = .error 2 ∧
     covered s.cc.lease (addrOf s 2 (0#15 : BitVec 15)).toNat 1 .w = .ok extW ∧
     extW.place (addrOf s 2 (0#15 : BitVec 15)).toNat = .phys 0x200000 2#8) ∧
    ccBusy { stA with cc := { runA with accs := [⟨0, 0x200000#64, 0#64, .flush, false⟩] } } = true := by
  refine ⟨⟨by simp only [Ready]; decide, by simp only [Free]; decide, by simp only [Ready]; decide, by decide, ?_, ?_, by decide,
    by simp only [MemoryOk]; decide, by simp only [ClearOfBarriers]; decide, unwatched_of_empty rfl rfl _ _, by decide, by rfl, by rfl⟩,
    ⟨by simp only [Ready]; decide, by rfl, by rfl, by rfl⟩, by decide⟩
  · exact ⟨by decide, by rfl, by decide, 3#8, by rfl⟩
  · exact ⟨by decide, by rfl, by decide, 3#8, by rfl⟩

/-- For `AccessesThatMayNotGoTouchNothing`: a misaligned access, and an aligned one past the end of the lease. -/
theorem witness_refused_accesses :
    (let s := withReg (withVec stA) 2 0x200001
     CoreAccess s (.ld 1 2 false 3 0) 2 (addrOf s 2 (0#13 : BitVec 13)) (2 ^ (3#2 : BitVec 2).toNat) .r [2] ∧ Ready s [2] ∧
     (addrOf s 2 (0#13 : BitVec 13)).toNat % 8 ≠ 0 ∧ CanEnter s) ∧
    (let s := withReg stT 2 0x210000
     CoreAccess s (.str 3 2 false false 0 0) 2 (addrOf s 2 (0#12 : BitVec 12)) (2 ^ (0#2 : BitVec 2).toNat) .w [2, 3] ∧ Ready s [2, 3] ∧
     (addrOf s 2 (0#12 : BitVec 12)).toNat % 1 = 0 ∧ covered s.cc.lease (addrOf s 2 (0#12 : BitVec 12)).toNat 1 .w = .error 1 ∧ EndsAlone s) := by
  refine ⟨⟨.ld .., by simp only [Ready]; decide, by decide, by simp only [CanEnter]; decide⟩,
    .str .., by simp only [Ready]; decide, by decide, by rfl, recA, ?_⟩
  decide

/-- For `SynchronisationSendsItsOperation`: every instruction that sends an operation, at the first word of the extent. -/
theorem witness_sends :
    (let s := withReg (withReg stA 2 0x200000) 3 0xFFFFFFFF
     Ready s [2, 3, 1] ∧ Free s 1 ∧ (∀ n, n ∈ [4, 8, 64] → (0x200000#64 : W64).toNat % n = 0) ∧
     coveredRW s.cc.lease (0x200000#64 : W64).toNat 40 true true = .ok extA ∧ extA.place (0x200000#64 : W64).toNat = .phys 0x200000 3#8 ∧
     pathRefuses s (extA.place (0x200000#64 : W64).toNat) (2#3 : BitVec 3).toNat true = none ∧ ccBusy s = false ∧
     badIn s extA (0x200000#64 : W64).toNat 40 = none ∧
     (∃ l n z k, Sends s (.atom 1 2 3 false false 8 true 2) l n 2 0x200000 (some 1) z k) ∧
     (∃ l n z k, Sends s (.atom 1 2 3 false false 9 true 2) l n 2 0x200000 (some 1) z k) ∧
     (∃ l n z k, Sends s (.red 2 3 false false 0 true 1) l n 1 0x200000 none z k) ∧
     (∃ l n z k, Sends s (.atomr 1 2 3 false false 63 2) l n 2 0x200000 (some 1) z k) ∧
     (∃ l n z k, Sends s (.sigop 1 2 3 false false 4 false 5) l n 5 0x200000 (some 1) z k) ∧
     (∃ l n z k, Sends s (.binit 2 3 false false 2) l n 2 0x200000 none z k) ∧
     (∃ l n z k, Sends s (.binv 2 false 2) l n 2 0x200000 none z k) ∧
     (∃ l n z k, Sends s (.arrive 1 2 false 2) l n 2 0x200000 (some 1) z k) ∧
     (∃ l n z k, Sends s (.testph 1 2 3 false false 2) l n 2 0x200000 (some 1) z k) ∧
     (∃ l n z k, Sends s (.waitph 1 2 3 false false 2) l n 2 0x200000 (some 1) z k) ∧
     (∃ l n z k, Sends s (.watch 1 2 3 false false 10 true 2) l n 2 0x200000 none z k) ∧
     (∃ l n z k, Sends s (.futrd 1 2 false true 2) l n 2 0x200000 (some 1) z k) ∧
     (∃ l n z k, Sends s (.futwr 2 3 false false true 2) l n 2 0x200000 none z k)) := by
  refine ⟨by simp only [Ready]; decide, by simp only [Free]; decide, by decide, by rfl, by rfl, by decide, by decide, by decide,
    ⟨_, _, _, _, .atom 1 2 3 false false 8 true 2 (by decide) (by decide)⟩, ⟨_, _, _, _, .cas 1 2 3 false false true 2 (by decide)⟩,
    ⟨_, _, _, _, .red 2 3 false false 0 true 1⟩, ⟨_, _, _, _, .atomr 1 2 3 false false 63 2⟩, ⟨_, _, _, _, .sigop 1 2 3 false false 4 false 5⟩,
    ⟨_, _, _, _, .binit 2 3 false false 2 (by decide)⟩, ⟨_, _, _, _, .binv 2 false 2⟩, ⟨_, _, _, _, .arrive 1 2 false 2⟩,
    ⟨_, _, _, _, .testph 1 2 3 false false 2⟩, ⟨_, _, _, _, .waitph 1 2 3 false false 2⟩, ⟨_, _, _, _, .watch 1 2 3 false false 10 true 2⟩,
    ⟨_, _, _, _, .futrd 1 2 false true 2⟩, ⟨_, _, _, _, .futwr 2 3 false false true 2⟩⟩

theorem roomIn_of_lt (d n : Nat) (h : n < 49152) : roomIn d n = true := by
  unfold roomIn; rw [decide_eq_true h]; rfl
/-- No sector with an error in it, no error found. -/
theorem noBad {s : State} (pa n : Nat) (h : s.err.bad = []) : s.badAt pa n = none := by
  unfold State.badAt; rw [h]; rfl
theorem noneHeld (pa : Nat) : ∀ x ∈ ([] : List HomeOp), x.pa ≠ pa := by simp
/-- R228: while few records are held, an engine has room for any operation. -/
theorem room_of_few {s : State} (o : HomeOp) (h : s.vigils.length + s.barWaits.length + s.bars.length < 49152) :
    s.roomFor o = true := by
  have a := List.length_filter_le (fun v : Vigil => decide (homeDie v.pa = o.die)) s.vigils
  have b := List.length_filter_le (fun w : BarWait => decide (homeDie w.pa = o.die)) s.barWaits
  have c := List.length_filter_le (fun b : Bar => decide (homeDie b.pa = o.die)) s.bars
  have e : roomIn o.die (s.entries o.die) = true := roomIn_of_lt _ _ (by unfold State.entries; omega)
  have f : roomIn o.die (s.objects o.die) = true := roomIn_of_lt _ _ (by unfold State.objects; omega)
  unfold State.roomFor
  cases o.kind <;> simp only [e, f, Bool.or_true]

/-- A state in which an operation of the context stands first at its home, and its late producer waits. -/
def stHome (z : Bool) (kind : HomeKind) (mem : List (Nat × Byte)) : State := { stA with
  cc := { runA.putCell 5 ⟨0#64, false, true⟩ with flights := [⟨0, 5, true, none⟩, ⟨1, 6, true, none⟩], nextId := 2 }
  mem := mem
  homes := [⟨homeDie 0x200000, 0x200000, z, true, kind, .cc hA 0⟩] }
theorem firstAtHome (z : Bool) (kind : HomeKind) (mem : List (Nat × Byte)) :
    FirstAtHome (stHome z kind mem) z 0x200000 kind (stHome z kind mem).cc ⟨0, 5, true, none⟩ :=
  ⟨⟨true, [], rfl, room_of_few _ (by show (0 : Nat) < 49152; decide), noBad _ _ rfl⟩, noneHeld _, rfl, by simp [stHome]⟩

/-- The same operation held back at its home, which has room now (R228). -/
def stHeld (kind : HomeKind) : State := { stHome true kind [] with homes := [], heldOps := (stHome true kind []).homes }

/-- For `AtomicsUpdateTheirWordOnce`: an operation the home held, a 32-bit exchange, a 64-bit signal operation, a routine, and ATOM at scope .fc. -/
theorem witness_atomics :
    HeldAtHome (stHeld (.atom 9 1#64 0#64 2)) true 0x200000 (.atom 9 1#64 0#64 2) (stHeld (.atom 9 1#64 0#64 2)).cc ⟨0, 5, true, none⟩ ∧
    FirstAtHome (stHome false (.atom 9 1#64 0#64 2) []) false 0x200000 (.atom 9 1#64 0#64 2) (stHome false (.atom 9 1#64 0#64 2) []).cc
      ⟨0, 5, true, none⟩ ∧ Unwatched (stHome false (.atom 9 1#64 0#64 2) []) 0x200000 4 ∧ MemoryOk (stHome false (.atom 9 1#64 0#64 2) []) ∧
    FirstAtHome (stHome true (.sigop 4 1#64 5) []) true 0x200000 (.sigop 4 1#64 5) (stHome true (.sigop 4 1#64 5) []).cc ⟨0, 5, true, none⟩ ∧
    FirstAtHome (stHome true (.atomr 63 0 1#64) []) true 0x200000 (.atomr 63 0 1#64) (stHome true (.atomr 63 0 1#64) []).cc
      ⟨0, 5, true, none⟩ ∧
    (let s := withReg stA 2 0x20FFFC
     Ready s [2, 3] ∧ Free s 1 ∧ (8#4 : BitVec 4).toNat ≤ 8 ∧ s.cc.task ≠ 0#64 ∧ (s.reg 2).toNat % wordLen false = 0 ∧
     coveredRW s.cc.lease (s.reg 2).toNat (wordLen false) true true = .ok extA ∧ extA.place (s.reg 2).toNat = .phys 0x20FFFC 3#8 ∧
     ccBusy s = false ∧ badIn s extA (s.reg 2).toNat (wordLen false) = none ∧ Unwatched s 0x20FFFC (wordLen false)) := by
  refine ⟨⟨⟨true, rfl, room_of_few _ (by show (0 : Nat) < 49152; decide), noBad _ _ rfl⟩, rfl, by simp [stHeld, stHome]⟩, firstAtHome ..,
    unwatched_of_empty rfl rfl _ _, by simp only [MemoryOk]; decide, firstAtHome .., firstAtHome .., ?_⟩
  exact ⟨by simp only [Ready]; decide, by simp only [Free]; decide, by decide, by decide, by decide, by rfl, by rfl, by decide, by decide,
    unwatched_of_empty rfl rfl _ _⟩

/-- A valid barrier object in its first phase that expects n arrivals. -/
def stBar (kind : HomeKind) (n : Nat) : State :=
  { stHome true kind (memPuts [] 0x200000 (leBytes 8 (2 ^ 63 + 2 * 2 ^ 59 + n))) with bars := [⟨0x200000, false, 0, 0⟩] }
theorem firstAtBar (kind : HomeKind) (n : Nat) :
    FirstAtHome (stBar kind n) true 0x200000 kind (stBar kind n).cc ⟨0, 5, true, none⟩ :=
  ⟨⟨true, [], rfl, room_of_few _ (by show (1 : Nat) < 49152; decide), noBad _ _ rfl⟩, noneHeld _, rfl, by simp [stBar, stHome]⟩

/-- For `BarrierObjectsCountAndAnswer`: a fresh object; an arrival that is not the last and one that is; tokens of the open phase, of
the one before, of the farthest earlier and later phase, and of more than 16 bits; an object that is not valid. -/
theorem witness_barriers :
    (FirstAtHome (stHome true (.binit false 1#32 7 0 0) []) true 0x200000 (.binit false 1#32 7 0 0)
      (stHome true (.binit false 1#32 7 0 0) []).cc ⟨0, 5, true, none⟩ ∧ MemoryOk (stHome true (.binit false 1#32 7 0 0) []) ∧
      (∀ b ∈ (stHome true (.binit false 1#32 7 0 0) []).bars, b.pa ≠ 0x200000) ∧ Unwatched (stHome true (.binit false 1#32 7 0 0) []) 0x200000 40) ∧
    (FirstAtHome (stBar .arrive 2) true 0x200000 .arrive (stBar .arrive 2).cc ⟨0, 5, true, none⟩ ∧ MemoryOk (stBar .arrive 2) ∧
      (stBar .arrive 2).bars.find? (fun b => decide (b.pa = 0x200000)) = some ⟨0x200000, false, 0, 0⟩ ∧ (stBar .arrive 2).barWaits = [] ∧
      barCount (stBar .arrive 2) 0x200000 + 1 < barExpect (stBar .arrive 2) 0x200000 ∧
      barCount (stBar .arrive 1) 0x200000 + 1 = barExpect (stBar .arrive 1) 0x200000 ∧
      barAhead (stBar .arrive 1) 0x200000 < barExpect (stBar .arrive 1) 0x200000) ∧
    (PhaseAnswer (stBar .binv 1) 0x200000 0#64 0#64 ∧ PhaseAnswer (stBar .binv 1) 0x200000 1#64 0#64 ∧
      PhaseAnswer (stBar .binv 1) 0x200000 0xFFFF#64 1#64 ∧ PhaseAnswer (stBar .binv 1) 0x200000 0x8000#64 1#64 ∧
      PhaseAnswer (stBar .binv 1) 0x200000 0x7FFF#64 3#64 ∧ PhaseAnswer (stBar .binv 1) 0x200000 2#64 3#64 ∧
      PhaseAnswer (stBar .binv 1) 0x200000 0x10000#64 3#64 ∧ PhaseAnswer (stHome true .binv []) 0x200000 0#64 2#64 ∧
      FirstAtHome (stBar (.testph 0#64) 1) true 0x200000 (.testph 0#64) (stBar (.testph 0#64) 1).cc ⟨0, 5, true, none⟩ ∧
      FirstAtHome (stBar (.waitph 0#64) 1) true 0x200000 (.waitph 0#64) (stBar (.waitph 0#64) 1).cc ⟨0, 5, true, none⟩) ∧
    (FirstAtHome (stBar .binv 1) true 0x200000 .binv (stBar .binv 1).cc ⟨0, 5, true, none⟩ ∧ (∃ b ∈ (stBar .binv 1).bars, b.pa = 0x200000) ∧
      (stBar .binv 1).vigils = []) := by
  refine ⟨⟨firstAtHome .., by simp only [MemoryOk]; decide, by decide, unwatched_of_empty rfl rfl _ _⟩,
    ⟨firstAtBar .., by simp only [MemoryOk]; decide, by decide, by decide, by decide, by decide, by decide⟩,
    ⟨?_, ?_, ?_, ?_, ?_, ?_, ?_, ?_, firstAtBar .., firstAtBar ..⟩, firstAtBar .., by decide, rfl⟩ <;>
  · simp only [PhaseAnswer]; decide

/-- For `FuturesAndVigilsWake`: a full and an empty word, a write that wakes an entry, a watch that does not hold. -/
theorem witness_futures :
    (FirstAtHome (stHome true .futrd []) true 0x200000 .futrd (stHome true .futrd []).cc ⟨0, 5, true, none⟩ ∧
      wordAt (stHome true .futrd []) true 0x200000 ≠ BitVec.allOnes _) ∧
    wordAt (stHome false .futrd (memPuts [] 0x200000 (List.replicate 4 0xFF#8))) false 0x200000 = BitVec.allOnes _ ∧
    MemoryOk (stHome false .futrd (memPuts [] 0x200000 (List.replicate 4 0xFF#8))) ∧
    (let s := { stHome true (.futwr 7#64) [] with vigils := [⟨1, true, 0x200000, BitVec.allOnes 64, BitVec.allOnes 64, .ccReg hA 1⟩] }
     FirstAtHome s true 0x200000 (.futwr 7#64) s.cc ⟨0, 5, true, none⟩ ∧ ⟨1, 6, true, none⟩ ∈ s.cc.flights ∧ ClearOfBarriers s 0x200000 8 ∧
     (∀ b ∈ s.bars, b.counting = false) ∧ (7#64 : W64).setWidth (wordBits true) ≠ BitVec.allOnes _) ∧
    (Vigil.holds ⟨9, true, 0x200000, BitVec.allOnes 64, 1#64, .task hA⟩ (stHome true (.watch 9 (BitVec.allOnes 64) 1#64) []) = false) := by
  refine ⟨⟨firstAtHome .., by decide⟩, by decide, by simp only [MemoryOk]; decide, ⟨⟨⟨true, [], rfl, room_of_few _ (by decide), noBad _ _ rfl⟩, by decide, rfl, by decide⟩,
    by decide, ?_, by decide, by decide⟩,
    by decide⟩
  simp only [ClearOfBarriers]; decide

/-- For `ScalarEncodeThenDecode`, `ScalarDecodeIsExact` and `CommandAndSiteEncodeThenDecode`: an instruction of each layer. -/
theorem witness_encoding :
    ((Instr.bfx 31 31 true 63 0).wf = true ∧ encodeWord (.bfx 31 31 true 63 0) = some 0x37FF8FC0#32 ∧
      decodeWord 0x37FF8FC0#32 = .ok (.bfx 31 31 true 63 0)) ∧
    ((Instr.pstop ref0 { noArgs with tc := 15 }).wf = true ∧
      encodeCmd (.pstop ref0 { noArgs with tc := 15 }) = some 0x0600003C000000000000000000000000#128 ∧
      decodeCmd ref0 0x0600003C000000000000000000000000#128 = some (.pstop ref0 { noArgs with tc := 15 })) ∧
    ((Instr.fadd site0 ⟨15, 0x28, 0x27, 0x2C, 8, 4, 0⟩).wf = true ∧ site0.ok = true ∧
      encodeSite (.fadd site0 ⟨15, 0x28, 0x27, 0x2C, 8, 4, 0⟩) = some 0x027D13D910000000#64 ∧
      decodeSite site0 0x027D13D910000000#64 = some (.fadd site0 ⟨15, 0x28, 0x27, 0x2C, 8, 4, 0⟩)) := by decide

/-- ADD s3, s4, s5 (R30) placed for the next step. -/
def stFetch : State := stA.withFetchWord 32 0x00642800

/-- The same with a missed promise due. -/
def stFetchDue : State := stFetch.modCc fun r => { r with sys := { r.sys with tvec := 0x10100#64 }, due := [dueP 3] }

/-- For `StepRunsTheFetchedInstructionOrTheNextEvent`: a turn of the control core with and without a due trap, an empty queue of events,
and each kind of input. -/
theorem witness_step :
    (stFetch.dev.st ≠ 4 ∧ stFetch.inputs = [] ∧ stFetch.begin.turn = true ∧ stFetch.cc.task ≠ 0#64 ∧ stFetch.cc.active = true ∧
      stFetch.cc.ending = none ∧ stFetch.cc.due = [] ∧ stFetch.begin.paused stFetch.begin.cc = false ∧
      covered stFetch.cc.lease stFetch.cc.pc.toNat 4 .x = .ok ⟨16, false, false, true, 0x10000, 65536, [⟨0x10000, 65536, 5#8, 1, 0x10000⟩], none⟩ ∧
      Extent.place ⟨16, false, false, true, 0x10000, 65536, [⟨0x10000, 65536, 5#8, 1, 0x10000⟩], none⟩ stFetch.cc.pc.toNat = .phys 0x10000 5#8 ∧
      stFetch.badAt 0x10000 4 = none) ∧
    ({ stFetch with turn := false }.begin.turn = false ∧ { stFetch with turn := false }.begin.work = [] ∧
      { stFetch with turn := false }.begin.rotate.cc.active = true) ∧
    (stFetchDue.begin.cc.due ≠ [] ∧ stFetchDue.begin.cc.sys.hmode = false ∧
      (∃ v, exec (.add 3 4 5 false false) stFetchDue.begin.probe = .next v) ∧
      ∃ rest, decode (memBytes stFetchDue.begin.mem 0x10000 4) = .ok (.add 3 4 5 false false, rest)) ∧
    ({ stFetch with turn := false, work := [.yield] }.begin.work = [.yield]) ∧
    ({ stFetch with inputs := [.event .thermalTrip, .cycles 3, .softError 64, .context 5 0 0] }.inputs =
      .event .thermalTrip :: [.cycles 3, .softError 64, .context 5 0 0]) ∧
    (let s := { stFetch with saveBuf := [⟨3, 7, 100⟩], inputs := [.saveDrained 3] }
     s.saveBuf.find? (fun e => e.fc == 3) = some ⟨3, 7, 100⟩ ∧ s.inputs = .saveDrained 3 :: []) ∧
    (stFetch.mailRoom = false ∧ stFetch.mbox.events.length < 1024) := by
  refine ⟨⟨by decide, by decide, by decide, by decide, by decide, by decide, by decide, by decide, by rfl, by rfl, by decide⟩, by decide,
    ⟨by decide, by decide, ⟨_, rfl⟩, ⟨_, rfl⟩⟩, by decide, by decide, by decide, by decide⟩

/-- R416, R418, R421: two symbols of an HBM granule are found and not corrected; the second attempt of the access succeeded: the event 0x82
waits. R417: one bit of an SRAM word is corrected and logged. -/
theorem test_data_errors :
    (match step { stFetch with inputs := [.dataError ⟨.hbm, 2, 0, 0x40, .access hA 1 false⟩] } with
     | .next t => decide (t.mbox.events = [mbEvent 0x82 0 0x40 0 0 0])
     | _ => false) = true ∧
    (match step { stFetch with inputs := [.dataError ⟨.sram, 1, 2, 0x60, .round hA⟩] } with
     | .next t => decide (t.err.log = [(2, 0x60)] ∧ t.err.corr = 1)
     | _ => false) = true := by decide

/-- R418: an error in a task's kept state ends the task, without a retry. -/
theorem test_kept_state_error_ends_the_task :
    (match step { stT with inputs := [.dataError ⟨.ccWord, 2, 0, 0x40, .kept hA⟩] } with
     | .next t => (t.task? hA).isNone
     | _ => false) = true := by decide

/-- A step runs that ADD: it writes s3 and moves on (R90). -/
theorem test_step_runs_the_placed_word :
    (match step (withReg (withReg stFetch 4 40) 5 2) with
     | .next t => decide (t.reg 3 = 42 ∧ t.cc.pc = 0x10004#64 ∧ t.cyc = 1)
     | _ => false) = true := by decide

/-- For `EveryInstructionAnswersAState` and `EveryStepKeepsTheFormOfMemory`: a stopped package, and a step of one that runs. -/
theorem witness_stopped : { stA with dev := { stA.dev with st := 4 } }.dev.st = 4 ∧ stA.inputs = [] ∧ MemoryOk stFetch ∧
    (∃ t, step stFetch = .next t) := by
  refine ⟨by decide, rfl, by simp only [MemoryOk]; decide, ?_⟩
  match h : step stFetch with
  | .next t => exact ⟨t, rfl⟩
  | .fault f => exact absurd h (by revert f; intro f h; have : (match step stFetch with | .next _ => true | _ => false) = true := by decide
                                   rw [h] at this; cases this)
  | .refused f => exact absurd h (by revert f; intro f h; have : (match step stFetch with | .next _ => true | _ => false) = true := by decide
                                     rw [h] at this; cases this)

/-- A second task that waits for two events. -/
def hB : W64 := 0x100000001#64
def recB : TaskRec := { recA with handle := hB, st := .waiting, count := 2 }
def stTT : State := { stT with tasks := [(0, recA), (1, recB)] }

/-- For `CountsOfTasksAreMoved`: a waiting task, brought to 0 and over the top, and a handle that names none. -/
theorem witness_counts :
    (let s := withReg (withReg stTT 2 hB) 3 0xFFFFFFFF
     Ready s [2, 3] ∧ ccBusy s = false ∧ s.task? (s.reg 2) = some recB ∧ recB.st = .waiting) ∧
    (let s := withReg stTT 2 0x200000001#64
     Ready s [2, 3] ∧ ccBusy s = false ∧ s.task? (s.reg 2) = none) := by
  simp only [Ready]; decide

/-- R250: a template of priority 5, COUNT 0, pc 0x10000, one extent. -/
def tmplBytes : List Byte := wordsBytes [0x1400100000000000#64, 0x10000#64, 0#64, 0x200400#64]
def stSpawn : State := withReg { withVec stT with mem := memPuts [] 0x200000 tmplBytes } 2 0x200000
/-- For `SpawnMakesAChild`: a template that keeps R250 and one that does not, a die with a free record. -/
theorem witness_spawn :
    Ready stSpawn [2, 3] ∧ (stSpawn.reg 2).toNat % 64 = 0 ∧ covered stSpawn.cc.lease (stSpawn.reg 2).toNat 192 .r = .ok extA ∧
    FlatAt extA (stSpawn.reg 2).toNat 192 0x200000 ∧ ccBusy stSpawn = false ∧ badIn stSpawn extA (stSpawn.reg 2).toNat 192 = none ∧
    tmplOk (memWords stSpawn.mem 0x200000 24) = true ∧ crecOk stSpawn (memWords stSpawn.mem 0x200000 24) = true ∧ Free stSpawn 1 ∧
    stSpawn.cc.fc < 48 ∧ stSpawn.cc.task ≠ 0#64 ∧ freeRecord stSpawn (dieOf stSpawn.cc.fc) 0 recordsPerDie = some 1 ∧ CanEnter stSpawn ∧
    tmplOk (memWords (memPuts [] 0x200008 [1#8]) 0x200000 24) = false ∧ ((withReg stSpawn 2 0x200001).reg 2).toNat % 64 ≠ 0 := by
  refine ⟨by simp only [Ready]; decide, by decide, by rfl, flatA _ _ (by decide) (by decide), by decide, by decide, by decide, by decide,
    by simp only [Free]; decide, by decide, by decide, by rfl, by simp only [CanEnter]; decide, by decide, by decide⟩

/-- A table with n entries from a key on. -/
def filled (a : Nat) : Nat → SMap TaskRec
  | 0 => []
  | n + 1 => (a, recB) :: filled (a + 1) n
theorem filled_get (a n k : Nat) (h : a ≤ k) (h' : k < a + n) : (SMap.get? (filled a n) k).isSome = true := by
  induction n generalizing a with
  | zero => omega
  | succ n ih =>
    by_cases e : k = a
    · simp [filled, SMap.get?, e]
    · simpa [filled, SMap.get?, e] using ih (a + 1) (by omega) (by omega)
theorem freeRecord_filled (s : State) (m i n : Nat) (hs : s.tasks = filled 0 m) (h : i + n ≤ m) : freeRecord s 0 i n = none := by
  induction n generalizing i with
  | zero => rfl
  | succ n ih =>
    have := filled_get 0 m i (by omega) (by omega)
    cases hg : SMap.get? (filled 0 m) i with
    | none => rw [hg] at this; cases this
    | some x => simp [freeRecord, hs, hg, ih (i + 1) (by omega)]
/-- For `SpawnMakesAChild`: a die whose records are all taken. -/
theorem witness_spawn_full : freeRecord { stSpawn with tasks := filled 0 65536 } (dieOf stSpawn.cc.fc) 0 recordsPerDie = none :=
  freeRecord_filled _ 65536 0 65536 rfl (by decide)

/-- A waiting COPY of the context whose promise is cycle p. -/
def cmdOf (w : W128) (q : QueueId) (ph : CmdPhase) : Cmd where
  id := 0
  word := w
  queue := q
  phase := ph
  csig := 0#64
  wbar := 0#64
  wtok := 0#64
  pc := 0x10000#64
  carrier := none
  held := false
  tidA := Tid.zero
  tidB := Tid.zero
  tidC := Tid.zero
  wDone := false
  status := 0#2
  ce := 0
  prom := none
  missed := false
  step := 0
  bad := false
  recv := []
  sent := 0
  words := []
def stCopies : State := stT.modCc fun r => { r with
  cmds := [{ cmdOf (packCmd 0x10 noArgs) .copy .waiting with prom := some 700 }], nextId := 1 }
/-- The state of `stBar` with its task and the address of the object in s2. -/
def stArmPh (tok : W64) : State := withReg (withReg { (stBar .binv 1) with homes := [], tasks := [(0, recA)] } 2 0x200000) 3 tok

/-- For `ArmCountsEventsToCome`: one kind of event each, with a task that lives and one that has ended, at the greatest COUNT that may
still grow; each trap; a phase that is open and one that has been left. -/
theorem witness_arm :
    (let s := withReg (withReg { stTT with tasks := [(0, { recA with count := 2 ^ 32 - 2 }), (1, recB)] } 2 hB) 3 1
     Ready s [2, 3] ∧ s.task? s.cc.task = some { recA with count := 2 ^ 32 - 2 } ∧ s.reg 2 ≠ 0#64 ∧ (s.reg 3).toNat = 1 ∧
     { recA with count := 2 ^ 32 - 2 }.count + 1 < 2 ^ 32 ∧ (s.task? (s.reg 2)).isSome = true) ∧
    (let s := withReg (withReg (withVec stT) 2 hB) 3 2
     Ready s [2, 3] ∧ s.task? s.cc.task = some recA ∧ s.reg 2 ≠ 0#64 ∧ (s.reg 3).toNat ≠ 1 ∧ (s.reg 2).toNat % 64 ≠ 0 ∧ CanEnter s) ∧
    (let s := withReg stCopies 3 5
     Ready s [2, 3] ∧ s.task? s.cc.task = some recA ∧ s.reg 2 = 0#64 ∧
     1 = (s.cc.cmds.filter fun c => decide (opCmd c.word = 0x10) && decide (c.phase ≠ .done) &&
       (s.reg 2 == 0#64 || decide (c.prom.map (BitVec.ofNat 64) = some (s.reg 2)))).length ∧ recA.count + min (s.reg 3).toNat 1 < 2 ^ 32 ∧
     recA.count + ((s.reg 3).toNat - recA.wakes) < 2 ^ 32 ∧ recA.count + ((s.reg 3).toNat - recA.kids) < 2 ^ 32) ∧
    (let s := stArmPh 0
     Ready s [2, 3] ∧ s.task? s.cc.task = some recA ∧ (s.reg 2).toNat % 64 = 0 ∧ ccBusy s = false ∧
     coveredRW s.cc.lease (s.reg 2).toNat 40 false false = .ok extA ∧ extA.place (s.reg 2).toNat = .phys 0x200000 3#8 ∧
     PhaseAnswer s 0x200000 (s.reg 3) 0#64 ∧ recA.count + 1 < 2 ^ 32 ∧ PhaseAnswer (stArmPh 0xFFFF) 0x200000 ((stArmPh 0xFFFF).reg 3) 1#64) := by
  refine ⟨by simp only [Ready]; decide, by simp only [Ready, CanEnter]; decide, by simp only [Ready]; decide, by simp only [Ready]; decide,
    by decide, by decide, by decide, by rfl, by rfl, ?_, by decide, ?_⟩ <;>
  · simp only [PhaseAnswer]; decide

/-- Page tables at 0x1000 that map the first GiB where it stands, with every right (R358). -/
def tables : List (Nat × Byte) := memPuts (memPuts [] 0x1000 (leBytes 8 0x2001)) 0x2000 (leBytes 8 0x275)
def ctxA : CtxEnt := ⟨true, 0x1000, 0x5EED#64⟩
theorem memBytes_congr {m m' : List (Nat × Byte)} (a n : Nat) (h : ∀ i, i < n → memByte m (a + i) = memByte m' (a + i)) :
    memBytes m a n = memBytes m' a n := by
  induction n generalizing a with
  | zero => rfl
  | succ n ih =>
    have h0 := h 0 (by omega)
    simp only [Nat.add_zero] at h0
    simp only [memBytes, h0, ih (a + 1) fun i hi => by have := h (i + 1) (by omega); rwa [show a + (i + 1) = a + 1 + i by omega] at this]
/-- What the tables map, in every memory that has their two words. -/
theorem pageAt_tables {m : List (Nat × Byte)} (h3 : memW64 m 0x1000 = 0x2001#64) (h2 : memW64 m 0x2000 = 0x275#64) (va : Nat)
    (u : va < 2 ^ 30) : pageAt m 0x1000 va = .leaf 0 (2 ^ 30) 0 3 0x27#8 := by
  have e3 : 0x1000 + 8 * (va / 2 ^ 39 % 2 ^ 18) = 0x1000 := by omega
  have e2 : 0x2000 + 8 * (va / 2 ^ 30 % 512) = 0x2000 := by omega
  have d : va / 2 ^ 30 * 2 ^ 30 = 0 := by omega
  have f3 : pteFrame 0x2001#64 = 0x2000 := by decide
  simp only [pageAt, e3, h3, f3, e2, h2, leafRes, d]
  rfl
/-- The bytes of the extent are mapped where they stand in every state whose tables are these and whose context table names them. -/
theorem mapped {s : State} (h3 : memW64 s.mem 0x1000 = 0x2001#64)
    (h2 : memW64 s.mem 0x2000 = 0x275#64) (va n : Nat) (l : 0x200000 ≤ va) (u : va + n ≤ 0x210000) : MappedFlat s ctxA va n va := by
  intro m hm i hi
  have same (a : Nat) (ha : a + 8 ≤ 0x200000) : memW64 m a = memW64 s.mem a := by
    simp only [memW64]
    rw [memBytes_congr a 8 fun i hi => hm _ (Or.inl (by omega))]
  refine ⟨0x27#8, ?_⟩
  have hp := pageAt_tables (m := m) (by rw [same _ (by decide), h3]) (by rw [same _ (by decide), h2]) (va + i) (by omega)
  have hv : ¬ (va + i) / 2 ^ 56 = 1 := by omega
  have hw : ¬ 2 ^ 57 ≤ va + i := by omega
  simp only [ctxPlace, ctxA, hv, hw, hp, Nat.sub_zero, Nat.zero_add]
  rfl
def withTables (s : State) : State := { s with mem := tables, ctxs := [(0, ctxA)] }
theorem mapped_tables (s : State) (va n : Nat) (l : 0x200000 ≤ va) (u : va + n ≤ 0x210000) : MappedFlat (withTables s) ctxA va n va :=
  mapped (s := withTables s) (by show memW64 tables _ = _; decide) (by show memW64 tables _ = _; decide) va n l u

/-- The task with a completion record at 0x200040. -/
def recDone : TaskRec := { recA with crec := 0x200040#64, cent := ctxA }
def stDone : State := withTables { stT with tasks := [(0, recDone)] }
/-- A task whose window holds the next reservation too. -/
def stTwo : State := { stT with alm := [winA, { winA with st := 3, start := 100, last := 120 }] }

/-- For `DoneEndsTheTaskAndSuspendKeepsIt`: a task that ends alone, one with a completion record, one with a command; masks above 32
bits and of 17 registers; an open loop; sixteen live registers, COUNT 0 and COUNT 1, a held reservation. -/
theorem witness_done_and_suspend :
    (Ready stT [1] ∧ stT.cc.cmds = [] ∧ ccBusy stT = false ∧ EndsAlone stT ∧ SMap.risesFrom 0 stT.taskGen = true) ∧
    (ccBusy stDone = false ∧ EndsWithRecord stDone 0x200040#64 recDone ∧ recDone.startC = some 0 ∧ MemoryOk stDone ∧
      MappedFlat stDone (stDone.entryOf recDone) (0x200040#64 : W64).toNat 64 0x200040 ∧ Unwatched stDone 0x200040 64) ∧
    stCopies.cc.cmds ≠ [] ∧
    (let s := withReg (withVec stT) 1 0x100000000
     Ready s [1] ∧ bits (s.reg 1) 63 32 ≠ 0 ∧ CanEnter s) ∧
    16 < (liveRegs 0x3FFFE#32).length ∧
    (let s := withReg ((withVec stT).modCc fun r => { r with loops := [⟨0x10000#64, 0x10010#64, 2⟩] }) 1 2
     Ready s [1] ∧ s.cc.loops ≠ [] ∧ CanEnter s ∧ bits (s.reg 1) 63 32 = 0) ∧
    (∀ n ∈ [0, 1], let s := withReg { stTwo with tasks := [(0, { recA with count := n })] } 1 0x1FFFE
     Ready s [1] ∧ s.cc.cmds = [] ∧ bits (s.reg 1) 63 32 = 0 ∧ (liveRegs ((s.reg 1).extractLsb' 0 32)).length = 16 ∧ s.cc.loops = [] ∧
     s.cc.sys.hmode = false ∧ (∀ k, k < 32 → s.cc.full (BitVec.ofNat 5 k) = true) ∧ ccBusy s = false ∧
     s.task? s.cc.task = some { recA with count := n } ∧ (∀ r ∈ s.runs, r.task ≠ s.cc.task) ∧
     (∃ e ∈ s.alm, e.handle = s.cc.task ∧ e.st = 3)) := by
  refine ⟨⟨by simp only [Ready]; decide, by decide, by decide, endsAlone_stT, by decide⟩,
    ⟨by decide, by simp only [EndsWithRecord]; decide, by decide, by simp only [MemoryOk]; decide, mapped_tables _ _ _ (by decide) (by decide),
     unwatched_of_empty rfl rfl _ _⟩, by decide, ?_, by decide, ?_, ?_⟩
  · simp only [Ready, CanEnter]; decide
  · simp only [Ready, CanEnter]; decide
  · simp only [Ready]; decide

/-- The state with a reservation descriptor at 0x200000 (R274): n slots. -/
def stBook (n : Nat) : State := withReg { withVec stT with mem := memPuts [] 0x200000 (leBytes 8 n) } 2 0x200000
def reqA (s : State) (floor : Nat) : Req :=
  let desc := readDesc (memWords s.mem 0x200000 8)
  ⟨s.cc.task, true, max floor (s.slot + 1), s.cyc, desc, winOf desc (ownCycles s), s.cc.region.hdr⟩

/-- For `BookExtendAndReleaseActOnTheCalendar`: an extension to the last slot that may be held and one past it; a BOOK that finds a
place, one that does not, a descriptor without a length, a second reservation; RELEASE of the window, of a held start, with a region
command accepted, of another value. -/
theorem witness_calendar :
    (let e := { winA with last := 16382 }
     let s := withReg { stT with alm := [e] } 2 1
     Ready s [2] ∧ Free s 1 ∧ Started s e ∧ CanExtend s e (s.reg 2).toNat ∧ ¬ CanExtend s e 2 ∧ ¬ CanExtend s e 0) ∧
    (let s := stBook 10
     Ready s [2, 3] ∧ Free s 1 ∧ Granted s (s.reg 2) 64 .r extA 0x200000 ∧ FlatAt extA (s.reg 2).toNat 64 0x200000 ∧
     badIn s extA (s.reg 2).toNat 64 = none ∧ descOk s (handleDie s.cc.task) (reqA s 0).desc s.cc.region.hdr (reqA s 0).win = true ∧
     heldEnt s s.cc.task = none ∧ (placeReq s (reqA s 0)).map (·.start) = some 1 ∧ placeReq s (reqA s 16385) = none) ∧
    (let s := stBook 0
     descOk s (handleDie s.cc.task) (reqA s 0).desc s.cc.region.hdr (reqA s 0).win = false ∧ CanEnter s) ∧
    heldEnt stTwo stTwo.cc.task ≠ none ∧
    (let s := withReg stT 2 (BitVec.allOnes 64)
     Ready s [2] ∧ Started s winA ∧ heldEnt s s.cc.task = none ∧ s.reg 2 = BitVec.allOnes 64 ∧ ∀ c ∈ s.cc.cmds, c.queue.booked = false) ∧
    (let s := withReg stTwo 2 100
     Ready s [2] ∧ heldEnt s s.cc.task = some { winA with st := 3, start := 100, last := 120 } ∧ s.reg 2 = keepN 100) ∧
    (let s := stT.modCc fun r => { r with cmds := [cmdOf (packCmd 0x07 noArgs) .region .waiting] }
     ∃ c ∈ s.cc.cmds, c.queue.booked = true ∧ s.reg 2 = 0#64) ∧
    (let s := withReg stTwo 2 99
     (∀ e, heldEnt s s.cc.task = some e → s.reg 2 ≠ keepN e.start) ∧ s.reg 2 ≠ 0#64 ∧ s.reg 2 ≠ BitVec.allOnes 64) := by
  refine ⟨?_, ⟨by simp only [Ready]; decide, by simp only [Free]; decide, ⟨by decide, by rfl, by decide, 3#8, by rfl⟩,
    flatA _ _ (by decide) (by decide), by decide, by decide, by decide, by decide +kernel, by decide +kernel⟩, ⟨by decide, by simp only [CanEnter]; decide⟩,
    by decide, by simp only [Ready, Started]; decide, by simp only [Ready]; decide, by decide, ?_, by decide⟩
  · simp only [Ready, Free, Started, CanExtend]; decide
  · intro e h
    have : heldEnt (withReg stTwo 2 99) (withReg stTwo 2 99).cc.task = some { winA with st := 3, start := 100, last := 120 } := by rfl
    rw [this] at h
    cases h
    decide

/-- A granted window of another task, not yet begun, of n slots from a slot on. -/
def winB (start last : Nat) : AlmEnt := { winA with st := 1, handle := hB, start := start, last := last, ctxn := 1 }
def reqB (win : Nat) : Req := ⟨hB, false, 1, 0, { readDesc [] with win := win }, win, none⟩
def stPass (win : Nat) : State := { stTT with reqs := [reqB win] }
/-- For `PassesMoveGrantsOnlyEarlier`: a grant that can move, one request that fits, one that fits nowhere. -/
theorem witness_passes :
    (∃ e ∈ { stTT with alm := [winA, winB 50 60] }.alm, e.st = 1) ∧
    ((stPass 10).reqs = [reqB 10] ∧ (stPass 10).claim = none ∧ (∀ e ∈ (stPass 10).alm, e.st ≠ 1) ∧
      (placeReq (stPass 10) (reqB 10)).isSome = true) ∧
    placeReq (stPass 16385) (reqB 16385) = none := by
  refine ⟨by decide, ⟨by decide, by decide, by decide, by decide +kernel⟩, by decide +kernel⟩

/-- A ready task whose declaration at 0x200000 gives a window of 10 slots and no extents. -/
def recW : TaskRec := { recB with st := .ready, count := 0, decl := 0x200000#64, pc := 0x201000#64, extn := 0 }
def stWalk : State := { stT with mem := memPuts tables 0x200000 (leBytes 8 10), ctxs := [(0, ctxA)], tasks := [(0, recA), (1, { recW with pc := 0x1000#64 })] }
/-- A booking task at its start slot, on a core that is free. -/
def stStart : State := { State.reset with
  dev := { DevInfo.reset with st := 2 }, tasks := [(1, { recB with st := .booking, live := 6#32, regs := [5#64, 6#64] })],
  alm := [{ winB 0 5 with ctxn := 0 }], ctxs := [(0, ctxA)] }

/-- For `TasksAgeAreLeasedAndDispatched`: a ready task, one with a declaration and code page that walk, one with an invalid context, a
grant whose slot has come. -/
theorem witness_aging_walk_and_dispatch :
    (∃ x, SMap.get? stWalk.tasks 1 = some x ∧ x.st = .ready) ∧
    (let x := { recW with pc := 0x1000#64 }
     let u := { stWalk with ctxs := SMap.ins stWalk.ctxs x.ctx ctxA }
     [0, 1, 2, 3].findSome? (nextWalk stWalk) = some x ∧ stWalk.task? x.handle = some x ∧ SMap.get? stWalk.ctxs x.ctx = some ctxA ∧
     ctxA.valid = true ∧ x.image = 0#64 ∧ x.st = .ready ∧ stWalk.mbox.taking = none ∧ heldEnt stWalk x.handle = none ∧
     ctxWords u x.ctx (x.decl.toNat + 64) (2 * x.extn) = some [] ∧ ctxMapped u x.ctx x.cmds.toNat .r (16 * x.ncmd) = true ∧
     (∃ lease, walkRest stWalk.mem ctxA.root x.pcNow ((List.range x.extn).map fun k => readExtent k (tw [] (2 * k)) (tw [] (2 * k + 1))) [] = .ok lease ∧
       lease.length = 1) ∧
     ∃ ws, ctxWords u x.ctx x.decl.toNat 8 = some ws ∧ descOk stWalk (handleDie x.handle) (readDesc ws) none (readDesc ws).win = true) ∧
    (let s := { stTT with tasks := [(0, recA), (1, recW)] }
     [0, 1, 2, 3].findSome? (nextWalk s) = some recW ∧ s.task? recW.handle = some recW ∧ (∀ c, SMap.get? s.ctxs recW.ctx = some c → c.valid = false) ∧
     recW.crec = 0#64 ∧ SMap.risesFrom 0 s.tasks = true ∧ (∀ e ∈ s.tasks, e.2.arms = []) ∧ recW.parent = 0#64) ∧
    (∃ e x, stStart.alm.find? (fun e => decide (e.st = 1 ∧ e.start ≤ stStart.slot) && (residentAt stStart e.fc e.ctxn).isNone) = some e ∧
      stStart.task? e.handle = some x ∧ stStart.run? e.handle = none ∧ x.save = none ∧ x.image = 0#64 ∧
      SMap.risesFrom 0 stStart.allow = true) := by
  refine ⟨⟨_, rfl, rfl⟩, ⟨by decide, by decide, by decide, by decide, by decide, by decide, by decide, by decide, by rfl, by decide,
    ⟨_, by rfl, by rfl⟩, ⟨_, by rfl, by decide⟩⟩, ⟨by decide, by decide, ?_, by decide⟩, ⟨_, _, rfl, rfl, by decide⟩⟩
  intro c h; cases h

/-- For `WindowsEndAndContextsAreSaved`: the last slot over, with slots to grow by, with none, and with 64 that do not fit; a held
reservation whose slot has come; a preemption of a context without commands. -/
theorem witness_windows :
    (∀ a ∈ [0, 64], let s := { stT with cyc := 65 * 64, allow := if a = 0 then [] else [(handleKey hA, a)] }
      s.alm.find? (fun e => decide (e.st = 2 ∧ e.last < s.slot) && !s.overrun.contains e.handle) = some winA ∧
      SMap.get 0 s.allow (handleKey winA.handle) = a ∧ (a = 0 ∨ fits s (s.alm.erase winA) (s.claim.map (·.ent)) winA 66 129 = true) ∧
      SMap.risesFrom 0 s.allow = true) ∧
    (let s := { stTwo with cyc := 100 * 64 }
     s.alm.find? (fun e => decide (e.st = 3 ∧ e.start ≤ s.slot)) = some { winA with st := 3, start := 100, last := 120 }) ∧
    (let s := stT.modCc fun r => { r with preempt := true }
     s.run? hA = some s.cc ∧ s.task? hA = some recA ∧ s.cc.preempt = true ∧ s.cc.ending = none ∧ s.cc.region.running = false ∧ s.cc.cmds = [] ∧
     hA ∉ s.overrun ∧ s.cc.task = hA ∧ (∀ q ∈ s.runs, q.task ≠ hA) ∧ s.saveBuf.filter (fun e => e.fc = s.cc.fc) = [] ∧
     (let u := { s with saveBuf := [⟨s.cc.fc, 5, 2097152⟩] }
      2097152 < ((u.saveBuf.filter fun e => e.fc = u.cc.fc).map (·.bytes)).sum + saveBytes u.cc)) := by decide

/-- An image at 0x200000 (R51, R289): two stages of 100 and 50 cycles, one row of one column group; stage 0 has RETIRE at (0, 5), stage 1 has
no site. -/
def imageBytes : List Byte :=
  wordsBytes [0x000020014D495A53#64, 0#64, 0#64, 0x20#64, 0#64, 0#64, 0x0000006800000040#64, 0x0000000400000048#64] ++
  leBytes 4 100 ++ leBytes 4 50 ++
  wordsBytes [0x40#64, 0x0510000000000000#64, (encodeSite (.retire site0 oneSrc)).getD 0#64, 1#64]
def stImage : State := { stT with mem := memPuts tables 0x200000 imageBytes, ctxs := [(0, ctxA)] }

/-- A state whose context has one command, in a phase, with number 0. -/
def stCmd (w : W128) (q : QueueId) (ph : CmdPhase) (f : Cmd → Cmd) : State :=
  stT.modCc fun r => { r with cmds := [f (cmdOf w q ph)], nextId := 1, flights := [⟨0, 5, true, none⟩] }
def k0 : CmdRef := ⟨hA, 0⟩
/-- A CBAR of all queues, at index 3 of the command memory. -/
def stIssue (w : W128) : State := (withVec stT).modCc fun r => { r with cmdMem := [(3, w)] }
def wCbar : W128 := packCmd 0x0A noArgs
def wTidset : W128 := packCmd 0x08 { noArgs with ta := 5 }

/-- For `IssueAcceptsPatchedCommands`: a CBAR that passes every check; a word of no opcode; a TIDSET behind a TIDSET of its entry; a full
queue. -/
theorem witness_issue :
    (let s := stIssue wCbar
     let w := patchedWord s 0 0 3
     Ready s [0, 0] ∧ Free s 1 ∧ Accepted s 3 w ∧ atAcceptance (opCmd w) (unpackCmd w) = false ∧ opCmd w ≠ 0x07) ∧
    (cmdStaticOk (opCmd (patchedWord (stIssue 0#128) 0 0 3)) (unpackCmd (patchedWord (stIssue 0#128) 0 0 3)) = false ∧ CanEnter (stIssue 0#128) ∧
      opCmd (patchedWord (stIssue 0#128) 0 0 3) ≠ 0x48) ∧
    (let s := stIssue (packCmd 0x48 { noArgs with fixed := 0x4000000#31 })
     let w := patchedWord s 0 0 3
     opCmd w = 0x48 ∧ (unpackCmd w).fld 90 90 = 1 ∧ (s.guest ((unpackCmd w).fld 90 90)).present = false ∧ CanEnter s) ∧
    (let s := (stIssue wTidset).modCc fun r => { r with cmds := [cmdOf wTidset .tid .started] }
     let w := patchedWord s 0 0 3
     let x := unpackCmd w
     cmdStaticOk (opCmd w) x = true ∧ x.ff = false ∧ flagRegsOk s.cc x = true ∧ s.cc.relCur = false ∧ opCmd w ≠ 0x48 ∧
     s.cc.tidBusy (tidsNamed (opCmd w) x) = true) ∧
    (let s := (stIssue wTidset).modCc fun r => { r with cmds := (List.range 16).map fun i =>
        { cmdOf (packCmd 0x08 { noArgs with ta := 6 }) .tid .waiting with id := i } }
     let w := patchedWord s 0 0 3
     let x := unpackCmd w
     cmdStaticOk (opCmd w) x = true ∧ x.ff = false ∧ x.fs = false ∧ flagRegsOk s.cc x = true ∧ s.cc.relCur = false ∧ opCmd w ≠ 0x48 ∧
     s.cc.tidBusy (tidsNamed (opCmd w) x) = false ∧ entryOk s (opCmd w) x = true ∧ 16 ≤ (s.cc.inQueue (queueOf (opCmd w) x)).length) := by
  refine ⟨⟨by simp only [Ready]; decide, by simp only [Free]; decide,
    ⟨by decide, by decide, .inl (by decide), by decide⟩, by decide, by decide⟩, ⟨by decide, by simp only [CanEnter]; decide, by decide⟩,
    ⟨by decide, by decide, by decide, by simp only [CanEnter]; decide⟩, by decide, by decide⟩

/-- For `CommandsStartCompleteAndFollow`: a command that may start, one that is done, a carrier that has landed, a promise that has
passed and one that has not. -/
theorem witness_commands :
    (let s := stCmd wCbar .barrier .waiting id
     let r := s.cc
     let c := cmdOf wCbar .barrier .waiting
     s.run? k0.task = some r ∧ r.cmd? k0.id = some c ∧ (∀ d ∈ r.cmds, d.id = k0.id → d = c) ∧ c.phase = .waiting ∧ r.ending = none ∧
     r.heads c = true ∧ r.barred c c.queue = false ∧ startGuard s r c = true ∧ (∀ a ∈ r.accs, c.id < a.id) ∧ c.args.fw = false ∧
     c.op ≠ 0x10 ∧ c.op ≠ 0x48 ∧ (decodeCmd k0 c.word).isSome = true) ∧
    (let c := cmdOf (packCmd 0x40 noArgs) .sync .done
     let s := stCmd c.word .sync .done id
     s.run? k0.task = some s.cc ∧ s.cc.cmd? k0.id = some c ∧ c.phase = .done ∧ c.args.fs = false ∧ s.cc.ending = none ∧
     (∀ d ∈ s.cc.cmds, d.carrier ≠ some c.id ∧ c.carrier ≠ some d.id) ∧ c.op ≠ 0x10 ∧ c.queue = .sync ∧
     ∃ f ∈ s.cc.flights, f.id = k0.id ∧ f.val = none ∧ ∀ g ∈ s.cc.flights, g.id = k0.id → g = f) ∧
    (let s := stCmd (packCmd 0x15 { noArgs with ff := true }) (.tileFetch 0) .started fun c => { c with step := 1 }
     ∃ c, s.cc.cmd? k0.id = some c ∧ c.step = 1) ∧
    (∀ cyc ∈ [700, 701], let s := { stCmd (packCmd 0x10 noArgs) .copy .started (fun c => { c with prom := some 700 }) with cyc := cyc }
      ∃ c, s.cc.cmd? k0.id = some c ∧ c.prom = some 700 ∧ c.missed = false ∧ (cyc = 701 ↔ 700 < s.cyc)) := by
  refine ⟨by decide, by decide, ⟨_, rfl, rfl⟩, ?_⟩
  intro cyc h
  refine ⟨_, rfl, rfl, rfl, ?_⟩
  show cyc = 701 ↔ 700 < cyc
  simp only [List.mem_cons, List.not_mem_nil, or_false] at h
  omega

/-- The extent of `runA` by its number. -/
theorem inExtA {s : State} {r : Run} (hl : r.lease = runA.lease) (he : r.extn = 1) (off n : Nat) (right : Right)
    (h : covered runA.lease (0x200000 + off) n right = .ok extA) (hb : badIn s extA (0x200000 + off) n = none) (u : off + n ≤ 0x10000) :
    InExt s r 0 off n right (0x200000 + off) := by
  refine ⟨extA, extA, ?_, ?_, flatA (0x200000 + off) _ (by omega) (by omega), fun _ => hb⟩
  · rw [hl, he]; rfl
  · rw [hl]; exact h

/-- For `PortCommandsSetUpStreams`: each command started; a started writing port of a running stage; a CBAR with and without an earlier
masked command. -/
theorem witness_port_commands :
    (∀ p ∈ [(0x02, QueueId.port 15), (0x03, .port 15), (0x04, .port 15), (0x05, .port 15), (0x06, .port 15), (0x0A, .barrier)],
      let s := stCmd (packCmd p.1 { noArgs with tc := 15 }) p.2 .started id
      s.running? k0 = some (s.cc, cmdOf (packCmd p.1 { noArgs with tc := 15 }) p.2 .started) ∧ s.cc.ending = none ∧ s.cc.region.running = false) ∧
    (let s := stCmd (packCmd 0x03 noArgs) (.port 0) .started id
     InExt s s.cc (noArgs.fld 94 91) noArgs.off48 64 .r 0x200000) ∧
    (let s := (stCmd (packCmd 0x06 noArgs) (.port 0) .started id).modCc fun r =>
       { r with ports := [(0, { Port.unbound with mode := 2, started := true })], region := { r.region with running := true } }
     (∃ c, s.running? k0 = some (s.cc, c)) ∧ s.cc.region.running = true ∧ (s.cc.port 0).started = true ∧ (s.cc.port 0).mode = 2) ∧
    (let c := { cmdOf wCbar .barrier .started with id := 1 }
     let s := stT.modCc fun r => { r with cmds := [cmdOf (packCmd 0x10 noArgs) .copy .waiting, c] }
     s.running? ⟨hA, 1⟩ = some (s.cc, c) ∧ ∃ d ∈ s.cc.cmds, d.id < c.id ∧ cbarMasks noArgs d.queue = true) := by
  refine ⟨by decide, inExtA rfl rfl 0 64 .r (by rfl) (by decide) (by decide), ⟨⟨_, rfl⟩, rfl, rfl, rfl⟩, rfl, by decide⟩

/-- What the image reads as. -/
def hdrImage : ImageHdr where
  base := 0x200000
  scope := 0
  stages := 2
  height := 1
  width := 1
  ports := 0
  tiles := 0
  link := 0
  l2sh := 0
  shadow := 16384
  round := 4096
  tids := 0#64
  sites := 32
  length := 104
  stab := 64
  nwords := 4
  slist := 72
def stagesImage : List (List Blk) := [[⟨0, 5, [0x17801658c0000000#64], [], []⟩], []]
/-- A CFG of the image's stage 0 or 1, for n passes. -/
def argsCfg (stage n : Nat) : CmdArgs := { noArgs with fixed := BitVec.ofNat 31 (stage * 2 ^ 16 + n), p0 := 1, p1 := 1 }
def stCfg (stage n : Nat) : State :=
  { stImage with cc := { (stCmd (packCmd 0x01 (argsCfg stage n)) .region .started id).cc with
      region := { Region.reset with hdr := some hdrImage } } }
theorem image_loads : loadImage stImage 0 0x200000 = some (hdrImage, [100, 50], stagesImage) := by decide +kernel
theorem ctxBytes_congr {s t : State} (hm : s.mem = t.mem) (hc : s.ctxs = t.ctxs) (ctx va : Nat) (right : Right) (n : Nat) :
    ctxBytes s ctx va right n = ctxBytes t ctx va right n := by
  induction n generalizing va with
  | zero => rfl
  | succ n ih => simp only [ctxBytes, ctxAddr, hm, hc, ih]
theorem image_congr {s t : State} (hm : s.mem = t.mem) (hc : s.ctxs = t.ctxs) (ctx a : Nat) : loadImage s ctx a = loadImage t ctx a := by
  simp only [loadImage, ctxWords, stageCycles, ctxBytes_congr hm hc]
theorem sites_load : siteList stImage 0 hdrImage = stagesImage := by decide +kernel
theorem siteList_congr {s t : State} (hm : s.mem = t.mem) (hc : s.ctxs = t.ctxs) (ctx : Nat) (hd : ImageHdr) : siteList s ctx hd = siteList t ctx hd := by
  simp only [siteList, ctxWords, ctxBytes_congr hm hc]
/-- An entry of a vector of 16 f32 elements at the start of extent 0 (R78). -/
def tidVecA : Tid := vec8 [0x9000000000000000#64, 0x0000000100000010#64, 0x0000000100000001#64]
/-- For `TensorEntriesAndStagesAreLoaded`: an entry that keeps R79 and one that does not; a stage of no pass, one that runs, one without
sites. -/
theorem witness_tids_and_stages :
    (let s := { stCmd (packCmd 0x08 noArgs) .tid .started id with mem := memPuts [] 0x200000 (wordsBytes tidVecA.toList) }
     s.running? k0 = some (s.cc, cmdOf (packCmd 0x08 noArgs) .tid .started) ∧ s.cc.ending = none ∧ tidOk (entryAt s 0x200000) = true ∧
     SMap.risesFrom 0 s.cc.tids = true ∧ tidOk (entryAt stT 0x200000) = false) ∧
    (∀ st n : Nat, siteList (stCfg st n) (stCfg st n).cc.ctx hdrImage = stagesImage) ∧
    (∀ st n : Nat, loadImage (stCfg st n) (stCfg st n).cc.ctx hdrImage.base = some (hdrImage, [100, 50], stagesImage)) ∧
    (∀ st ∈ [0, 1], ∀ n ∈ [0, 1], let s := stCfg st n
      let c := cmdOf (packCmd 0x01 (argsCfg st n)) .region .started
      let l := loadedRun k0 c s.cc hdrImage stagesImage
      s.running? k0 = some (s.cc, c) ∧ s.cc.region.hdr = some hdrImage ∧ hdrImage.width ≤ 4 ∧ s.cc.region.resume = false ∧ c.queue = .region ∧
      s.cc.ending = none ∧ firstBadRoute l hdrImage = none ∧ stageOk l = decide (st = 0) ∧ c.args.p0 = 1#32 ∧ c.args.p1 = 1#32 ∧
      c.args.fld 79 64 = n) :=
  ⟨by decide, fun st n => (siteList_congr (s := stCfg st n) (t := stImage) rfl rfl 0 hdrImage).trans sites_load,
    fun st n => (image_congr (s := stCfg st n) (t := stImage) rfl rfl 0 0x200000).trans image_loads, by decide⟩

/-- A context whose region runs with one site. -/
def stSite (st : Site) : State :=
  stT.modCc fun r => { r with region := { Region.reset with hdr := some { hdrImage with height := 8, width := 4, ports := 0xFFFF }, running := true, cfg := some 0, sites := [(st.key, st)] } }
/-- A site with its words and input queues. -/
def siteOf (row col : Nat) (words : List W64) (ins : List (List Msg)) : Site where
  row := row
  col := col
  words := words
  consts := [7#32, 9#32, 11#32, 13#32, 15#32, 17#32, 19#32, 21#32]
  routes := []
  ins := ins
  core := { SiteCore.reset with gens := List.replicate 16 5#32, la := List.replicate 16 3#64 }
  snaps := []
  al := none
  mb := none
  rnd := 0
  fin := false
  seen := []
def recOf (l : List W32) : Rec := ⟨l, 0#16, none⟩
def bundleOf (l : List (Option Rec)) : Bundle := ⟨l ++ List.replicate (16 - l.length) none, 0, []⟩
def wordsOf (l : List Instr) : List W64 := l.map fun i => (encodeSite i).getD 0#64
def q4 : Rec := recOf [3#32, 0x3C003C00#32, 5#32, 9#32]
def aAl : SiteRef := ⟨hA, 2, 7⟩
/-- An arithmetic site with one word twice, and a bundle at each of its inputs; and the same with the bundle in hand. -/
def stAlIn (i : Instr) : Site := siteOf 2 7 (wordsOf [i, i]) [[.data (bundleOf [some q4, none, some q4])], [.data (bundleOf [some q4])], [], []]
def alHand (i : Instr) : AlWork := startAl (stAlIn i).takeHeads.2 (stAlIn i).takeHeads.1
def stAlHand (i : Instr) : Site := { (stAlIn i).takeHeads.2 with al := some (alHand i) }
def xAl (ty : BitVec 4) (m : BitVec 26) : SiteArgs := ⟨15, 0x01, 0x08, 0x2C, ty, 0, m⟩

/-- For `IntegerSiteWordsGiveTheManualsValues` and `NumberSiteWordsGiveTheManualsValues`: IADD and HADD2 on a bundle that joins, with one
valid lane on both inputs, and ISUB on the work in hand. -/
theorem witness_arithmetic_sites :
    (let i := Instr.iadd aAl (xAl 2 1)
     AlTakes (stSite (stAlIn i)) i aAl (stSite (stAlIn i)).cc (stAlIn i) (stAlIn i).takeHeads.2 (alHand i) ∧ (xAl 2 1).tyN = 2) ∧
    (let i := Instr.hadd2 aAl (xAl 9 0)
     AlTakes (stSite (stAlIn i)) i aAl (stSite (stAlIn i)).cc (stAlIn i) (stAlIn i).takeHeads.2 (alHand i) ∧ (xAl 9 0).tyN = 9) ∧
    (let i := Instr.isub aAl (xAl 6 0)
     AlTakes (stSite (stAlHand i)) i aAl (stSite (stAlHand i)).cc (stAlHand i) (stAlHand i) (alHand i) ∧ (xAl 6 0).tyN = 6) := by
  refine ⟨⟨⟨⟨by rfl, by rfl, by decide, by rfl⟩, .inr ⟨by rfl, .inl (by decide), rfl, rfl⟩, by decide, by decide, by decide, by decide,
    by decide⟩, by decide⟩, ⟨⟨⟨by rfl, by rfl, by decide, by rfl⟩, .inr ⟨by rfl, .inl (by decide), rfl, rfl⟩, by decide, by decide, by decide,
    by decide, by decide⟩, by decide⟩, ⟨⟨by rfl, by rfl, by decide, by rfl⟩, .inl ⟨by rfl, rfl⟩, by decide, by decide, by decide,
    by decide, by decide⟩, by decide⟩

def aSp : SiteRef := ⟨hA, 2, 10⟩
def stSp (i : Instr) (core : SpCore) (l0 l1 : List (Option Rec)) : Site :=
  let st := siteOf 2 10 (wordsOf [i]) [[.data (bundleOf l0)], [.data (bundleOf l1)], [], []]
  { st with core := { st.core with sp := core } }
/-- R96: what a sparse site takes from those inputs. -/
theorem spTakes (i : Instr) (st : Site) (h : SiteAt (stSite st) i aSp (stSite st).cc st) (ha : st.al = none) (hj : st.joined = true) :
    SpTakes (stSite st) i aSp (stSite st).cc st st.takeHeads.2
      ((joinedLanes st.takeHeads.2 st.takeHeads.1).filter fun l => (absentIn l.2).isNone)
      (((joinedLanes st.takeHeads.2 st.takeHeads.1).filter fun l => (absentIn l.2).isSome).filterMap fun l =>
        (startRec l.2).map fun q => (l.1, q)) :=
  ⟨h, ha, .inl hj, rfl, rfl, rfl⟩

theorem siteAt (i : Instr) (a : SiteRef) (st : Site) (ht : a.task = hA) (hk : st.key = siteKey a.row a.col)
    (he : (stSite st).cc.siteEvent st = some i) : SiteAt (stSite st) i a (stSite st).cc st := by
  refine ⟨?_, ?_, hk, he⟩
  · rw [ht]; rfl
  · rw [← hk]; simp [stSite, State.modCc, Run.site?, SMap.get?]
def xSp (m : BitVec 26) : SiteArgs := ⟨0, 0x00, 0x01, 0x02, 6, 0, m⟩
def r3 (a b c : Nat) : Option Rec := some (recOf [BitVec.ofNat 32 a, BitVec.ofNat 32 b, BitVec.ofNat 32 c])
def spOn (i : Instr) (l0 : List (Option Rec)) : Site := stSp i SpCore.reset l0 []
def x2 (m : BitVec 26) : SiteArgs := { xSp m with c := 0x2C }
def xKeys (m : BitVec 26) : SiteArgs := ⟨0, 0x00, 0x08, 0x2C, 6, 0, m⟩
/-- The lanes a site takes. -/
def lanesAt (st : Site) : List SpLane := (joinedLanes st.takeHeads.2 st.takeHeads.1).filter fun l => (absentIn l.2).isNone
def goneAt (st : Site) : List (Nat × Rec) := ((joinedLanes st.takeHeads.2 st.takeHeads.1).filter fun l => (absentIn l.2).isSome).filterMap fun l =>
  (startRec l.2).map fun q => (l.1, q)
def Took (i : Instr) (st : Site) : Prop := SpTakes (stSite st) i aSp (stSite st).cc st st.takeHeads.2 (lanesAt st) (goneAt st)
theorem took (i : Instr) (st : Site) (hk : st.key = siteKey aSp.row aSp.col) (he : (stSite st).cc.siteEvent st = some i) (ha : st.al = none)
    (hj : st.joined = true) : Took i st := ⟨siteAt i aSp st rfl hk he, ha, .inl hj, rfl, rfl, rfl⟩
def core2 : SpCore := { SpCore.reset with prev := some (2#32, 2#32), lastK := some 2#32 }

/-- For `SparseSitesServeOrderAndReduce`, SCAN to SPVAL: a lane of more than 16 results; pairs at the bound and one past it, in order
and not; a key that falls; a list of two of which one is kept; a tile whose masks add up and one whose do not. -/
theorem witness_sparse_sites :
    Took (.scan aSp (xSp 0)) (spOn (.scan aSp (xSp 0)) [r3 1 18 3, none, r3 5 5 0]) ∧
    Took (.repeat aSp (xSp 0)) (spOn (.repeat aSp (xSp 0)) [r3 1 17 3]) ∧
    (∀ e ∈ [(10, 8, true, true), (11, 8, true, false), (10, 9, true, false), (2, 2, false, true)],
      let i := Instr.coord aSp (xSp 0x2B)
      let st := stSp i core2 [r3 e.1 e.2.1 0] []
      Took i st ∧ ∀ l ∈ lanesAt st,
        (decide (List.Pairwise (fun p q => pairLt p q = true) ((2#32, 2#32) :: [(linkVal l.2 (xSp 0).selA, linkVal l.2 (xSp 0).selB)])) = e.2.2.1) ∧
        (e.2.2.2 = true ↔ ¬ ((st.consts.getD ((xSp 0x2B).m 4 2) 0#32).toNat ≤ (linkVal l.2 (xSp 0x2B).selA).toNat ∨
          (st.consts.getD ((xSp 0x2B).m 7 5) 0#32).toNat ≤ (linkVal l.2 (xSp 0x2B).selB).toNat))) ∧
    (∀ k ∈ [2, 1], let st := stSp (.reduce aSp (x2 0)) core2 [r3 k 7 0, r3 3 1 0] []
      Took (.reduce aSp (x2 0)) st ∧
      (List.Pairwise (fun p q : W32 => p.toNat ≤ q.toNat) (core2.lastK.toList ++ (lanesAt st).map fun l => linkVal l.2 (x2 0).selA) ↔ k = 2)) ∧
    (let st := stSp (.topk aSp (x2 0)) { SpCore.reset with top := [(1#32, 1#32)] } [r3 5 6 0, r3 7 8 0] []
     Took (.topk aSp (x2 0)) st ∧ st.takeHeads.2.core.sp.top.length ≤ (x2 0).m 5 0 + 1) ∧
    (let st := spOn (.spval aSp (xSp 0)) [none]
     Took (.spval aSp (xSp 0)) st ∧ lanesAt st = []) ∧
    (∀ n ∈ [1, 2], let st := spOn (.spval aSp (xSp 0)) [r3 0x8000 n 5, none]
     Took (.spval aSp (xSp 0)) st ∧ ∃ l, lanesAt st = [l] ∧ (linkVal l.2 (xSp 0).selB).toNat = n ∧
       ((List.range 16).filter (linkVal l.2 (xSp 0).selA).getLsbD).length = 1) := by
  refine ⟨took _ _ (by decide) (by rfl) rfl (by decide), took _ _ (by decide) (by rfl) rfl (by decide), ?_, ?_,
    ⟨took _ _ (by decide) (by rfl) rfl (by decide), by decide⟩, ⟨took _ _ (by decide) (by rfl) rfl (by decide), rfl⟩, ?_⟩
  · intro e he
    fin_cases he <;> exact ⟨took _ _ (by decide) (by rfl) rfl (by decide), by decide⟩
  · intro k hk
    fin_cases hk <;> exact ⟨took _ _ (by decide) (by rfl) rfl (by decide), by decide⟩
  · intro n hn
    fin_cases hn <;> exact ⟨took _ _ (by decide) (by rfl) rfl (by decide), _, rfl, by decide, by decide⟩

/-- For the same statement, ISECT and UNION: equal keys are decided and leave, a key of one input waits. -/
theorem witness_isect_and_union : ∀ union : Bool,
    let i := if union then Instr.union aSp (xKeys 0) else Instr.isect aSp (xKeys 0)
    let st := stSp i SpCore.reset [r3 3 0 0, r3 9 0 0] [r3 3 0 0]
    SiteAt (stSite st) i aSp (stSite st).cc st ∧ st.al = none ∧ st.joined = true ∧
    (∃ out ka kb, Decides union (some 9#32) (some 3#32) false false [spHeld 3 0, spHeld 9 0] [spHeld 3 0] out ka kb ∧ ka.length ≤ 64 ∧ kb.length ≤ 64) ∧
    RisesAfter none ((keysOf ((st.takeHeads.1.find? fun e => decide (e.1 = 0)).map (·.2)) (selField (xKeys 0).selA) fun _ => 0#32).map
      fun e => e.2.1) ∧
    (keysOf ((st.takeHeads.1.find? fun e => decide (e.1 = 0)).map (·.2)) (selField (xKeys 0).selA) fun _ => 0#32).map (fun e => spHeld e.2.1 e.2.2) =
      [spHeld 3 0, spHeld 9 0] := by
  intro union
  have d : ∃ out ka kb, Decides union (some 9#32) (some 3#32) false false [spHeld 3 0, spHeld 9 0] [spHeld 3 0] out ka kb ∧
      ka.length ≤ 64 ∧ kb.length ≤ 64 :=
    ⟨_, _, _, .both _ _ _ _ _ _ _ rfl (.waitA _ _ (by decide)), by decide, by decide⟩
  cases union
  · exact ⟨siteAt _ _ _ rfl (by decide) (by rfl), rfl, by decide, d, by simp only [RisesAfter]; decide, by decide⟩
  · exact ⟨siteAt _ _ _ rfl (by decide) (by rfl), rfl, by decide, d, by simp only [RisesAfter]; decide, by decide⟩

def aFl : SiteRef := ⟨hA, 2, 11⟩
def stFl (i : Instr) (fl : FlCore) (ins : List (List Msg)) : Site := withFl (siteOf 2 11 (wordsOf [i]) ins) fl
def xFl (m : BitVec 26) : SiteArgs := ⟨0, 0x00, 0x2C, 0x2C, 6, 0, m⟩
def tagged (n : Nat) (v : Nat) : Option Rec := some { recOf [BitVec.ofNat 32 v] with tag := BitVec.ofNat 16 n }
def one : List (List Msg) := [[.data (bundleOf [tagged 5 2])], [], [], []]
/-- A flow site takes what its inputs hold. -/
def FlTook (i : Instr) (st : Site) (ls : List (Nat × Rec)) : Prop := FlTakes (stSite st) i aFl (stSite st).cc st st.takeHeads.2 ls
theorem flTook (i : Instr) (st : Site) (hk : st.key = siteKey aFl.row aFl.col) (he : (stSite st).cc.siteEvent st = some i) (ha : st.al = none) :
    FlTook i st ((st.takeHeads.1.map (·.2)).flatMap lanesOf) := ⟨siteAt i aFl st rfl hk he, ha, rfl, rfl⟩
def fl5 : FlCore := { FlCore.reset with nextTag := 5, ctr := 0xFFFF, compact := List.replicate 15 (recOf [1#32]) }

/-- For `FlowSitesRouteHoldAndMerge`: every flow word on one record; an ORDER's tag that is next, 255 ahead and 256 ahead; a full ORDER
and one place left; a MERGE and a RECIRC with both inputs. -/
theorem witness_flow_sites :
    (∀ e ∈ flowForms, ∃ m ls, FlTook (e.1 aFl (xFl m)) (stFl (e.1 aFl (xFl m)) fl5 one) ls ∧ ls ≠ []) ∧
    (∀ i ∈ [Instr.mark aFl (xFl 0), .tagset aFl (xFl 1), .compact aFl (xFl 0)], ∃ ls, FlTook i (stFl i fl5 one) ls ∧ ls ≠ []) ∧
    (∀ e ∈ [(5, 0, 0), (260, 255, 255), (261, 256, 256), (4, 0xFFFF, 256)],
      let st := stFl (.order aFl (xFl 0)) { fl5 with order := List.replicate e.2.2 (recOf [7#32]) } [[.data (bundleOf [none, tagged e.1 2])], [], [], []]
      ∃ q, FlTook (.order aFl (xFl 0)) st [(1, q)] ∧ isLate (stSite st).cc st.takeHeads.2 (1, q) = false ∧
        (q.tag - st.takeHeads.2.core.fl.nextTag).toNat = e.2.1 ∧ st.takeHeads.2.core.fl.order.length = e.2.2) ∧
    (let st := stFl (.merge aFl (xKeys 1)) FlCore.reset [[.data (bundleOf (List.replicate 16 (tagged 1 1)))], [.data (bundleOf [tagged 2 2])], [], []]
     ∃ ls, FlTook (.merge aFl (xKeys 1)) st ls ∧ ls.length = 17) ∧
    (let st := stFl (.recirc aFl (xKeys 16)) { FlCore.reset with hold := List.replicate 14 (recOf [7#32, 8#32]) }
       [[.data (bundleOf [tagged 1 1])], [.data (bundleOf [none, tagged 2 2])], [], []]
     ∃ ls, FlTook (.recirc aFl (xKeys 16)) st ls ∧
       (((headData (st.q 1)).map lanesOf).getD []).length + 14 + (((headData (st.q 0)).map lanesOf).getD []).length = 16) := by
  refine ⟨?_, ?_, ?_, ?_, ?_⟩
  · intro e he
    fin_cases he <;> first
      | exact ⟨0, _, flTook _ _ (by decide) (by rfl) rfl, by decide⟩
      | exact ⟨1, _, flTook _ _ (by decide) (by rfl) rfl, by decide⟩
  · intro i hi
    fin_cases hi <;> exact ⟨_, flTook _ _ (by decide) (by rfl) rfl, by decide⟩
  · intro e he
    fin_cases he <;> exact ⟨_, flTook _ _ (by decide) (by rfl) rfl, by decide, by decide, by decide⟩
  · exact ⟨_, flTook _ _ (by decide) (by rfl) rfl, by decide⟩
  · exact ⟨_, flTook _ _ (by decide) (by rfl) rfl, by decide⟩

def aMb : SiteRef := ⟨hA, 2, 8⟩
/-- A tensor entry of 16 by 8 f32 values at the start of the extent, rows 64 bytes apart. -/
def tidM : Tid := vec8 [BitVec.ofNat 64 (2 ^ 63 + 8 * 2 ^ 57 + 2 ^ 55), 0x0000000800000010#64, 0x0000000100000001#64, 64#64]
/-- An MB with one request in hand, of a record with these fields. -/
def stMb (i : Instr) (flds : List W32) : Site :=
  { siteOf 2 8 (wordsOf [i]) [[], [], [], []] with routes := [⟨0, 0, 4, 0, 0#64⟩, ⟨3, 1, 4, 0, 0#64⟩], mb := some ⟨[(0, ⟨3, [some (recOf flds), none, none, none]⟩)], []⟩ }
/-- A state whose region runs with that site, an MB of 4,096 scratchpad bytes that holds the lines given, and the tensor entry. -/
def stBank (st : Site) (lines : List Nat) (mem : List (Nat × Byte)) : State := { (stSite st) with
  mem := mem
  l1 := lines.map fun l => ⟨hA, st.key, l, []⟩
  cc := { (stSite st).cc with region := { (stSite st).cc.region with mbs := [(st.key, ⟨4096, 16, 1024, false, [], []⟩)], tids := [(3, tidM)] } } }
def xMb (b c : BitVec 6) (ty : BitVec 4) (m : BitVec 26) : SiteArgs := ⟨8, 0, b, c, ty, 0, m⟩
def MbTook (i : Instr) (flds : List W32) (lines : List Nat) (mem : List (Nat × Byte)) : Prop :=
  MbTakes (stBank (stMb i flds) lines mem) i aMb (stBank (stMb i flds) lines mem).cc (stMb i flds) 3 ⟨3, [some (recOf flds), none, none, none]⟩ (recOf flds)
theorem mbTook (i : Instr) (flds : List W32) (lines : List Nat) (mem : List (Nat × Byte))
    (he : (stBank (stMb i flds) lines mem).cc.siteEvent (stMb i flds) = some i) : MbTook i flds lines mem := by
  exact ⟨⟨rfl, rfl, by rfl, he⟩, rfl, ⟨0, [], by decide, rfl, fun h => absurd h (by decide), by show (0 : Nat) ≤ 32; decide⟩, rfl, rfl⟩
/-- A granted access at an offset of the extent. -/
theorem reaches (r : Run) (off n : Nat) (right : Right) (hl : r.lease = runA.lease) (he : r.extn = 1) (h : off + n ≤ 0x10000)
    (hc : covered [extA] (0x200000 + off) n right = .ok extA) : MbReaches r 0 off n right extA (0x200000 + off) :=
  ⟨extA, by rw [hl, he]; rfl, hc, rfl, flatA (0x200000 + off) n (by omega) (by omega)⟩
def iLd : Instr := .l1ld aMb (xMb 0x2C 0x2C 6 0x1000000)
def iSt : Instr := .l1st aMb { xMb 1 0x2C 6 0x1000000 with dst := 0 }
def iTld : Instr := .tld aMb (xMb 1 0x2C 8 0x10C0000)
def iTst : Instr := .tst aMb { xMb 1 2 8 0x10C0000 with dst := 0 }
def iPark : Instr := .park aMb (xMb 0x2C 0x2C 6 0x1000000)

/-- For `MemoryBankWordsReadStoreAndPark`, the scratchpad: the last word of the bank, one byte past it and a misaligned one. -/
theorem witness_scratchpad :
    ∀ i ∈ [Instr.spld aMb (xMb 0x2C 0x2C 6 0), .spldi aMb (xMb 1 0x2C 6 0), .spst aMb { xMb 1 0x2C 6 0 with dst := 0 },
      .spatom aMb (xMb 1 0x2C 6 0)],
    ∀ e ∈ [(4092#32, true, true), (4093#32, false, false), (4091#32, true, false)],
      let st := stMb i [e.1, 0, 0]
      MbTook i [e.1, 0, 0] [] [] ∧
      (decide ((reqVal ⟨3, [some (recOf [e.1, 0, 0]), none, none, none]⟩ (xMb 1 0x2C 6 0).selA 0).toNat + 4 ≤ ((stBank st [] []).cc.mb st.key).size) = e.2.1) ∧
      (decide ((reqVal ⟨3, [some (recOf [e.1, 0, 0]), none, none, none]⟩ (xMb 1 0x2C 6 0).selA 0).toNat % 4 = 0) = e.2.2) := by
  intro i hi e he
  fin_cases hi <;> fin_cases he <;> exact ⟨mbTook _ _ _ _ (by rfl), by decide, by decide⟩

/-- For the same statement, L1LD and L1ST: the last word of the extent, on a line that is held and one that is not. -/
theorem witness_lines : ∀ lines ∈ [[0x41FF], []],
    let s := stBank (stMb iLd [0xFFFC]) lines []
    (MbTook iLd [0xFFFC] lines [] ∧ MbReaches s.cc 0 0xFFFC 4 .r extA 0x20FFFC ∧ (extA.base + 0xFFFC) % 4 = 0 ∧
      badIn s extA (extA.base + 0xFFFC) 4 = none ∧ (lineHeld s aMb (stMb iLd [0xFFFC]) (0x20FFFC / 128) = true ↔ lines = [0x41FF])) ∧
    MbTook iSt [0xFFFC, 7] lines [] ∧ MbReaches s.cc 0 0xFFFC 4 .w extA 0x20FFFC := by
  intro lines hl
  fin_cases hl <;> exact ⟨⟨mbTook _ _ _ _ (by rfl), reaches _ 0xFFFC 4 .r rfl rfl (by decide) (by rfl), by decide, by decide, by decide⟩,
    mbTook _ _ _ _ (by rfl), reaches _ 0xFFFC 4 .w rfl rfl (by decide) (by rfl)⟩

/-- For the same statement, TLD and TST: the last element, and one past the tensor in each direction. -/
theorem witness_tensor_elements :
    (∀ l ∈ [[15, 7, 7], [16, 7, 7], [15, 8, 8]], MbTook iTld l [] [] ∧ MbTook iTst l [] []) ∧
    (let s := stBank (stMb iTld [15, 7, 7]) [] []
     SMap.get Tid.zero s.cc.region.tids 3 = tidM ∧ tidFmt tidM ≠ 15 ∧ tidDim tidM 0 = 16 ∧ tidDim tidM 1 = 8 ∧ tidExt tidM = 0 ∧ contBytes (tidFmt tidM) = 4 ∧
     rowOff tidM 7 0 0 + (elemPos (tidFmt tidM) 15).1 = 508 ∧
     MbReaches s.cc 0 508 4 .r extA 0x2001FC ∧ MbReaches s.cc 0 508 4 .w extA 0x2001FC ∧
     (let st := stMb iTld [15, 7, 7]
      let e : WinEnt := ⟨3, [some (recOf [15, 7, 7]), none, none, none]⟩
      let lines := [0x2001FC / 128, (0x2001FC + contBytes (tidFmt tidM) - 1) / 128] ++ scaleLines s.cc (xMb 1 0x2C 8 0x10C0000) e
      let u := shownAgain (taken s aMb st) aMb st lines (recOf [15, 7, 7])
      ∃ v, readValue u s.cc.lease s.cc.extn tidM false 15 7 = (.ok v, u)) ∧
     lineHeld (stBank (stMb iTld [15, 7, 7]) [0x2001FC / 128] []) aMb (stMb iTld [15, 7, 7]) (0x2001FC / 128) = true ∧
     lineHeld s aMb (stMb iTld [15, 7, 7]) (0x2001FC / 128) = false) := by
  refine ⟨?_, by rfl, by decide, by decide, by decide, by decide, by decide, by decide, reaches _ 508 4 .r rfl rfl (by decide) (by rfl),
    reaches _ 508 4 .w rfl rfl (by decide) (by rfl), ⟨_, rfl⟩, by decide, by decide⟩
  intro l hl
  fin_cases hl <;> exact ⟨mbTook _ _ _ _ (by rfl), mbTook _ _ _ _ (by rfl)⟩

/-- For the same statement, PARK: an empty word, all ones, and a word that is one less. -/
theorem witness_park : ∀ b ∈ [0xFF#8, 0xFE#8],
    let s := stBank (stMb iPark [4]) [] (memPuts [] 0x200004 [b, 0xFF#8, 0xFF#8, 0xFF#8])
    MbTook iPark [4] [] (memPuts [] 0x200004 [b, 0xFF#8, 0xFF#8, 0xFF#8]) ∧ MbReaches s.cc 0 4 4 .r extA 0x200004 ∧
    (extA.base + 4) % 4 = 0 ∧ badIn s extA (extA.base + 4) 4 = none ∧
    (∃ z attr, s.cc.lease.find? (fun z => z.idx != 16 && z.holds (extA.base + 4) 4) = some z ∧ z.place (extA.base + 4) = .phys 0x200004 attr) ∧
    (leNat (memBytes s.mem 0x200004 4) = 2 ^ (8 * 4) - 1 ↔ b = 0xFF#8) := by
  intro b hb
  fin_cases hb <;> exact ⟨mbTook _ _ _ _ (by rfl), reaches _ 4 4 .r rfl rfl (by decide) (by rfl), by decide, by decide, ⟨extA, 3#8, by rfl, by rfl⟩,
    by decide⟩

/-- For the same statement: a service cycle with a full window and a bundle that joins, and a line that comes for a record that waits. -/
theorem witness_service_and_line :
    (let i := Instr.spld aMb (xMb 0x2C 0x2C 6 0)
     let st := { siteOf 2 8 (wordsOf [i]) [[.data (bundleOf [some (recOf [0#32])])], [], [], []] with
       core := { SiteCore.reset with win := List.replicate 32 ⟨1, [some (recOf [4#32]), none, none, none]⟩ } }
     SiteAt (stBank st [] []) (.mbServiceCycle aMb) aMb (stBank st [] []).cc st ∧ st.joined = true ∧ st.core.win.length ≤ 32) ∧
    (let st := { siteOf 2 8 (wordsOf [iLd]) [[], [], [], []] with core := { SiteCore.reset with missq := [⟨recOf [0#32], 0x4000⟩] } }
     (stBank st [] []).live? aMb.task = some (stBank st [] []).cc ∧ (stBank st [] []).cc.site? (siteKey aMb.row aMb.col) = some st ∧
     st.key = siteKey aMb.row aMb.col ∧ st.isMb = true ∧ (∃ z ∈ st.core.missq, z.line = 0x4000) ∧
     (let s := stBank st (List.range 1024) []
      lineHeld s aMb st 0x4000 = false ∧ (s.cc.mb st.key).room = 1024 ∧
      (s.l1.filter fun c => decide (c.task = aMb.task ∧ c.mb = siteKey aMb.row aMb.col)).length = 1024) ∧
     lineHeld (stBank st [0x4000] []) aMb st 0x4000 = true) := by
  exact ⟨⟨⟨by rfl, by rfl, by decide, by rfl⟩, by decide, by decide⟩, by rfl, by rfl, by decide, by decide, by decide,
    ⟨by decide +kernel, by decide, by decide +kernel⟩, by decide⟩

def mk0 (n : Nat) : FlCore := { FlCore.reset with count := n }
def iMark : Instr := .mark aFl (xFl 0)
def iRec : Instr := .recirc aFl (xKeys 16)
def iComp : Instr := .compact aFl (xFl 0)
def inRegion (s : State) (f : Region → Region) : State := { s with cc := { s.cc with region := f s.cc.region } }
def stOne (n : Nat) : RoundStore := ⟨0, n, 0x200000, 0x200000, none, [1#8, 2#8]⟩

/-- For `RoundsAndDuskPassSitesAndCommit`, markers: a MARK that has counted its bundles, with and without an early-edge request; a marker
at a COMPACT that holds a record; a RECIRC's marker at either input. -/
theorem witness_markers :
    (let st := stFl iMark (mk0 4096) [[], [], [], []]
     SiteAt (stSite st) (.roundCountExpiry aFl) aFl (stSite st).cc st ∧ (∀ p ∈ (stSite st).allRuns, p.region.edgeDue = false)) ∧
    (let st := stFl iMark (mk0 1) [[], [], [], []]
     let s := inRegion (stSite st) fun g => { g with edgeDue := true }
     s.allRuns = [s.cc] ∧ s.live? s.cc.task = some s.cc ∧ s.cc.region.edgeDue = true ∧
     (s.cc.region.sites.filter fun e => e.2.isMark && !e.2.fin) = [(st.key, st)]) ∧
    (∀ n ∈ [0, 1], let st := stFl iMark { mk0 1 with nextMark := n } [[.marker 0], [], [], []]
     SiteAt (stSite st) (.roundMarker aFl) aFl (stSite st).cc st ∧ st.isRecirc = false ∧ st.markable = some 0 ∧ st.isMark = true ∧
     (stSite st).cc.region.roundOf 0 = 0 ∧ st.core.fl.nextMark = n) ∧
    (let st := stFl iComp fl5 [[.marker 0], [], [], []]
     SiteAt (stSite st) (.roundMarker aFl) aFl (stSite st).cc st ∧ st.isRecirc = false ∧ st.markable = some 0 ∧ st.ins.length = 4) ∧
    (let st := stFl iRec FlCore.reset [[.marker 0], [.marker 0], [], []]
     SiteAt (stSite st) (.roundMarker aFl) aFl (stSite st).cc st ∧ st.isRecirc = true ∧ st.q 1 = .marker 0 :: []) ∧
    (let st := stFl iRec FlCore.reset [[.marker 0], [], [], []]
     SiteAt (stSite st) (.roundMarker aFl) aFl (stSite st).cc st ∧ st.isRecirc = true ∧ (∀ k, (st.q 1).head? ≠ some (.marker k)) ∧
     st.q 0 = .marker 0 :: []) := by
  refine ⟨⟨siteAt _ _ _ rfl (by decide) (by rfl), by decide⟩, ⟨by rfl, by rfl, by decide, by rfl⟩, ?_,
    ⟨siteAt _ _ _ rfl (by decide) (by rfl), by decide, by decide, by decide⟩,
    ⟨siteAt _ _ _ rfl (by decide) (by rfl), by decide, by decide⟩,
    ⟨siteAt _ _ _ rfl (by decide) (by rfl), by decide, fun k h => (by cases h), by decide⟩⟩
  intro n hn
  fin_cases hn <;> exact ⟨siteAt _ _ _ rfl (by decide) (by rfl), by decide⟩

/-- For the same statement, dusk: final and trial dusk at a COMPACT; at a RECIRC each state of its turn, and dusk at either input. -/
theorem witness_dusk :
    (∀ f, let st := stFl iComp fl5 [[.dusk f], [], [], []]
     SiteAt (stSite st) (.duskToken aFl) aFl (stSite st).cc st ∧ st.isRecirc = false ∧ (st.used.all fun i => finalFirst (st.q i)) = f) ∧
    (∀ e ∈ [(true, none, false), (false, none, true), (false, some true, false), (false, some false, true), (false, some true, true)],
     let st := stFl iRec { FlCore.reset with pend := e.2.1, clean := e.2.2 } [[], [.dusk e.1], [], []]
     SiteAt (stSite st) (.duskToken aFl) aFl (stSite st).cc st ∧ st.isRecirc = true ∧ st.q 1 = .dusk e.1 :: []) ∧
    (∀ p ∈ [none, some false], let st := stFl iRec { FlCore.reset with pend := p } [[.dusk true], [], [], []]
     SiteAt (stSite st) (.duskToken aFl) aFl (stSite st).cc st ∧ st.isRecirc = true ∧ (∀ j, (st.q 1).head? ≠ some (.dusk j)) ∧
       st.q 0 = .dusk true :: [] ∧ st.core.fl.pend = p) := by
  refine ⟨?_, ?_, ?_⟩
  · intro f
    cases f <;> exact ⟨siteAt _ _ _ rfl (by decide) (by rfl), by decide, by decide⟩
  · intro e he
    fin_cases he <;> exact ⟨siteAt _ _ _ rfl (by decide) (by rfl), by decide, by decide⟩
  · intro p hp
    fin_cases hp <;> exact ⟨siteAt _ _ _ rfl (by decide) (by rfl), by decide, fun j h => (by cases h), by decide, by decide⟩

/-- For the same statement, the commit: every site has the marker and the round has one store; a round that is open; a pass that is
over. -/
theorem witness_commit :
    (let st := { stFl iComp FlCore.reset [[], [], [], []] with snaps := [(0, SiteCore.reset)], rnd := 1 }
     let s := inRegion (stSite st) fun g => { g with stores := [stOne 0] }
     s.live? hA = some s.cc ∧ s.cc.canMark s.cc.region.committed = true ∧ s.cc.region.mbs = [] ∧
     (s.cc.region.stores.filter fun z => decide (z.rnd = 0)) = [⟨0, 0, 0x200000, 0x200000, none, [1#8, 2#8]⟩] ∧ Unwatched s 0x200000 2 ∧ MemoryOk s) ∧
    (let s := stSite (stFl iComp FlCore.reset [[], [], [], []])
     s.live? hA = some s.cc ∧ s.cc.canMark s.cc.region.committed = false ∧ s.cc.canEnd = false) ∧
    (let s := stSite { stFl iComp FlCore.reset [[], [], [], []] with fin := true }
     s.live? hA = some s.cc ∧ s.cc.canMark s.cc.region.committed = false ∧ s.cc.canEnd = true) := by
  exact ⟨⟨by rfl, by decide, by rfl, by rfl, unwatched_of_empty rfl rfl _ _, by simp only [MemoryOk]; decide⟩, ⟨by rfl, by decide, by decide⟩,
    by rfl, by decide, by decide⟩

def tid1 : Tid := vec8 [BitVec.ofNat 64 (2 ^ 63 + 8 * 2 ^ 57), 0x0000000100000100#64, 0x0000000100000001#64]
def p0 : PortRef := ⟨hA, 0⟩
/-- A port of three f32 elements, one to a record. -/
def portA (mode : Nat) : Port := { Port.unbound with mode := mode, started := true, tid := tid1, e := 1, psz := 1, scope := 5, gen := .affine 0 3 1 1 1 4 0 0 0 0 0 0 }
/-- A state whose region runs, with that port. -/
def stPort (q : Port) : State :=
  let s := stSite { siteOf 0 0 (wordsOf [.fadd ⟨hA, 0, 0⟩ ⟨0, 0, 0x18, 0x2C, 8, 0, 0⟩]) [[], [], [], []] with routes := [] }
  { s with cc := { s.cc with ports := [(0, q)] } }
theorem portAt (q : Port) (h : q.started = true) : PortAt (stPort q) p0 (stPort q).cc q := ⟨rfl, rfl, h⟩
def qRead : Port := { portA 1 with req := 1 }
def qSome : Port := { portA 1 with req := 3, landed := [(0, 5), (2, 7)] }
def qInd (m : Msg) : Port := { portA 1 with gen := .indirect 0 2, ins := [m] }
def qWr (n : Nat) (m : Msg) : Port := { portA 2 with next := n, ins := [m] }
def bunB : Bundle := bundleOf [none, some (recOf [2#32])]

/-- For `PortsStreamIndexAndWriteRecords`: a run-ahead over the whole stream; an element that was asked for; an emission of present and
absent records, and of the end; an index, and dusk; a marker, dusk and a last record at a writing port. -/
theorem witness_ports :
    (let q := qRead
     let s := stPort q
     PortAt s p0 s.cc q ∧ q.reads = true ∧ q.stopAt = none ∧ q.owed = [] ∧ Nat.min q.gen.total (s.cc.windowEnd 0 q) = 3 ∧
     (∀ j, q.req ≤ j → j < 3 → ∃ va, s.cc.portVa q (s.cc.affineOff q j) .r = .ok va)) ∧
    (let q := { qSome with landed := [(0, 5)] }
     let s := stPort q
     PortAt s p0 s.cc q ∧ q.awaits 2 = true ∧ ElementAt s s.cc q 2 0x200008 ∧ 0 < contBytes (tidFmt q.tid)) ∧
    (let s := stPort qSome
     PortAt s p0 s.cc qSome ∧ (qSome.gen.total + qSome.per - 1) / qSome.per = 3 ∧ qSome.recordAt 0 = some [5] ∧ qSome.recordAt 1 = none ∧
     (∀ l, ∃ x : Rec, x.tag = BitVec.ofNat 16 l ∧ (∀ cs, qSome.recordAt l = some cs → x.flds = packConts (tidFmt qSome.tid) cs ∧ x.absent = none) ∧
      (qSome.recordAt l = none → x.absent = some (0, l) ∧ x.flds = (packConts (tidFmt qSome.tid) (List.replicate qSome.per 0)).map fun _ => 0#32))) ∧
    (PortAt (stPort { qSome with next := 3 }) p0 (stPort { qSome with next := 3 }).cc { qSome with next := 3 }) ∧
    (∀ m ∈ [Msg.data bunB, .dusk true], let q := qInd m
     let s := stPort q
     PortAt s p0 s.cc q ∧ q.gen.isIndirect = true ∧ q.stopped = false ∧ q.dusked = false ∧
     s.cc.portVa { q with ins := [] } (indirectOff q 2#32 0) .r = .ok 0x200008 ∧ covered s.cc.lease 0x200008 4 .r = .ok extA ∧
     FlatAt extA 0x200008 4 0x200008 ∧ badIn s extA 0x200008 4 = none ∧ q.per = 1) ∧
    (∀ m ∈ [Msg.data bunB, .marker 0, .dusk true], let q := qWr 2 m
     let s := stPort q
     PortAt s p0 s.cc q ∧ Nat.min q.per (q.gen.total - q.next) = 1 ∧
     (∃ va l, s.cc.portVa { q with ins := [] } (s.cc.affineOff { q with ins := [] } 2) .w = .ok va ∧
       storesOf s.cc 0 q.rnd va (leBytes 4 ((unpackConts (tidFmt q.tid) q.per [2#32]).getD 0 0)) = .ok l ∧ l ≠ []) ∧
     (bunB.lanes.zipIdx.filterMap fun z => z.1.map fun y => (z.2, y)) = [(1, recOf [2#32])]) := by
  refine ⟨⟨portAt _ rfl, by decide, rfl, rfl, by decide, ?_⟩, ⟨portAt _ rfl, by decide, ?_, by decide⟩,
    ⟨portAt _ rfl, by decide, by decide, by decide, ?_⟩, portAt _ rfl, ?_, ?_⟩
  · intro j h1 h2
    have : j = 1 ∨ j = 2 := by simp only [qRead] at h1; omega
    rcases this with rfl | rfl
    · exact ⟨0x200004, by rfl⟩
    · exact ⟨0x200008, by rfl⟩
  · exact ⟨0x200008, extA, by rfl, by rfl, flatA _ _ (by decide) (by decide), by decide⟩
  · intro l
    cases h : qSome.recordAt l with
    | none => exact ⟨⟨_, BitVec.ofNat 16 l, some (0, l)⟩, rfl, fun _ h => (by cases h), fun _ => ⟨rfl, rfl⟩⟩
    | some cs => exact ⟨⟨packConts (tidFmt qSome.tid) cs, BitVec.ofNat 16 l, none⟩, rfl, fun _ h => (by cases h; exact ⟨rfl, rfl⟩), fun h => (by cases h)⟩
  · intro m hm
    fin_cases hm <;> exact ⟨portAt _ rfl, by decide, by decide, by decide, by rfl, by rfl, flatA _ _ (by decide) (by decide), by decide, by decide⟩
  · intro m hm
    fin_cases hm <;> exact ⟨portAt _ rfl, by decide, ⟨0x200008, _, by rfl, by rfl, by decide⟩, by decide⟩

/-- A dense tensor entry: format, rank field, offset in the extent, elements in a row, rows, bytes between rows, scale format. -/
def tidE (fmt rank off d0 d1 st sf : Nat) : Tid := vec8 [BitVec.ofNat 64 (2 ^ 63 + fmt * 2 ^ 57 + rank * 2 ^ 55 + sf * 2 ^ 48 + off),
  BitVec.ofNat 64 (d1 * 2 ^ 32 + d0), 0x0000000100000001#64, BitVec.ofNat 64 st, 0#64, 0#64, 0x400#64]
/-- A state with one started command of two tensors, and bytes in memory. -/
def stTwoT (op : Nat) (x : CmdArgs) (q : QueueId) (a b c : Tid) (bs : List Byte) : State :=
  { stCmd (packCmd op x) q .started (fun d => { d with tidA := a, tidB := b, tidC := c }) with mem := memPuts [] 0x200000 bs }
def cmdTwoT (op : Nat) (x : CmdArgs) (q : QueueId) (a b c : Tid) : Cmd :=
  { cmdOf (packCmd op x) q .started with tidA := a, tidB := b, tidC := c }
def bytesA : List Byte := [1#8, 2#8, 3#8, 4#8, 5#8, 6#8, 7#8, 8#8]
theorem runningTwoT (op : Nat) (x : CmdArgs) (q : QueueId) (a b c : Tid) (bs : List Byte) :
    (stTwoT op x q a b c bs).running? k0 = some ((stTwoT op x q a b c bs).cc, cmdTwoT op x q a b c) := by rfl
def xN (n : Nat) : CmdArgs := { noArgs with p1 := BitVec.ofNat 32 n }
def xPush : CmdArgs := { xN 1 with fixed := 0x28000#31 }

/-- For `CopiesAndRowsMoveBytes`, COPY, COPYM and UNPIN: a range that ends where the other begins, one that coincides, none; a landing
and one that an earlier MMA holds. -/
theorem witness_copies :
    ((cmdTwoT 0x10 (xN 0) .copy Tid.zero Tid.zero Tid.zero).args = xN 0 ∧ (cmdTwoT 0x12 (xN 0) .l2 Tid.zero Tid.zero Tid.zero).args = xN 0) ∧
    (∀ off ∈ [0, 0xFFF8], let s := stTwoT 0x10 (xN 8) .copy (tidE 4 0 0xFFF0 100 1 0 0) Tid.zero (tidE 4 0 (0xFFF8 - off % 0xFFF0) 100 1 0 0) bytesA
     let c := cmdTwoT 0x10 (xN 8) .copy (tidE 4 0 0xFFF0 100 1 0 0) Tid.zero (tidE 4 0 (0xFFF8 - off % 0xFFF0) 100 1 0 0)
     c.args = xN 8 ∧ extentOf s.cc.lease s.cc.extn (tidExt c.tidA) = some extA ∧ extentOf s.cc.lease s.cc.extn (tidExt c.tidC) = some extA ∧
     (tidOffset c.tidC = tidOffset c.tidA ∨ tidOffset c.tidA + 8 = tidOffset c.tidC) ∧
     InExt s s.cc (tidExt c.tidA) 0xFFF0 8 .r 0x20FFF0 ∧ (off = 0 → InExt s s.cc (tidExt c.tidC) 0xFFF8 8 .w 0x20FFF8) ∧
     (off = 0xFFF8 → InExt s s.cc (tidExt c.tidC) 0xFFF0 8 .w 0x20FFF0) ∧ Unwatched s 0x20FFF8 8 ∧ MemoryOk s) ∧
    (let x := { xN 8 with tc := 1 }
     let s := stTwoT 0x11 x (.tileFetch 1) (tidE 4 0 0 100 1 0 0) Tid.zero Tid.zero bytesA
     let c := cmdTwoT 0x11 x (.tileFetch 1) (tidE 4 0 0 100 1 0 0) Tid.zero Tid.zero
     c.args = x ∧ MayLand s.cc c ∧ InExt s s.cc (tidExt c.tidA) 0 8 .r 0x200000 ∧ SMap.risesFrom 0 ((s.cc.tile 1).side 0) = true) ∧
    (let x := { xN 8 with tc := 1 }
     let c := { cmdTwoT 0x11 x (.tileFetch 1) (tidE 4 0 0 100 1 0 0) Tid.zero Tid.zero with id := 1 }
     let m := { cmdTwoT 0x20 { noArgs with tc := 1 } (.tileArray 1) (tidE 11 0 0 100 1 0 0) (tidE 11 0 0 100 1 0 0) Tid.zero with id := 0 }
     m.id < c.id ∧ m.args.tc = x.tc ∧ fillMeets c m = true) := by
  refine ⟨by decide, ?_, ⟨by decide, ?_, ?_, by decide⟩, by decide⟩
  · intro off h
    fin_cases h
    · refine ⟨by decide, by rfl, by rfl, .inr (by decide), ?_, fun _ => ?_, fun h => absurd h (by decide), unwatched_of_empty rfl rfl _ _,
        by simp only [MemoryOk]; decide⟩
      · exact inExtA rfl rfl 0xFFF0 8 .r (by rfl) (by decide) (by decide)
      · exact inExtA rfl rfl 0xFFF8 8 .w (by rfl) (by decide) (by decide)
    · refine ⟨by decide, by rfl, by rfl, .inl (by decide), ?_, fun h => absurd h (by decide), fun _ => ?_, unwatched_of_empty rfl rfl _ _,
        by simp only [MemoryOk]; decide⟩
      · exact inExtA rfl rfl 0xFFF0 8 .r (by rfl) (by decide) (by decide)
      · exact inExtA rfl rfl 0xFFF0 8 .w (by rfl) (by decide) (by decide)
  · intro d hd
    simp [stTwoT, stCmd, stT, State.modCc] at hd
    subst hd
    intro h
    exact absurd h (by decide)
  · exact inExtA rfl rfl 0 8 .r (by rfl) (by decide) (by decide)

/-- For the same statement, GATHER and SCATTER: the last row named and the first one past the rows. -/
theorem witness_rows : ∀ y ∈ [4, 5],
    let x := xN 1
    let a := tidE 4 1 0x10 8 5 8 0
    let b := tidE 6 0 0x8 1 1 0 0
    let c := tidE 4 1 0x100 8 5 8 0
    let bs := bytesA ++ [BitVec.ofNat 8 y]
    let s := stTwoT 0x12 x .l2 a b c bs
    (cmdTwoT 0x12 x .l2 a b c).args = x ∧ readElem s s.cc.lease s.cc.extn b 0 0 = (.ok y, s) ∧ MemoryOk s ∧ tidDim a 1 = 5 ∧ tidDim c 1 = 5 ∧
    RowAt s s.cc a 4 .r 0x200030 ∧ RowAt s s.cc c 0 .w 0x200100 ∧ RowAt s s.cc a 0 .r 0x200010 ∧ RowAt s s.cc c 4 .w 0x200120 ∧
    Unwatched s 0x200100 8 ∧ Unwatched s 0x200120 8 := by
  intro y hy
  fin_cases hy <;>
  exact ⟨by decide, by rfl, by simp only [MemoryOk]; decide, by decide, by decide,
    inExtA rfl rfl 0x30 8 .r (by rfl) (by decide) (by decide), inExtA rfl rfl 0x100 8 .w (by rfl) (by decide) (by decide),
    inExtA rfl rfl 0x10 8 .r (by rfl) (by decide) (by decide), inExtA rfl rfl 0x120 8 .w (by rfl) (by decide) (by decide),
    unwatched_of_empty rfl rfl _ _, unwatched_of_empty rfl rfl _ _⟩

theorem xPush_args : unpackCmd (packCmd 0x14 xPush) = xPush := by decide
/-- A state with an L2PUSH and another context whose port takes pushes under key 5, or has been stopped. -/
def stPush (sent : Nat) (stopped : Bool) : State :=
  let x := xPush
  let s := stCmd (packCmd 0x14 x) .l2 .started fun d => { d with tidA := tidE 4 1 0 16 5 16 0, recv := [(hB, 2)], sent := sent }
  { s with runs := [{ runA with task := hB, ctxn := 1, ports := [(2, { Port.unbound with mode := 3, key := 5, stopped := stopped })] }] }

/-- For the same statement, L2PUSH: a row to be sent, all sent, and no receiver left. -/
theorem witness_push :
    let x := xPush
    let p : Port := { Port.unbound with mode := 3, key := 5 }
    (∀ n b, ∃ c, (stPush n b).running? k0 = some ((stPush n b).cc, c) ∧ c.args = x ∧ c.sent = n ∧ c.recv = [(hB, 2)] ∧ c.bad = false ∧
      (∀ d ∈ (stPush n b).cc.cmds, d.id = k0.id → d = c)) ∧
    takesPush (stPush 0 false) (x.fld 94 79) (hB, 2) = some p ∧ p.pushed = [] ∧ RowAt (stPush 0 false) (stPush 0 false).cc (tidE 4 1 0 16 5 16 0) 0 .r 0x200000 ∧
    tidDim (tidE 4 1 0 16 5 16 0) 0 / contElems 4 * contBytes 4 * 1 = 16 ∧ takesPush (stPush 16 false) (x.fld 94 79) (hB, 2) ≠ none ∧
    takesPush (stPush 1 true) (x.fld 94 79) (hB, 2) = none := by
  refine ⟨fun n b => ⟨_, rfl, xPush_args, rfl, rfl, rfl, ?_⟩, by rfl, rfl, inExtA rfl rfl 0 16 .r (by rfl) (by decide) (by decide), by decide, ?_, by rfl⟩
  · intro d hd _
    simpa [stPush, stCmd, stT, State.modCc] using hd
  · have h : takesPush (stPush 16 false) (xPush.fld 94 79) (hB, 2) =
      some { Port.unbound with mode := 3, key := 5 } := by rfl
    exact fun g => by rw [g] at h; cases h

/-! Reads of the extent of `runA`. -/
theorem covA (off n : Nat) (h : off + n ≤ 0x10000) : covered runA.lease (0x200000 + off) n .r = .ok extA := by
  have h1 : extA.holds (0x200000 + off) n = true := by
    refine decide_eq_true ⟨?_, ?_⟩
    · show 0x200000 ≤ 0x200000 + off; omega
    · show 0x200000 + off + n ≤ 0x200000 + 0x10000; omega
  have h2 : extA.mapped (0x200000 + off) n = true := by simp [Extent.mapped, extA]
  have h3 : extA.grants (0x200000 + off) n .r = true := by
    simp only [Extent.grants, Extent.declares, extA, attrHas, List.all_cons, List.all_nil, show attrR 3#8 = true by decide, Bool.or_true, Bool.and_self]
  have h4 : ¬ 2 ^ 57 ≤ 0x200000 + off := by omega
  have h5 : ∀ e ∈ (placedRun Run.reset).lease, e.holds (0x200000 + off) n = false := by
    intro e he
    simp only [placedRun, List.mem_singleton] at he
    subst he
    refine decide_eq_false ?_
    show ¬ (0x10000 ≤ 0x200000 + off ∧ 0x200000 + off + n ≤ 0x10000 + 65536)
    omega
  have h6 : (placedRun Run.reset).lease.filter (fun e => e.holds (0x200000 + off) n && e.mapped (0x200000 + off) n) = [] := by
    rw [List.filter_eq_nil_iff]
    intro e he
    simp [h5 e he]
  unfold covered
  rw [if_neg h4]
  simp only [runA, List.filter_cons, h1, h2, h6, Bool.and_self, if_true, List.find?_cons, h3]
theorem readA {s : State} {r : Run} (hl : r.lease = runA.lease) (he : r.extn = 1) (hb : s.err.bad = []) (off n : Nat) (hn : 0 < n)
    (h8 : off % 8 + n ≤ 8) (h : off + n ≤ 0x10000) :
    readExt s r.lease r.extn 0 off n = (.ok (memBytes s.mem (0x200000 + off) n), s) := by
  have h1 : extAddr r.lease r.extn 0 off n .r = .ok (0x200000 + off) := by rw [hl, he]; rfl
  have h2 : badIn s extA (0x200000 + off) n = none := by simp [badIn, extA, State.badAt, hb]
  have h3 : extA.place (0x200000 + off) = .phys (0x200000 + off) 3#8 := by
    have hr : extA.runAt (0x200000 + off) = some ⟨0x200000, 0x10000, 3#8, 1, 0x200000⟩ := by
      simp only [Extent.runAt, extA, List.find?_cons]
      rw [show decide (0x200000 ≤ 0x200000 + off ∧ 0x200000 + off < 0x200000 + 0x10000) = true by simp only [decide_eq_true_eq]; omega]
    unfold Extent.place
    rw [hr]
    simp [extA]
  have h4 : min n (8 - (0x200000 + off) % 8) = n := by omega
  have h5 : readRange s extA (0x200000 + off) (n + 1) n = (.ok (memBytes s.mem (0x200000 + off) n), s) := by
    unfold readRange
    rw [if_neg (by omega), h4, h3]
    simp only [readPlace, Nat.sub_self]
    obtain ⟨m, rfl⟩ : ∃ m, n = m + 1 := ⟨n - 1, by omega⟩
    simp [readRange]
  unfold readExt
  rw [h1]
  unfold readVa
  rw [hl]
  simp only [covA off n h, h2, h5]

/-- A state with one started matrix command of a tensor for tile 1, whose generators are seeded. -/
def stTile (op : Nat) (x : CmdArgs) (q : QueueId) (a b : Tid) : State :=
  let s := stTwoT op x q a b Tid.zero bytesA
  { s with cc := { s.cc with tiles := [(1, { Tile.zero with gens := List.replicate 128 5#32, seeded := true })] } }
theorem runningTile (op : Nat) (x : CmdArgs) (q : QueueId) (a b : Tid) :
    (stTile op x q a b).running? k0 = some ((stTile op x q a b).cc, cmdTwoT op x q a b Tid.zero) := by rfl
def xT (f : BitVec 31) : CmdArgs := { noArgs with tc := 1, fixed := f }

/-- For `MatrixTilesMultiplyLoadStoreAndScale`: an MMA form; an MLOAD at the edge of its tensor; an MSTORE of a last row of two elements;
an MSCALE by rows and columns; a TFETCH of one element with a scale. -/
theorem witness_tiles :
    (cmdTwoT 0x20 (xT 0) (.tileArray 1) (tidE 11 0 0 32 1 0 0) (tidE 11 0 0 32 1 0 0) Tid.zero).args = xT 0 ∧
    (let a := tidE 8 1 0 2 1 8 0
     let s := stTile 0x30 (xT 0) (.tileBank 1) a Tid.zero
     (cmdTwoT 0x30 (xT 0) (.tileBank 1) a Tid.zero Tid.zero).args = xT 0 ∧ ∃ v : Nat → Machine.Num, ∀ e, e < 16384 →
       (xT 0).p1.toNat + e % 128 < tidDim a 0 ∧ (xT 0).p0.toNat + e / 128 < tidDim a 1 →
       readValue s s.cc.lease s.cc.extn a s.cc.fz ((xT 0).p1.toNat + e % 128) ((xT 0).p0.toNat + e / 128) = (.ok (v e), s)) ∧
    (let a := tidE 8 1 0xFFF8 2 1 8 0
     let s := stTile 0x31 (xT 0) (.tileBank 1) a Tid.zero
     (cmdTwoT 0x31 (xT 0) (.tileBank 1) a Tid.zero Tid.zero).args = xT 0 ∧ (s.cc.tile 1).gens.length = 128 ∧ contElems (tidFmt a) = 1 ∧ tidSfmt a = 0 ∧
     tidDim a 1 ≤ (xT 0).p0.toNat + 1 ∧ MemoryOk s ∧ fmtBits (tidFmt a) / 8 = 4 ∧ min 128 (tidDim a 0 - (xT 0).p1.toNat) = 2 ∧
     (∀ j, j < 2 → InExt s s.cc (tidExt a) (rowOff a 0 0 0 + 4 * j) 4 .w (0x20FFF8 + 4 * j)) ∧ Unwatched s 0x20FFF8 8) ∧
    (let a := tidE 8 0 0 128 1 0 0
     let x := xT 0x00C00000
     let s := stTile 0x32 x (.tileBank 1) a a
     (cmdTwoT 0x32 x (.tileBank 1) a a Tid.zero).args = x ∧ (s.cc.tile 1).gens.length = 128 ∧ x.bit 87 = true ∧ x.bit 86 = true ∧
     ∃ rf : Nat → Nat, ∀ i, i < 128 → readElem s s.cc.lease s.cc.extn a (x.p0.toNat + i) 0 = (.ok (rf i), s)) ∧
    (let a := tidE 11 1 0 1 1 32 1
     let s := stTile 0x15 (xT 0) (.tileFetch 1) a Tid.zero
     (cmdTwoT 0x15 (xT 0) (.tileFetch 1) a Tid.zero Tid.zero).args = xT 0 ∧ MayLand s.cc (cmdTwoT 0x15 (xT 0) (.tileFetch 1) a Tid.zero Tid.zero) ∧
     9 ≤ tidFmt a ∧ tidFmt a ≤ 14 ∧ tidSfmt a = 1 ∧ SMap.risesFrom 0 ((s.cc.tile 1).side 0) = true ∧
     ∃ v sc : Nat → Nat → Nat,
      (∀ m j, m < 128 → j < 32 → j < tidDim a 0 ∧ m < tidDim a 1 → readElem s s.cc.lease s.cc.extn a j m = (.ok (v m j), s)) ∧
      (∀ m g, m < 128 → g < 1 → 32 * g < tidDim a 0 ∧ m < tidDim a 1 → readScale s s.cc.lease s.cc.extn a (32 * g) m = (.ok (sc m g), s))) := by
  refine ⟨by decide, ⟨by decide, fun e => ?_, ?_⟩, ⟨by decide, by decide, by decide, by decide, by decide,
    by simp only [MemoryOk]; decide, by decide, by decide, ?_, unwatched_of_empty rfl rfl _ _⟩, ⟨by decide, by decide, by decide, by decide,
    fun i => leNat (memBytes (memPuts [] 0x200000 bytesA) (0x200000 + i * 4) 4) / 2 ^ 0 % 2 ^ 32, ?_⟩,
    by decide, ?_, by decide, by decide, by decide, by decide, fun _ _ => 1, fun _ _ => ?_, ?_, ?_⟩
  · exact if e = 0 then decodeNum 8 false 0x04030201 else decodeNum 8 false 0x08070605
  · intro e he h
    have h1 : tidDim (tidE 8 1 0 2 1 8 0) 0 = 2 := by decide
    have h2 : tidDim (tidE 8 1 0 2 1 8 0) 1 = 1 := by decide
    have h3 : (xT 0).p1.toNat = 0 := by decide
    have h4 : (xT 0).p0.toNat = 0 := by decide
    have h5 : e = 0 ∨ e = 1 := by omega
    rcases h5 with rfl | rfl <;> rfl
  · intro j hj
    have h5 : j = 0 ∨ j = 1 := by omega
    rcases h5 with rfl | rfl
    · exact inExtA rfl rfl 0xFFF8 4 .w (by rfl) (by decide) (by decide)
    · exact inExtA rfl rfl 0xFFFC 4 .w (by rfl) (by decide) (by decide)
  · intro i hi
    have h := readA (s := stTile 0x32 (xT 0x00C00000) (.tileBank 1) (tidE 8 0 0 128 1 0 0) (tidE 8 0 0 128 1 0 0))
      (r := (stTile 0x32 (xT 0x00C00000) (.tileBank 1) (tidE 8 0 0 128 1 0 0) (tidE 8 0 0 128 1 0 0)).cc) rfl rfl rfl (i * 4) 4 (by decide)
      (by omega) (by omega)
    have h0 : rowOff (tidE 8 0 0 128 1 0 0) 0 0 0 = 0 := by decide
    have h3 : (xT 0x00C00000).p0.toNat = 0 := by decide
    have h4 : tidExt (tidE 8 0 0 128 1 0 0) = 0 := by decide
    have h5 : tidFmt (tidE 8 0 0 128 1 0 0) = 8 := by decide
    have h6 : elemPos 8 i = (i * 4, 0) := rfl
    have h7 : contBytes 8 = 4 := rfl
    have h8 : fmtBits 8 = 32 := rfl
    unfold readElem
    simp only [h0, h3, h4, h5, h6, h7, h8, Nat.zero_add, h]
    rfl
  · intro d hd
    simp [stTile, stTwoT, stCmd, stT, State.modCc] at hd
    subst hd
    intro h
    exact absurd h (by decide)
  · exact 0
  · intro m j hm hj h
    have h1 : tidDim (tidE 11 1 0 1 1 32 1) 0 = 1 := by decide
    have h2 : tidDim (tidE 11 1 0 1 1 32 1) 1 = 1 := by decide
    obtain ⟨rfl, rfl⟩ : m = 0 ∧ j = 0 := by omega
    rfl
  · intro m g hm hg h
    have h2 : tidDim (tidE 11 1 0 1 1 32 1) 1 = 1 := by decide
    obtain ⟨rfl, rfl⟩ : m = 0 ∧ g = 0 := by omega
    rfl

/-- A peer extent of device 5, window 2. -/
def extP : Extent := ⟨1, true, true, false, 0x40000000, 0x10000, [⟨0x40000000, 0x10000, 3#8, 1, 0⟩], some ⟨5, 2, 9#64, true, true, true⟩⟩
def withP (s : State) : State := { s with cc := { s.cc with lease := extA :: extP :: (placedRun Run.reset).lease, extn := 2 } }
/-- An element count, a scope and the fixed field. -/
def xC (n : Nat) (scope : BitVec 3) (fixed : BitVec 31) : CmdArgs := { noArgs with p1 := BitVec.ofNat 32 n, scope := scope, fixed := fixed }
def stColl (op : Nat) (x : CmdArgs) (q : QueueId) (a c : Tid) : State := stTwoT op x q a Tid.zero c bytesA
def cmdColl (op : Nat) (x : CmdArgs) (q : QueueId) (a c : Tid) : Cmd := cmdTwoT op x q a Tid.zero c

/-- For `CollectiveAndSignalCommandsSend`, CRED and CONTRIB: no element, one element on a path that is open and one that is not, two
elements to a switch. -/
theorem witness_collectives :
    ((cmdColl 0x38 (xC 0 5 0) .coll (tidE 8 0 0 9 1 0 0) Tid.zero).args.p1 = 0#32) ∧
    (∀ scope ∈ [2, 5], let a := tidE 8 0 0 2 1 0 0
     let c := tidE 8 0 0xFFFC 1 1 0 0
     let s := stColl 0x39 (xC 1 scope 0) .coll a c
     (cmdColl 0x39 (xC 1 scope 0) .coll a c).args = xC 1 scope 0 ∧ tidFmt a ∈ [2, 6, 8] ∧
     (∃ v, readElem s s.cc.lease s.cc.extn a 0 0 = (.ok v, s)) ∧ extentOf s.cc.lease s.cc.extn (tidExt c) = some extA ∧
     covered s.cc.lease (extA.base + (tidOffset c + 4 * 0)) 4 .w = .ok extA ∧ extA.place (extA.base + (tidOffset c + 4 * 0)) = .phys 0x20FFFC 3#8 ∧
     (pathRefuses s (.phys 0x20FFFC 3#8) (xC 1 scope 0).scope.toNat false = none ↔ scope = 2) ∧ Unwatched s 0x20FFFC 4 ∧ MemoryOk s) ∧
    (let a := tidE 8 0 0 2 1 0 0
     let c := vec8 [BitVec.ofNat 64 (2 ^ 63 + 8 * 2 ^ 57 + 2 ^ 51 + 0x100), 0x0000000100000009#64, 0x0000000100000001#64]
     let s := { withP (stColl 0x38 (xC 2 5 0) .coll a c) with groups := [(0, 0x0012345678900000#64)] }
     s.running? k0 = some (s.cc, cmdColl 0x38 (xC 2 5 0) .coll a c) ∧ (cmdColl 0x38 (xC 2 5 0) .coll a c).args = xC 2 5 0 ∧
     bit (SMap.get 0#64 s.groups 0) 62 = false ∧ extentOf s.cc.lease s.cc.extn (tidExt c) = some extP ∧
     (xC 2 5 0).fc = false ∧
     (∀ i, i < 2 → ∃ e, covered s.cc.lease (extP.base + (tidOffset c + 4 * 0) + 4 * i) 4 .w = .ok e) ∧ extP.place (extP.base + tidOffset c) = .peer ⟨5, 2, 9#64, true, true, true⟩ 0x40000100 ∧
     ∃ v : Nat → Machine.Num, ∀ i, i < 2 → readValue s s.cc.lease s.cc.extn a s.cc.fz (0 + i) 0 = (.ok (v i), s)) := by
  refine ⟨by decide, ?_, by rfl, by decide, by decide, by rfl, by decide, ?_, by rfl, fun i => ?_, ?_⟩
  · intro scope h
    fin_cases h <;> exact ⟨by decide, by decide, ⟨_, rfl⟩, by rfl, by rfl, by rfl, by decide, unwatched_of_empty rfl rfl _ _,
      by simp only [MemoryOk]; decide⟩
  · intro i hi
    have h5 : i = 0 ∨ i = 1 := by omega
    rcases h5 with rfl | rfl <;> exact ⟨extP, by rfl⟩
  · exact if i = 0 then decodeNum 8 false 0x04030201 else decodeNum 8 false 0x08070605
  · intro i hi
    have h5 : i = 0 ∨ i = 1 := by omega
    rcases h5 with rfl | rfl <;> rfl

/-- A GQPOST at site 0, of whose tags the first n are taken. -/
def cmdGq : Cmd := { cmdOf (packCmd 0x48 noArgs) .guest .started with words := [500#64] }
def stGq (n : Nat) : State := { stCmd (packCmd 0x48 noArgs) .guest .started (fun c => { c with words := [500#64] }) with
  guests := [(0, ⟨true, (List.range n).map fun i => (i, ⟨.none, [], some 3, none, false, false, [], 0, false⟩)⟩)] }
/-- For the same statement: a SIGNAL to a word it can reach and one it cannot; an ARRIVEC with an earlier command and without; a WAITC; a
GQPOST whose site has one tag left, none, or is absent. -/
theorem witness_signals :
    (∀ scope ∈ [2, 5], let c := tidE 7 0 0x100 2 1 0 0
     let s := stColl 0x40 (xC 7 scope 0) .sync Tid.zero c
     (cmdColl 0x40 (xC 7 scope 0) .sync Tid.zero c).args = xC 7 scope 0 ∧ fmtBits (tidFmt c) / 8 = 8 ∧
     extentOf s.cc.lease s.cc.extn (tidExt c) = some extA ∧ coveredRW s.cc.lease (extA.base + (tidOffset c + 8 * 0)) 8 true true = .ok extA ∧
     extA.place (extA.base + (tidOffset c + 8 * 0)) = .phys 0x200100 3#8 ∧ (scope = 5 → pathRefuses s (.phys 0x200100 3#8) 5 true ≠ none) ∧
     (scope = 2 → ReachableWord s s.cc (cmdColl 0x40 (xC 7 scope 0) .sync Tid.zero c) (tidOffset c + 8 * 0) 8 true 0x200100 3#8)) ∧
    (let c := { cmdColl 0x41 (xC 0 3 0) .sync Tid.zero Tid.zero with id := 1 }
     let d := { cmdColl 0x10 (xC 0 3 0) .copy Tid.zero Tid.zero with phase := .waiting }
     let s := stT.modCc fun r => { r with cmds := [d, c], nextId := 2 }
     s.running? ⟨hA, 1⟩ = some (s.cc, c) ∧ (∃ d ∈ s.cc.cmds, d.id < c.id ∧ d.queue ≠ .sync ∧ d.queue ≠ .guest) ∧ s.cc.ending = none) ∧
    (∀ op ∈ [0x41, 0x42], let t := tidE 4 1 0x100 64 5 64 0
     let s := stColl op (xC 0 3 0) .sync Tid.zero t
     let c := cmdColl op (xC 0 3 0) .sync Tid.zero t
     c.args = xC 0 3 0 ∧ (∀ d ∈ s.cc.cmds, d.id < c.id → d.queue = .sync ∨ d.queue = .guest) ∧ s.cc.ending = none ∧
     ReachableWord s s.cc c (tidOffset t + 0 * tidStride t 1) 40 false 0x200100 3#8) ∧
    (let s (n : Nat) : State := stGq n
     (s 255).running? k0 = some ((s 255).cc, cmdGq) ∧ (s 255).cc.ending = none ∧ ((s 255).guest 0).present = true ∧
     (∀ e ∈ ((s 255).guest 0).tags, e.2.saved = false) ∧ bits (tw cmdGq.words 0) 31 0 ≠ 0 ∧ LowestFree ((s 255).guest 0) 255 ∧
     (∀ j, j < 256 → SMap.get? ((s 256).guest 0).tags j ≠ none) ∧ ({ s 0 with guests := [] }.guest 0).present = false) := by
  refine ⟨?_, ⟨by rfl, by decide, by decide⟩, ?_, by rfl, by decide, by decide, by decide, by decide, ⟨by decide, by decide, by decide⟩, by decide,
    by decide⟩
  · intro scope h
    fin_cases h
    · exact ⟨by decide, by decide, by rfl, by rfl, by rfl, fun h => absurd h (by decide), fun _ => ⟨_, _, by rfl, by rfl, by rfl, by decide⟩⟩
    · exact ⟨by decide, by decide, by rfl, by rfl, by rfl, fun _ => by decide, fun h => absurd h (by decide)⟩
  · intro op h
    fin_cases h <;> exact ⟨by decide, by decide, by decide, _, _, by rfl, by rfl, by rfl, by decide⟩

/-- A contribution that waits in group 3 for its partial or its acknowledgement. -/
def conA (resid : List (Nat × W32)) : Contrib :=
  ⟨k0, ⟨3, 7#16, 0x0014080000000100#64, 4#64⟩, 2#2, [1#32, 2#32], 0, resid, ⟨5, 2, 9#64, true, true, true⟩⟩
def msgA : RingMsg := ⟨2#2, 3, 0#12, 7#16, 0x0014080000000100#64, 4#64, 2#64, [0x3F800000#32, 0#32]⟩
/-- One of 65 elements, and its first partial. -/
def conL : Contrib := { conA [] with q := List.replicate 65 1#32 }
def msgL : RingMsg := { msgA with total := 65#64, vals := List.replicate 64 0#32 }
/-- A state with that contribution, in a ring whose last rank is this one or another, or through a switch at a port. -/
def stCon (resid : List (Nat × W32)) (group : W64) : State :=
  { stCmd (packCmd 0x38 { noArgs with fixed := 0x30000#31 }) .coll .started (fun d => { d with step := 1 }) with
    contribs := [conA resid], groups := [(3, group)] }
def cmdCon : Cmd := { cmdOf (packCmd 0x38 { noArgs with fixed := 0x30000#31 }) .coll .started with step := 1 }
theorem endsAloneBut_stCon : EndsAloneBut (stCon [] 0x0140000000000000#64) cmdCon := by
  refine ⟨rfl, recA, ?_⟩
  decide

/-- For `MessagesOfOtherDevicesAndHostsAreServed`: a SIGNAL at its home; an acknowledgement nobody waits for, one with a status and one
that writes a residual; a ring partial that meets its contribution, whole or in part, one that does not agree with it, one whose result is
for this device, one of a rank the group has not, one that meets none, and a full hold. -/
theorem witness_homes_acks_and_rings :
    (∀ z, let s := { stCmd (packCmd 0x40 noArgs) .sync .started id with
        homes := [⟨homeDie 0x200000, 0x200000, z, true, .sigop 4 1#64 5, .cmd k0⟩] }
     s.run? k0.task = some s.cc ∧ (∀ y ∈ s.heldOps, y.pa ≠ 0x200000) ∧ Unwatched s 0x200000 (wordLen z) ∧ MemoryOk s) ∧
    stT.contribs.find? (fun d => decide (d.k = k0)) = none ∧
    (∀ resid ∈ [[], [(0x20FFFC, 5#32)]], let s := stCon resid 0#64
     s.contribs.find? (fun d => decide (d.k = k0)) = some (conA resid) ∧ s.run? k0.task = some s.cc ∧ s.cc.cmd? k0.id = some cmdCon ∧
     covered s.cc.lease 0x20FFFC 4 .w = .ok extA ∧ FlatAt extA 0x20FFFC 4 0x20FFFC ∧ Unwatched s 0x20FFFC 4 ∧ MemoryOk s) ∧
    (∀ grp ∈ [0x4000005004002C00#64, 0x4000004004002C00#64],
     let s := stCon [] grp
     ¬ (bit grp 63 = true ∧ bits grp 47 36 < msgA.rank.toNat) ∧ s.rings.length < 64 ∧ s.contribs = [conA []] ∧ RingPair (conA []) msgA ∧
     (conA []).resid = [] ∧ RingSame (conA []) msgA ∧ ¬ RingSame (conA []) { msgA with total := 3#64 } ∧
     (conA []).q.length ≤ (conA []).sent + msgA.vals.length ∧
     (bits grp 35 24 = bits grp 47 36 ↔ grp = 0x4000004004002C00#64) ∧ bits msgA.dest 63 50 ≠ s.dev.devno.toNat ∧
     ∀ q ∈ s.contribs, ¬ RingPair q { msgA with epoch := 8#16 }) ∧
    (RingPair conL msgL ∧ RingSame conL msgL ∧ conL.sent + msgL.vals.length < conL.q.length) ∧
    (let s := { stCon [] 0x4000004004002C00#64 with dev := { stT.dev with devno := 5, imptab := 0x5000 }
                                                    mem := memPuts [] 0x5040 (wordsBytes [0xE000000000200000#64, 0x200#64, 9#64, 5#64]) }
     bits msgA.dest 63 50 = s.dev.devno.toNat ∧ ImportLets s s.dev.devno.toNat (bits msgA.dest 49 42) (bits msgA.dest 41 0) 8 false true false
       (conA []).win.key 0x200100 ∧ Unwatched s 0x200100 8 ∧ MemoryOk s) ∧
    (bit 0xC000005004002C00#64 63 = true ∧ bits 0xC000005004002C00#64 47 36 < ({ msgA with rank := 6 } : RingMsg).rank.toNat) ∧
    (64 ≤ { stCon [] 0#64 with rings := List.replicate 64 msgA }.rings.length) := by
  refine ⟨?_, by decide, ?_, ?_, by simp only [RingPair, RingSame]; decide,
    ⟨by decide, by simp only [ImportLets]; decide, unwatched_of_empty rfl rfl _ _, by simp only [MemoryOk]; decide⟩, by decide, by decide⟩
  · intro z
    exact ⟨by rfl, noneHeld _, unwatched_of_empty rfl rfl _ _, by simp only [MemoryOk]; decide⟩
  · intro resid h
    fin_cases h <;> exact ⟨by rfl, by rfl, by rfl, by rfl, flatA _ _ (by decide) (by decide), unwatched_of_empty rfl rfl _ _,
      by simp only [MemoryOk]; decide⟩
  · intro grp h
    fin_cases h <;> exact ⟨by decide, by decide, by rfl, by simp only [RingPair]; decide, by rfl,
      by simp only [RingSame]; decide, by simp only [RingSame]; decide, by decide, by decide, by decide, by simp only [RingPair]; decide⟩

/-- An import entry for window 0: 64 bytes at 0x200000, reads and writes, device 3, key 7. -/
def stImp (linken : Bool) : State :=
  { stT with mem := memPuts [] 0x5000 (wordsBytes [0xE000000000200000#64, 64#64, 7#64, 3#64]), dev := { stT.dev with linken := linken, imptab := 0x5000 } }
def peerA (off : Nat) (op : PeerOp) : PeerMsg := ⟨3, 1, 0, off, 7#64, false, op⟩

theorem importLen : (readImport (stImp true) 0).len = 64 := by decide

/-- For the same statement: links off and on; each message at the last place the entry lets it go, and one past it; a refused access of
the task in turn and of no task; a port that loses a contribution and one that does not; host bytes at the end of memory. -/
theorem witness_peers_and_hosts :
    (stImp false).dev.linken = false ∧ (stImp true).dev.linken = true ∧
    (∀ e ∈ [(56, PeerOp.read 8), (61, .write [1#8, 2#8, 3#8]), (56, .atom 0 true 5#64 0#64), (60, .sig 2 false 7#64),
        (56, .atomr 3 1 2#64), (24, .binit false 1#32 0 0), (24, .binit true 1#32 0 64), (24, .binv), (24, .arrive), (24, .testph 0#64), (24, .waitph 0#64),
        (60, .watch 1 false 7#64 7#64), (56, .futrd true), (60, .futwr false 7#64), (24, .arrivec none 0#8 false), (24, .waitc 0#64),
        (60, .cred 0 8 0 false false 1#32)],
      let n := peerNeed (peerA e.1 e.2).op
      ImportLets (stImp true) 3 0 e.1 n.1 n.2.1 n.2.2 false 7#64 (0x200000 + e.1) ∧ Unwatched (stImp true) (0x200000 + e.1) n.1 ∧ MemoryOk (stImp true) ∧
      ∀ pa, ¬ ImportLets (stImp true) 3 0 (e.1 + 1) n.1 n.2.1 n.2.2 false 7#64 pa) ∧
    ImportLets (stImp true) 3 0 0 64 false true false 7#64 0x200000 ∧ (∀ pa, ¬ ImportLets (stImp true) 3 0 1 64 false true false 7#64 pa) ∧
    stT.run? 77#64 = none ∧ stT.task? 77#64 = none ∧ stT.cc.task = hA ∧ EndsAlone stT ∧
    (let s := stCon [] 0x0140000000000000#64
     bits (SMap.get 0#64 s.groups (conA []).key.group.toNat) 61 54 = 5 ∧ bit (SMap.get 0#64 s.groups (conA []).key.group.toNat) 62 = false ∧
     (conA []).k = ⟨s.cc.task, cmdCon.id⟩ ∧ opCmd cmdCon.word = 0x38 ∧ EndsAloneBut s cmdCon) ∧
    (hbmSize - 2 + [1#8, 2#8].length ≤ hbmSize ∧ farBase ≤ farEnd - 2 ∧ farEnd - 2 + [1#8, 2#8].length ≤ farEnd ∧ Unwatched stT (hbmSize - 2) 2 ∧ MemoryOk stT) := by
  refine ⟨by decide, by decide, ?_, by simp only [ImportLets]; decide, ?_, by decide, by decide, by decide, endsAlone_stT, ⟨by decide, by decide, by decide, by decide, endsAloneBut_stCon⟩,
    by decide, by decide, by decide, unwatched_of_empty rfl rfl _ _, by simp only [MemoryOk]; decide⟩
  · intro e h
    have hw : ∀ pa n, Unwatched (stImp true) pa n := fun pa n => unwatched_of_empty rfl rfl _ _
    fin_cases h <;>
    · refine ⟨by simp only [ImportLets]; decide, hw _ _, by simp only [MemoryOk]; decide, fun pa hp => ?_⟩
      have := hp.2.2.2.2.2.1
      rw [importLen] at this
      simp [peerA, peerNeed, wordLen] at this
  · intro pa hp
    have := hp.2.2.2.2.2.1
    rw [importLen] at this
    omega

/-- The two extents of a queue: its ring and the page of its RDPTR. -/
def extQ : Extent := ⟨0, true, false, false, 0x200000, 0x1000, [⟨0x200000, 0x1000, 3#8, 0, 0x200000⟩], none⟩
def extR : Extent := ⟨1, true, true, false, 0x203000, 0x1000, [⟨0x203000, 0x1000, 3#8, 0, 0x203000⟩], none⟩
/-- A queue of 1 KiB. -/
def queueA : Queue := ⟨0x200000, .active, 10, 0, 3, 0, 0#64, 0#64, 0x203000, 0, [extQ, extR], false, []⟩
/-- A state in mode OPERATIONAL with that queue as number 4, and bytes at the start of its ring. -/
def stQ (q : Queue) (bs : List Byte) : State :=
  { withTables stT with mem := memPuts tables 0x200000 bs, queues := [(4, q)], dev := { stT.dev with mbcmd := 0x4000, mbidx := 0x5000, mbrsp := 0x6000, part := .kg } }
/-- The same with the response ring full. -/
def noRoom (s : State) : State := { s with mbox := { s.mbox with resp := 256, respRead := 0 } }
/-- A header: lap mark, type, further units. -/
def hdrW (lap ty units : Nat) : W64 := BitVec.ofNat 64 (lap * 2 ^ 48 + ty * 2 ^ 44 + units * 2 ^ 32)
def bellQ (rd wr : Nat) : Queue := { queueA with rd := BitVec.ofNat 64 rd, wr := BitVec.ofNat 64 wr }

/-- For `QueuesFetchAndRunPackets`, doorbells and fetches: no queue; an index below WR, the last one of the ring, one unit past it and
one between units; a unit of the wrong lap; each kind of unit; one that runs past the ring. -/
theorem witness_doorbells_and_fetches :
    SMap.get? stT.queues 4 = none ∧
    (let s := noRoom (stQ (bellQ 64 128) [])
     SMap.get? s.queues 4 = some (bellQ 64 128) ∧ s.dev.st = 2 ∧ s.dev.mbcmd ≠ 0#64 ∧ s.dev.mbidx ≠ 0#64 ∧ (127#64 : W64).toNat < (bellQ 64 128).wr.toNat ∧
     (1088#64 : W64).toNat % 64 = 0 ∧ (1088#64 : W64).toNat ≤ (bellQ 64 128).rd.toNat + 2 ^ 10 ∧ (129#64 : W64).toNat % 64 ≠ 0 ∧
     (bellQ 64 128).rd.toNat + 2 ^ 10 < (1152#64 : W64).toNat ∧ s.mailRoom = false ∧ s.mbox.events.length < 1024) ∧
    (∀ lap ∈ [1, 2], let s := stQ (bellQ 960 1024) (List.replicate 960 0#8 ++ wordsBytes [hdrW lap 0 0])
     SMap.get? s.queues 4 = some (bellQ 960 1024) ∧ (bellQ 960 1024).pins[0]? = some extQ ∧
     extQ.place ((bellQ 960 1024).base + (bellQ 960 1024).rd.toNat % 2 ^ 10) = .phys 0x2003C0 3#8 ∧
     badIn s extQ ((bellQ 960 1024).base + (bellQ 960 1024).rd.toNat % 2 ^ 10) 64 = none ∧
     (bits (tw (memWords s.mem 0x2003C0 8) 0) 63 48 = (bellQ 960 1024).rd.toNat / 2 ^ 10 % 65535 + 1 ↔ lap = 1) ∧
     (bellQ 960 1024).stale = false ∧ (bellQ 960 1024).st = .active ∧ (bellQ 960 1024).rd.toNat < (bellQ 960 1024).wr.toNat ∧
     (∀ y ∈ s.queues, startable s y.2 = none)) ∧
    ((bellQ 960 960).wr.toNat ≤ (bellQ 960 960).rd.toNat ∧ { bellQ 960 1024 with stale := true }.stale = true) ∧
    (∀ e ∈ [(0, Instr.pktNop ⟨4, 0⟩), (3, .pktBarrier ⟨4, 0⟩), (4, .pktSignal ⟨4, 0⟩)],
      let s := stQ (bellQ 0 64) (wordsBytes [hdrW 1 e.1 0])
      let ws := memWords s.mem 0x200000 8
      bits (tw ws 0) 63 48 = 1 ∧ bits (tw ws 0) 37 32 = 0 ∧ bits (tw ws 0) 47 44 = e.1 ∧ extR.place (bellQ 0 64).rdptr = .phys 0x203000 3#8 ∧
      Unwatched s 0x203000 8 ∧ MemoryOk s ∧ (bellQ 0 64).packets = [] ∧ 0 < (bellQ 0 64).weight) ∧
    (let s := noRoom (stQ (bellQ 0 64) (wordsBytes [hdrW 1 0 16]))
     let ws := memWords s.mem 0x200000 8
     bits (tw ws 0) 63 48 = 1 ∧ 2 ^ 10 < 64 * (bits (tw ws 0) 37 32 + 1) ∧ s.mailRoom = false) := by
  refine ⟨by rfl, by decide, ?_, by decide, ?_, by decide⟩
  · intro lap h
    fin_cases h <;> exact ⟨by rfl, by rfl, by rfl, by decide, by decide, by decide, by decide, by decide, by decide⟩
  · intro e h
    fin_cases h <;> exact ⟨by decide, by decide, by decide, by rfl, unwatched_of_empty rfl rfl _ _, by simp only [MemoryOk]; decide, by rfl, by decide⟩

def r0 : PktRef := ⟨4, 64⟩
/-- A started packet of these words. -/
def pkt (ws : List W64) : Packet := ⟨64, ws ++ List.replicate (8 - ws.length) 0#64, true, [], 0#64, none⟩
def pktQ (p : Packet) : Queue := { bellQ 128 128 with packets := [p] }
/-- A state with that packet in its queue, and a double word at 0x200100. -/
def stPkt (p : Packet) (v : Nat) : State := stQ (pktQ p) (List.replicate 256 0#8 ++ leBytes 8 v)
theorem packetAt (p : Packet) (h : p.idx = 64) (v : Nat) : PacketAt (stPkt p v) r0 (pktQ p) p := by
  refine ⟨rfl, by simp [pktQ], h, ?_⟩
  intro x hx _
  simpa [pktQ] using hx
theorem mappedPkt (p : Packet) (v va n : Nat) (h3 : memW64 (stPkt p v).mem 0x1000 = 0x2001#64) (h2 : memW64 (stPkt p v).mem 0x2000 = 0x275#64)
    (l : 0x200000 ≤ va) (u : va + n ≤ 0x210000) : MappedFlat (stPkt p v) ctxA va n va := mapped h3 h2 va n l u
theorem readFlat {s : State} (h3 : memW64 s.mem 0x1000 = 0x2001#64) (h2 : memW64 s.mem 0x2000 = 0x275#64)
    (hb : s.err.bad = []) (va n : Nat) (u : va + n ≤ 0x210000) : ReadFlat s ctxA va n va := by
  intro i hi
  refine ⟨by simp [State.badAt, hb], 0x27#8, ?_⟩
  have hp := pageAt_tables h3 h2 (va + i) (by omega)
  have hv : ¬ (va + i) / 2 ^ 56 = 1 := by omega
  have hw : ¬ 2 ^ 57 ≤ va + i := by omega
  simp only [ctxPlace, ctxA, hv, hw, hp, Nat.sub_zero, Nat.zero_add]
  rfl
def tmplA : List W64 := [0x1400000000000005#64, 0x10000#64, 0#64, 0x200400#64]
/-- A LAUNCH whose template follows it. -/
def pktLaunchA (t : List W64) : Packet := pkt ([hdrW 1 1 3, 0, 0, 99, 0, 0, 0, 0] ++ t ++ List.replicate (24 - t.length) 0#64)

/-- For the same statement, packets: one of a wrong form; a NOP; a LAUNCH with a template in place, at an address and of a wrong form. -/
theorem witness_packets :
    (let p := pkt [hdrW 1 0 0 + 1]
     PacketAt (stPkt p 0) r0 (pktQ p) p ∧ p.started = true ∧ p.ended = none ∧ p.formOk = false) ∧
    (let p := pkt [hdrW 1 0 0]
     PacketAt (stPkt p 0) r0 (pktQ p) p ∧ p.formOk = true ∧ sigOk (stPkt p 0) (pktQ p).ctx p = true) ∧
    (let p := pktLaunchA tmplA
     PacketAt (stPkt p 0) r0 (pktQ p) p ∧ p.formOk = true ∧ sigOk (stPkt p 0) (pktQ p).ctx p = true ∧ p.w 2 = 0#64 ∧
     ∃ ws j, launchTemplate (stPkt p 0) (pktQ p) p = some (ws, stPkt p 0) ∧ launchOk (stPkt p 0) (pktQ p) ws = true ∧
       freeRecord (stPkt p 0) (launchDie (stPkt p 0) p) 0 recordsPerDie = some j) ∧
    (let p := pkt [hdrW 1 1 0, 0#64, 0x200000#64]
     PacketAt (stPkt p 0) r0 (pktQ p) p ∧ p.formOk = true ∧ p.w 2 ≠ 0#64 ∧ ∃ ws, launchTemplate (stPkt p 0) (pktQ p) p = some ws) ∧
    (let p := pktLaunchA [1#64, 2#64, 3#64]
     PacketAt (stPkt p 0) r0 (pktQ p) p ∧ p.formOk = true ∧ ∃ ws, launchTemplate (stPkt p 0) (pktQ p) p = some (ws, stPkt p 0) ∧ launchOk (stPkt p 0) (pktQ p) ws = false) ∧
    (let p := pkt [hdrW 1 1 0, 0#64, 0x40000000#64]
     PacketAt (stPkt p 0) r0 (pktQ p) p ∧ p.formOk = true ∧ launchTemplate (stPkt p 0) (pktQ p) p = none) ∧
    (let p := pkt ([hdrW 1 1 3, 0, 0, 99, 4, 0, 0, 0] ++ tmplA ++ List.replicate 20 0)
     let s := { stPkt p 0 with tasks := filled 0 65536 }
     PacketAt s r0 (pktQ p) p ∧ p.formOk = true ∧ launchDie s p = 0 ∧ freeRecord s 0 0 recordsPerDie = none) := by
  exact ⟨⟨packetAt _ rfl _, by decide, by decide, by decide⟩, ⟨packetAt _ rfl _, by decide, by decide⟩,
    ⟨packetAt _ rfl _, by decide, by decide, by decide, _, _, rfl, by decide, by rfl⟩,
    ⟨packetAt _ rfl _, by decide, by decide, Option.isSome_iff_exists.mp (by decide +kernel)⟩, ⟨packetAt _ rfl _, by decide, _, rfl, by decide⟩,
    ⟨packetAt _ rfl _, by decide, by decide⟩, packetAt _ rfl 0, by decide, by rfl, freeRecord_filled _ 65536 0 recordsPerDie rfl (by decide)⟩

/-- The slots of a BARRIER that name a signal. -/
def slotsOf (p : Packet) : List (Nat × Nat) := ((List.range 6).map fun i => (i, (p.w (i + 2)).toNat)).filter fun y => y.2 ≠ 0
/-- For the same statement: a COPY of adjacent ranges, one of a scope that is none and one to an address that is not mapped; a BARRIER of
no slot, a misaligned one, and one slot, the last, above, at and below 0. -/
theorem witness_copy_and_barrier_packets :
    (let p := pkt [hdrW 1 2 0, 0#64, 0x200040#64, 0x200060#64, 0x20#64, 3#64]
     PacketAt (stPkt p 0) r0 (pktQ p) p ∧ p.formOk = true ∧ bits (p.w 5) 2 0 = 3 ∧ ctxEnt (stPkt p 0) (pktQ p).ctx = ctxA ∧
     MappedFlat (stPkt p 0) ctxA (p.w 3).toNat (p.w 4).toNat 0x200060 ∧ ReadFlat (stPkt p 0) ctxA (p.w 2).toNat (p.w 4).toNat 0x200040 ∧
     (p.w 2).toNat + (p.w 4).toNat ≤ (p.w 3).toNat ∧ Unwatched (stPkt p 0) 0x200060 0x20 ∧ MemoryOk (stPkt p 0)) ∧
    (let p := pkt [hdrW 1 2 0, 0#64, 0x200040#64, 0x40000000#64, 0x20#64, 4#64]
     PacketAt (stPkt p 0) r0 (pktQ p) p ∧ p.formOk = true ∧ ¬ (bits (p.w 5) 2 0 = 3 ∨ bits (p.w 5) 2 0 = 5) ∧
     ctxPlace (stPkt p 0).mem ctxA (0x40000000 / 8 * 8 + 8 * 0) .w = none) ∧
    (let p := pkt [hdrW 1 3 0]
     PacketAt (stPkt p 0) r0 (pktQ p) p ∧ p.formOk = true ∧ slotsOf p = []) ∧
    (let p := pkt [hdrW 1 3 0, 0#64, 5#64]
     PacketAt (stPkt p 0) r0 (pktQ p) p ∧ p.formOk = true ∧ slotsOf p = [(0, 5)]) ∧
    (∀ e ∈ [(1, true), (0, false), (2 ^ 64 - 1, false)],
     let p := pkt [hdrW 1 3 0, 0#64, 0#64, 0#64, 0#64, 0#64, 0#64, 0x200100#64]
     PacketAt (stPkt p e.1) r0 (pktQ p) p ∧ p.formOk = true ∧ slotsOf p = [(5, 0x200100)] ∧
     ctxPlace (stPkt p e.1).mem ctxA 0x200100 .r = some (.phys 0x200100 0x27#8) ∧ (∀ x ∈ (pktQ p).packets, x.unit = p.unit → x = p) ∧
     decide (0 < (memW64 (stPkt p e.1).mem 0x200100).toInt) = e.2) := by
  refine ⟨⟨packetAt _ rfl _, by decide, by decide, by rfl, mappedPkt _ _ 0x200060 0x20 (by decide) (by decide) (by decide) (by decide),
    readFlat (by decide) (by decide) rfl 0x200040 0x20 (by decide), by decide, unwatched_of_empty rfl rfl _ _, by simp only [MemoryOk]; decide⟩,
    ⟨packetAt _ rfl _, by decide, by decide, by decide⟩, ⟨packetAt _ rfl _, by decide, by decide⟩, ⟨packetAt _ rfl _, by decide, by decide⟩, ?_⟩
  intro e h
  fin_cases h <;> exact ⟨packetAt _ rfl _, by decide, by decide, by decide, by decide, by decide⟩

/-- The same packet under tables whose leaf has no SA. -/
def noSa (s : State) : State := { s with mem := memPuts s.mem 0x2000 (leBytes 8 0x75) }
/-- For the same statement: a SIGNAL with the last operation and the first that is none, a misaligned word, one that is not mapped; a GUEST packet with and without a free slot; completions with and without a signal. -/
theorem witness_signal_packets :
    (∀ e ∈ [(4#64, 0x200104#64, true), (5#64, 0x200104#64, false), (0#64, 0x200102#64, false), (12#64, 0x200108#64, true)],
     let p := pkt [hdrW 1 4 0, 0#64, e.2.1, e.1, 77#64]
     let s := stPkt p 0
     PacketAt s r0 (pktQ p) p ∧ p.formOk = true ∧
     decide (bits (p.w 3) 2 0 < 5 ∧ (p.w 2).toNat % wordLen (bit (p.w 3) 3) = 0) = e.2.2 ∧
     (e.2.2 = true → WordAt s ctxA (p.w 2).toNat (p.w 2).toNat 0x27#8 ∧
       pathRefuses s (.phys (p.w 2).toNat 0x27#8) 4 (decide (bits (p.w 3) 2 0 ≤ 2)) = none)) ∧
    NoWord (stPkt (pkt []) 0) ctxA 0x40000000 := by
  simp only [WordAt, NoWord]
  refine ⟨?_, by decide⟩
  intro e h
  fin_cases h <;> exact ⟨packetAt _ rfl _, by decide, by decide, by decide⟩

theorem witness_guest_packet_and_complete :
    (let p := pkt ([hdrW 1 5 1, 0, 1] ++ List.replicate 5 0 ++ [500, 0, 0, 0, 4, 5, 6, 7])
     let s := { stPkt p 0 with guests := [(1, ⟨true, []⟩)] }
     PacketAt s r0 (pktQ p) p ∧ p.formOk = true ∧ s.dev.part.wired = true ∧ bits (tw ((p.words.drop 8).take 8) 0) 31 0 ≠ 0 ∧
     (s.guest 1).present = true ∧ guestSlotFree s (bits (p.w 2) 0 0) 0 = true ∧ LowestFree (s.guest (bits (p.w 2) 0 0)) 0 ∧
     ((stPkt p 0).guest 1).present = false ∧ { (stPkt p 0).dev with part := .k }.part.wired = false) ∧
    (∀ ok, ∀ sig ∈ [0, 0x200100], let p := { pkt [hdrW 1 0 0, BitVec.ofNat 64 sig] with ended := some ok }
     let s := stPkt p 0
     PacketAt s r0 (pktQ p) p ∧ s.queues = [(r0.q, pktQ p)] ∧ (pktQ p).packets = [p] ∧ (8 * bits (p.w 1) 56 3 = 0 ↔ sig = 0) ∧
     (sig ≠ 0 → WordAt s ctxA (8 * bits (p.w 1) 56 3) 0x200100 0x27#8)) := by
  simp only [WordAt]
  refine ⟨⟨packetAt _ rfl 0, by decide, by decide, by decide, by decide, by decide, ⟨by decide, by decide, fun j h => absurd h (by omega)⟩, by decide, by decide⟩, ?_⟩
  intro ok sig h
  fin_cases h <;> cases ok <;> exact ⟨packetAt _ rfl _, by rfl, by rfl, by decide, by decide⟩

/-- A mailbox command: code, sequence number, argument, words. -/
def cmdM (op arg : Nat) (ws : List W64) : List W64 :=
  let l := BitVec.ofNat 64 (op * 2 ^ 56 + 3 * 2 ^ 32 + arg) :: ws
  l ++ List.replicate (8 - l.length) 0#64
def toM (l : List W64) : MbCmd := ⟨tw l 0, tw l 1, tw l 2, tw l 3, tw l 4, tw l 5, tw l 6, tw l 7⟩
/-- A state with that command at the head of the ring. -/
def stMail (s : State) (l : List W64) : State := { s with
  dev := { s.dev with st := 2, linken := true, mbcmd := 0x4000, mbidx := 0x5000, mbrsp := 0x8000 }
  mbox := ⟨1, 0, 255, 0, [], 0, none⟩
  mem := memPuts s.mem (farBase + 0x4000) (wordsBytes l) }
theorem mailAt (s : State) (l : List W64) (i : Instr) (hi : mailInstr (bits (toM l).w0 63 56) = i) (hb : s.bars = []) (hv : s.vigils = [])
    (h : ((stMail s l).mailRoom = true ∧ [(toM l).w0, (toM l).w1, (toM l).w2, (toM l).w3, (toM l).w4, (toM l).w5, (toM l).w6, (toM l).w7] =
      memWords (stMail s l).mem (farBase + 0x4000) 8) ∧ Memory.wf (stMail s l).mem = true) : MailAt (stMail s l) i (toM l) :=
  ⟨h.1.1, by show 0 < 1; decide, h.1.2, hi, rfl, h.2, unwatched_of_empty hb hv _ _, unwatched_of_empty hb hv _ _,
    .inr (by show farBase + 0x5000 + 8 ≤ farBase + 0x8000 + 64 * (255 % 256); decide)⟩
def baseM : State := { stT with queues := [(4, queueA)] }
def mailS (l : List W64) : State := stMail { withTables baseM with queues := [(4, queueA)] } l
def regM (n : Nat) (base : W64) : List W64 := cmdM 0x01 n [base, BitVec.ofNat 64 (10 * 2 ^ 57 + 5 * 2 ^ 37), 0x204000#64]
def withPacket1 (started : Bool) : State := { stT with queues := [(4, { queueA with packets := [{ pkt [hdrW 1 0 0] with started := started }] })] }

/-- For `MailboxCommandsAnswerAndAct`, the doorbells: off and on, each bound of a write and the values past it; no room and no command. -/
theorem witness_mail_doorbells :
    stT.bellsOn = false ∧
    (let s := mailS (cmdM 0x12 0 [5])
     s.bellsOn = true ∧ (0#64 : W64).toNat < s.mbox.written ∧ s.mbox.consumed + 256 < (257#64 : W64).toNat ∧ s.mbox.written ≤ (1#64 : W64).toNat ∧
     (256#64 : W64).toNat ≤ s.mbox.consumed + 256 ∧ s.mailRoom = true ∧ s.mbox.resp < (256#64 : W64).toNat ∧ s.mbox.respRead ≤ (0#64 : W64).toNat ∧
     (255#64 : W64).toNat ≤ s.mbox.resp ∧ s.mbox.events = [] ∧ s.mailUp = true ∧ s.mbox.resp < (0#64 : W64).toNat + 256 ∧ s.mbox.consumed < s.mbox.written) ∧
    (let s := { mailS (cmdM 0x12 0 [5]) with mbox := ⟨1, 0, 256, 0, [], 0, none⟩ }
     s.mailRoom = false ∧ s.bellsOn = true ∧ (let s := { mailS (cmdM 0x12 0 [5]) with mbox := ⟨1, 1, 255, 1, [], 0, none⟩ }; s.mbox.written ≤ s.mbox.consumed)) ∧
    (stT.err.corr < 64 ∧ stT.cyc < stT.err.last + 2 ^ 30 ∧ stT.mailRoom = false ∧ stT.mbox.events.length < 1024 ∧
      64 ≤ { stT with err := ⟨64, 0, [], [], []⟩ }.err.corr) := by
  decide

/-- For the same statement, queues: the last queue number and the first that is none, a ring that is not aligned, a number in use; a queue
with a packet that has started and with one that has not; a weight of 255 and one of 256. -/
theorem witness_mail_queues :
    (let l := regM 131071 0x202000
     MailAt (mailS l) .regq (toM l) ∧ SMap.get? (mailS l).queues 131071 = none ∧ ∃ q, readQueue (mailS l) (toM l) = some q) ∧
    (∀ e ∈ [(131072, 0x202000), (7, 0x202200), (4, 0x202000)], let l := regM e.1 e.2
     MailAt (mailS l) .regq (toM l) ∧ (e.1 = 7 → readQueue (mailS l) (toM l) = none) ∧ (e.1 = 4 → SMap.get? (mailS l).queues 4 ≠ none)) ∧
    (∀ b, ∀ e ∈ [(0x02, Instr.unregq), (0x03, .resetq)], let l := cmdM e.1 4 [0x440]
     let s := stMail (withPacket1 b) l
     MailAt s e.2 (toM l) ∧ SMap.risesFrom 0 s.queues = true ∧ ∃ q p, SMap.get? s.queues 4 = some q ∧ q.packets = [p] ∧ p.started = b) ∧
    (∀ w ∈ [255, 256], let l := cmdM 0x04 4 [BitVec.ofNat 64 w]
     MailAt (mailS l) .setw (toM l) ∧ SMap.get? (mailS l).queues 4 = some queueA ∧ (bits (toM l).w1 7 0 = 0 ↔ w = 256)) := by
  refine ⟨⟨mailAt _ _ _ (by rfl) rfl rfl (by decide), by decide, Option.isSome_iff_exists.mp (by decide +kernel)⟩, ?_, ?_, ?_⟩
  · intro e h
    fin_cases h <;> exact ⟨mailAt _ _ _ (by rfl) rfl rfl (by decide), by decide +kernel, by decide⟩
  · intro b e h
    cases b <;> fin_cases h <;> exact ⟨mailAt _ _ _ (by rfl) rfl rfl (by decide), by decide, _, _, by rfl, by rfl, by rfl⟩
  · intro w h
    fin_cases h <;> exact ⟨mailAt _ _ _ (by rfl) rfl rfl (by decide), by rfl, by decide⟩

/-- For the same statement: PAGEIN; a RECALL that nothing holds and one the task in turn holds; an ENDTASK of no task, of a task with
another argument, of the task in turn and of one that is not dispatched. -/
theorem witness_mail_tasks :
    (let l := cmdM 0x10 0 [0x201000, 1]
     MailAt (stMail stT l) .pagein (toM l)) ∧
    (∀ a ∈ [0x20FFFF, 0x210000], let l := cmdM 0x11 0 [BitVec.ofNat 64 a, 1]
     let s := stMail { stT with tasks := [(0, { recA with ctx := 1 })] } l
     MailAt s .recall (toM l) ∧ (∀ e ∈ s.tasks, e.2.ctx ≠ 0) ∧ (∀ g ∈ s.guests, ∀ e ∈ g.2.tags, e.2.inval = none) ∧ s.runs = [] ∧ s.cc.task ≠ 0#64 ∧
     s.cc.ctx = 0 ∧ (leaseMeets s.cc.lease ((toM l).w1.toNat / 4096 * 4096) (4096 * (toM l).w2.toNat) = true ↔ a = 0x20FFFF) ∧ s.cc.preempt = false ∧
     s.cc.ending = none ∧ s.cc.region.running = false ∧ s.guests = []) ∧
    (∀ e ∈ [(0, 5#64), (1, hA), (0, hA)], let l := cmdM 0x12 e.1 [e.2]
     let s := stMail stT l
     MailAt s .endtask (toM l) ∧ ((s.task? (toM l).w1 = none ∨ e.1 ≠ bits (toM l).w1 31 0) ↔ e ≠ (0, hA)) ∧ (e = (0, hA) → (toM l).w1 = s.cc.task ∧ EndsAlone s)) ∧
    (let l := cmdM 0x12 1 [0x100000001#64]
     let s := stMail { stT with tasks := [(0, recA), (1, { recA with handle := 0x100000001#64, st := .waiting })] } l
     MailAt s .endtask (toM l) ∧ s.run? (toM l).w1 = none ∧ SMap.risesFrom 0 s.tasks = true ∧ s.queues = [] ∧ (∀ e ∈ s.tasks, e.2.arms = []) ∧
     ∃ x, s.task? (toM l).w1 = some x ∧ x.crec = 0#64 ∧ x.parent = 0#64) := by
  refine ⟨mailAt _ _ _ (by rfl) rfl rfl (by decide), ?_, ?_, mailAt _ _ _ (by rfl) rfl rfl (by decide), by decide, by decide, by decide, by decide, _, by rfl, by rfl, by rfl⟩
  · intro a h
    fin_cases h <;> exact ⟨mailAt _ _ _ (by rfl) rfl rfl (by decide), by decide⟩
  · intro e h
    fin_cases h
    · exact ⟨mailAt _ _ _ (by rfl) rfl rfl (by decide), by decide, fun h => absurd h (by decide)⟩
    · exact ⟨mailAt _ _ _ (by rfl) rfl rfl (by decide), by decide, fun h => absurd h (by decide)⟩
    · exact ⟨mailAt _ _ _ (by rfl) rfl rfl (by decide), by decide, fun _ => ⟨by decide, recA, by decide⟩⟩

/-- For the same statement: a LOADRTN of a routine that passes and of one that does not, and of the last context and the first that is
none; GROUPSET, READALM, POWER and ATTEST at their bounds; a code of no command. -/
theorem witness_mail_others :
    (∀ e ∈ [(0x00500513, true), (0x00642800, false)], let l := cmdM 0x20 0 [5, 0x200100]
     let s := stMail { withTables stT with mem := memPuts tables 0x200100 (leBytes 4 e.1) } l
     MailAt s .loadrtn (toM l) ∧ SMap.risesFrom 0 s.routines = true ∧ ReadFlat s (ctxEnt s 0) (toM l).w2.toNat 64 0x200100 ∧
     (let code := ((List.range 16).map fun i => memW32 s.mem (0x200100 + 4 * i)).takeWhile (· != 0#32)
      code.length = 1 ∧ (code.zipIdx.all fun c => rvOk c.1 c.2 code.length) = e.2)) ∧
    (∀ e ∈ [(0x20, 4096, 5, Instr.loadrtn), (0x21, 255, 7, .groupset), (0x21, 256, 7, .groupset), (0x22, 4, 0, .readalm), (0x22, 5, 0, .readalm),
        (0x22, 0, 0, .readalm), (0x22, 0, 1, .readalm), (0x30, 0, 1799, .power), (0x30, 0, 1800, .power), (0x30, 0, 3400, .power), (0x30, 0, 3401, .power),
        (0x31, 0, farEnd - farBase - 384, .attest), (0x31, 0, farEnd - farBase - 383, .attest), (0x77, 0, 0, .unknownCommand)],
      let l := cmdM e.1 e.2.1 [BitVec.ofNat 64 e.2.2.1]
      MailAt (stMail stT l) e.2.2.2 (toM l)) ∧
    (stMail stT (cmdM 0x22 0 [0])).alm.filter (fun e => e.almanacs.contains 0) = [winA] ∧
    farBase + (farEnd - farBase - 384) + 383 < farEnd ∧ farEnd ≤ farBase + (farEnd - farBase - 383) + 383 ∧
    Unwatched (stMail stT (cmdM 0x31 0 [])) (farBase + (farEnd - farBase - 384) + 64) 320 := by
  refine ⟨?_, ?_, by decide, by decide, by decide, unwatched_of_empty rfl rfl _ _⟩
  · intro e h
    fin_cases h <;> exact ⟨mailAt _ _ _ (by rfl) rfl rfl (by decide), by decide, readFlat (by decide) (by decide) rfl 0x200100 64 (by decide), by decide⟩
  · intro e h
    fin_cases h <;> exact mailAt _ _ _ (by rfl) rfl rfl (by decide)

/-- A tag of an owner; an extent whose pages guests may use. -/
def gA (own : Owner) : GTag := ⟨own, [1, 2, 3], none, none, false, false, [], 0, false⟩
def extG : Extent := ⟨0, true, true, false, 0x200000, 0x10000, [⟨0x200000, 0x10000, 0x83#8, 1, 0x200000⟩], none⟩
/-- A state with a GQPOST that site 1 works on under tag 7. -/
def stGuest (g : GTag) : State :=
  let s := stCmd (packCmd 0x48 noArgs) .guest .started (fun c => { c with step := 1 })
  { s with guests := [(1, ⟨true, [(7, g), (9, gA .none)]⟩)], dev := { stT.dev with part := .kg }
           cc := { s.cc with lease := extG :: (placedRun Run.reset).lease } }
def cmdG : Cmd := { cmdOf (packCmd 0x48 noArgs) .guest .started with step := 1 }
def g7 : GTag := gA (.cmd k0)
theorem liveG : LiveTag (stGuest g7) 1 7 g7 (.cmd k0) := ⟨by rfl, by rfl, by rfl, by decide, by rfl⟩
theorem flatG (ea n : Nat) (h : 0x200000 ≤ ea) (h' : ea + n ≤ 0x210000) (i : Nat) (hi : i < n) : ∃ attr, extG.place (ea + i) = .phys (ea + i) attr := by
  refine ⟨0x83#8, ?_⟩
  have h1 : 0x200000 ≤ ea + i := by omega
  have h2 : ea + i < 0x200000 + 0x10000 := by omega
  simp only [Extent.place, Extent.runAt, extG, List.find?]
  simp [h1, h2]

theorem saveArea_lt : saveArea 1 7 < 2 ^ 64 :=
  Nat.lt_of_lt_of_le (Nat.add_lt_add_right (Nat.mod_lt Config.saveArea (by decide)) _) (by decide)
theorem saveAccess (n : Nat) (h : n < 2 ^ 64) :
    (let a : GuestAcc := ⟨1, 7, BitVec.ofNat 64 n, 1, .write [5#8], true, false⟩
     a.va.toNat = n ∧ a.va.toNat % 128 + 1 ≤ 128 ∧ a.va.toNat + 1 ≤ n + 65536) := by
  have hv : (BitVec.ofNat 64 n).toNat = n := by rw [BitVec.toNat_ofNat, Nat.mod_eq_of_lt h]
  refine ⟨hv, ?_, ?_⟩
  · show (BitVec.ofNat 64 n).toNat % 128 + 1 ≤ 128
    omega
  · show (BitVec.ofNat 64 n).toNat + 1 ≤ n + 65536
    rw [hv]
    omega

/-- For `GuestSitesCompleteFaultSaveAndReset`, accesses: a tag in use and one that is free; the last line of the extent, a byte of the save
area, an access past the extent. -/
theorem witness_guest_accesses :
    LiveTag (stGuest g7) 1 7 g7 (.cmd k0) ∧ (∀ y own, ¬ LiveTag (stGuest g7) 1 8 y own) ∧ (∀ y own, ¬ LiveTag (stGuest g7) 1 9 y own) ∧
    (stGuest g7).run? k0.task = some (stGuest g7).cc ∧ g7.inval = none ∧
    (∀ right ∈ [Right.r, .w], covered (stGuest g7).cc.lease 0x20FF80 128 right = .ok extG) ∧ extG.gvOk 0x20FF80 128 = true ∧
    extG.place 0x20FF80 = .phys 0x20FF80 0x83#8 ∧ 0x20FF80 % 128 + 128 ≤ 128 ∧ Unwatched (stGuest g7) 0x20FF80 128 ∧ MemoryOk (stGuest g7) ∧
    (let a : GuestAcc := ⟨1, 7, BitVec.ofNat 64 (saveArea 1 7), 1, .write [5#8], true, false⟩
     a.va.toNat = saveArea 1 7 ∧ a.va.toNat % 128 + 1 ≤ 128 ∧ a.va.toNat + 1 ≤ saveArea 1 7 + 65536) ∧
    covered (stGuest g7).cc.lease 0x210000 1 .r = .error 1 ∧ (stGuest g7).cc.ending = none ∧ (stGuest g7).cc.cmds = [cmdG] ∧ opCmd cmdG.word = 0x48 ∧
    cmdG.queue = .guest ∧ cmdG.phase = .started ∧ cmdG.carrier = none := by
  refine ⟨liveG, ?_, ?_, by rfl, by rfl, ?_, by decide, by rfl, by decide, unwatched_of_empty rfl rfl _ _, by simp only [MemoryOk]; decide, ?_,
    by rfl, by rfl, by rfl, by decide, by rfl, by rfl, by rfl⟩
  · rintro y own ⟨h, -⟩
    have : SMap.get? ((stGuest g7).guest 1).tags 8 = none := by decide
    rw [this] at h
    cases h
  · rintro y own ⟨h, -, ho, hn, -⟩
    have : SMap.get? ((stGuest g7).guest 1).tags 9 = some (gA .none) := by decide
    rw [this] at h
    cases h
    exact hn ho.symm
  · intro right h
    fin_cases h <;> rfl
  · exact saveAccess _ saveArea_lt

/-- For the same statement: a completion; a fault of a task that ends alone; a freed and a live tag that is invalidated; a preempt request;
deadlines at their last cycle and one past it; an absent site that is authenticated. -/
theorem witness_guest_messages :
    EndsAloneBut (stGuest g7) cmdG ∧ (cmdG.args.fs = false) ∧
    (∀ own ∈ [Owner.none, .cmd k0], let g := { gA own with inval := some 4 }
     let s := stGuest g
     SMap.get? (s.guest 1).tags 7 = some g ∧ g.inval ≠ none ∧ SMap.risesFrom 0 (s.guest 1).tags = true ∧
     (∀ e ∈ { s with cyc := 6004 }.guests, ∀ y ∈ e.2.tags, ∀ c, y.2.inval = some c → 6004 ≤ c + 6000)) ∧
    (let g := { g7 with preempt := some 4 }
     let d := { cmdOf (packCmd 0x10 noArgs) .copy .done with id := 1 }
     let s := stGuest g
     let s := { s with cc := { s.cc with ending := some .preempt, cmds := [cmdG, d] }, cyc := 150004 }
     LiveTag s 1 7 g (.cmd k0) ∧ g.preempt ≠ none ∧ s.run? k0.task = some s.cc ∧ s.cc.ending = some .preempt ∧
     (∀ d ∈ s.cc.cmds, d.id ≠ k0.id → d.phase = .done) ∧
     (∀ e ∈ s.guests, ∀ y ∈ e.2.tags, ∀ c, y.2.preempt = some c → s.cyc ≤ c + 150000)) ∧
    (∀ own ∈ [Owner.none, .cmd k0], let g := { gA own with inval := some 4, preempt := some 4 }
     let s := { stGuest g with guests := [(1, ⟨true, [(7, g)]⟩)], cyc := 150005 }
     s.mailRoom = false ∧ s.mbox.events.length < 1024 ∧ 4 + 6000 < s.cyc ∧ 4 + 150000 < s.cyc ∧ (own = .cmd k0 → EndsAloneBut s cmdG)) ∧
    (let s := { stT with guests := [(1, ⟨false, [(7, gA .none)]⟩)], dev := { stT.dev with part := .kg } }
     s.dev.part.wired = true ∧ (s.guest 1).present = false ∧ s.dev.st = 2 ∧ s.mailRoom = false ∧ s.mbox.events.length < 1024) := by
  refine ⟨⟨by rfl, recA, by decide⟩, by decide, ?_, ⟨⟨by rfl, by rfl, by rfl, by decide, by rfl⟩, by decide, by rfl, by rfl, by decide, ?_⟩, ?_, by decide⟩
  · intro own h
    fin_cases h <;>
    · refine ⟨by decide, by decide, by decide, ?_⟩
      intro e he y hy c hc
      simp only [stGuest, List.mem_singleton] at he
      subst he
      simp [gA] at hy
      rcases hy with rfl | rfl <;> cases hc
      decide
  · intro e he y hy c hc
    simp only [stGuest, List.mem_singleton] at he
    subst he
    simp [gA, g7] at hy
    rcases hy with rfl | rfl <;> cases hc
    decide
  · intro own h
    fin_cases h
    · exact ⟨by decide, by decide, by decide, by decide, fun h => absurd h (by decide)⟩
    · exact ⟨by decide, by decide, by decide, by decide, fun _ => ⟨by rfl, recA, by decide⟩⟩

/-- For `BringUpLinksAndTemperature`: STATE 3 and another; links set and not; each side of the 1,024 slots. -/
theorem witness_bring_up :
    { stT with dev := { stT.dev with st := 3 } }.dev.st = 3 ∧ stT.dev.st ≠ 3 ∧ stT.dev.linken = false ∧
    { stT with dev := { stT.dev with linken := true } }.dev.linken = true ∧ stT.dev.hot = false ∧ stT.dev.thermCut = 0 ∧
    (∀ e ∈ [(1024, true), (1023, false)], let s := { stT with cyc := 64 * e.1, dev := { stT.dev with hot := true, thermCut := 16, hotSlot := 0 } }
     s.dev.hot = true ∧ (decide (s.dev.hotSlot + 1024 ≤ s.cyc / 64) = e.2)) := by
  decide

/-- For `EmptySourcesTrapAndAwaitedRegistersHold`: an awaited second source behind a full first one, and both awaited. -/
theorem witness_awaited_sources :
    ((withEmpty stA 3 true).cc.full 2 = true ∧ (withEmpty stA 3 true).cc.awaited 3 = true) ∧
    (let s := withEmpty (withEmpty stA 2 true) 3 true
     s.cc.awaited 2 = true ∧ s.cc.awaited 3 = true) := by decide

/-- A third context on the core of `stAB`; the second one cannot issue, for it waits for a register. -/
def runC : Run := { runA with task := 0x100000002#64, ctxn := 2, active := false }
def stABC : State := { stAB with runs := [{ runB with stall := 0, pauseTo := 100, ending := some .preempt }, runC] }

/-- For `PauseYieldAndSwitchShareTheCore`: the next context can issue; only the one after it can. -/
theorem witness_switch_order : ∀ s ∈ [stAB, stABC],
    (∀ x ∈ s.runs, x.task ≠ s.cc.task ∧ x.task ≠ 0#64) ∧ (∀ x ∈ s.runs, x.fc = s.cc.fc → x.ctxn ≠ s.cc.ctxn ∧ x.active = false) ∧
    (∀ x ∈ s.runs, x.active = true → x.yields = false ∧ x.ending = none) ∧
    (∀ x ∈ s.runs, x.active = false → x.fc = s.cc.fc ∨ ∃ y ∈ s.runs, y.active = true ∧ y.fc = x.fc) ∧
    (s = stAB → residentAt s 0 ((s.cc.ctxn + 1) % 3) = some runB ∧ runB.canIssue s.cyc = true) ∧
    (s = stABC → (∀ y, residentAt s 0 ((s.cc.ctxn + 1) % 3) = some y → y.canIssue s.cyc = false) ∧
      residentAt s 0 ((s.cc.ctxn + 2) % 3) = some runC ∧ runC.canIssue s.cyc = true) := by
  intro s hs
  fin_cases hs
  · exact ⟨by decide, by decide, by decide, by decide, fun _ => by decide, fun h => absurd h (by decide)⟩
  · refine ⟨by decide, by decide, by decide, by decide, fun h => absurd h (by decide), fun _ => ⟨?_, by decide, by decide⟩⟩
    intro y h
    have e : residentAt stABC 0 ((stABC.cc.ctxn + 1) % 3) = some { runB with stall := 0, pauseTo := 100, ending := some .preempt } := by rfl
    rw [show residentAt stABC 0 ((stABC.cc.ctxn + 1) % 3) = some y from h] at e
    cases e
    rfl

/-- For `LateDeliveryFillsItsRegister`: no access of the context waits, one that is on its way, and a context that ends. -/
theorem witness_delivery_accesses :
    (∀ a, (stFlight true).cc.accs.head? = some a → a.sent = true) ∧
    (let s := (stFlight true).modCc fun r => { r with accs := [⟨0, 0x200000#64, 0#64, .flush, true⟩] }
     ∀ a, s.cc.accs.head? = some a → a.sent = true) ∧
    ((stFlight true).modCc fun r => { r with ending := some .preempt }).cc.ending ≠ none := by
  refine ⟨by decide, ?_, by decide⟩
  intro s a h
  cases h
  rfl

/-- For `FenceAndFlushOrderAndChangeNothing`: a load and a store behind an access that is not yet performed. -/
theorem witness_ordered_accesses :
    let s := withReg (stA.modCc fun r => { r with accs := [⟨0, 0x200000#64, 0#64, .flush, false⟩], nextId := 1 }) 2 0x210000
    CoreAccess s (.ld 1 2 false 3 (-8#13)) 2 (addrOf s 2 (-8#13 : BitVec 13)) (2 ^ (3#2 : BitVec 2).toNat) .r [2] ∧ Ready s [2] ∧ Free s 1 ∧
    CoreAccess s (.st 3 2 false false 3 (-8#12)) 2 (addrOf s 2 (-8#12 : BitVec 12)) (2 ^ (3#2 : BitVec 2).toNat) .w [2, 3] ∧ Ready s [2, 3] ∧
    (addrOf s 2 (-8#13 : BitVec 13)).toNat % 8 = 0 ∧ covered s.cc.lease (addrOf s 2 (-8#13 : BitVec 13)).toNat 8 .r = .ok extA ∧
    covered s.cc.lease (addrOf s 2 (-8#12 : BitVec 12)).toNat 8 .w = .ok extA ∧ ccBusy s = true := by
  refine ⟨.ld .., by simp only [Ready]; decide, by simp only [Free]; decide, .st .., by simp only [Ready]; decide, by decide, by rfl, by rfl, by decide⟩

/-- For `SynchronisationSendsItsOperation`: a WATCH that waits for its entry. -/
theorem witness_watch_waits :
    let s := { stA with cc := { runA with accs := [⟨0, 0x200000#64, runA.pc, .sync true (.watch 9 0#64 0#64) 2 8 true false, true⟩] } }
    ∃ x ∈ s.cc.accs, x.pc = s.cc.pc ∧ ∃ y cmp mask v sc n nr nw, x.kind = .sync y (.watch cmp mask v) sc n nr nw :=
  ⟨_, List.mem_singleton.mpr rfl, rfl, _, _, _, _, _, _, _, _, rfl⟩

/-- For `AtomicsUpdateTheirWordOnce`: CAS at scope .fc, whose rd holds the value to compare. -/
theorem witness_cas_at_fc : (9#4 : BitVec 4).toNat ≤ 9 ∧ (withReg stA 2 0x20FFFC).cc.full 1 = true ∧ Free (withReg stA 2 0x20FFFC) 1 := by
  refine ⟨by decide, by decide, by simp only [Free]; decide⟩

/-- For `StepRunsTheFetchedInstructionOrTheNextEvent`: a due trap behind a WATCH that waits; an error that its stage corrects, and one that
it only detects; a drained buffer with a preemption that waits for its room. -/
theorem witness_step_inputs :
    (stFetch.dev.st ≠ 1 ∧ stFetch.begin.cc.yields = false ∧
      ({ stFetchDue with cc := { stFetchDue.cc with accs := [⟨0, 0x200000#64, stFetchDue.cc.pc, .sync true (.watch 9 0#64 0#64) 2 8 true false, true⟩] } }).cc.watching
        = true ∧ stFetchDue.cc.watching = false) ∧
    (∃ c, Stage.check .hbm = some c ∧ 0 < 1 ∧ 1 ≤ c.corrects ∧ c.corrects < 2 ∧ 2 ≤ c.detects) ∧
    (let s := { stFetch with cc := { stFetch.cc with preempt := true }, saveBuf := [⟨stFetch.cc.fc, 7, 100⟩] }
     s.saveBuf.find? (fun e => e.fc == stFetch.cc.fc) = some ⟨stFetch.cc.fc, 7, 100⟩ ∧
     (∀ r ∈ s.allRuns, r.fc = stFetch.cc.fc → r.preempt = true → r.ending = none → r.region.running = false) ∧
     ∃ r ∈ s.allRuns, r.fc = stFetch.cc.fc ∧ r.preempt = true ∧ r.ending = none) := by
  refine ⟨by decide, ⟨_, rfl, by decide⟩, by decide⟩

/-- For `ArmCountsEventsToCome`: the home of the object has room for the wait. -/
theorem witness_arm_room : badIn (stArmPh 0) extA 0x200000 40 = none ∧ (stArmPh 0).badAt 0x200000 40 = none ∧
    roomIn (homeDie 0x200000) ((stArmPh 0).entries (homeDie 0x200000)) = true ∧ (∀ o ∈ (stArmPh 0).heldOps, o.pa ≠ 0x200000) := by
  refine ⟨by decide, by decide, roomIn_of_lt _ _ (by decide), by decide⟩

/-- For `DoneEndsTheTaskAndSuspendKeepsIt`: an open loop, and a loop set aside, in a handler of a task that ends alone. -/
theorem witness_suspend_in_a_handler :
    ∀ l ∈ [([⟨0x10000#64, 0x10010#64, 2⟩], []), (([] : List LoopEnt), [(⟨0x10000#64, 0x10010#64, 2⟩ : LoopEnt)])],
      let s := withReg (stT.modCc fun r => { r with loops := l.1, aside := l.2, sys := { r.sys with hmode := true } }) 1 2
      Ready s [1] ∧ s.cc.cmds = [] ∧ bits (s.reg 1) 63 32 = 0 ∧ (liveRegs ((s.reg 1).extractLsb' 0 32)).length ≤ 16 ∧
      (s.cc.loops ≠ [] ∨ s.cc.aside ≠ []) ∧ s.cc.sys.hmode = true ∧ EndsAlone s := by
  intro l h
  fin_cases h <;> exact ⟨by simp only [Ready]; decide, by decide, by decide, by decide, by decide, by decide, recA, by decide⟩

/-- For `BookExtendAndReleaseActOnTheCalendar`: RELEASE of 0 with and without a held reservation; an extension of a window whose last slot
is the one that runs, and of one that is over. -/
theorem witness_release_all :
    (∀ s ∈ [stT, stTwo], Ready s [2] ∧ Started s winA ∧ s.reg 2 = 0#64 ∧ (∀ c ∈ s.cc.cmds, c.queue.booked = false)) ∧
    heldEnt stT stT.cc.task = none ∧ heldEnt stTwo stTwo.cc.task = some { winA with st := 3, start := 100, last := 120 } ∧
    (CanExtend { stT with cyc := 64 * 64 } winA 1 ∧ ¬ CanExtend { stT with cyc := 65 * 64 } winA 1) := by
  refine ⟨?_, by decide, by decide, by simp only [CanExtend]; decide⟩
  intro s h
  fin_cases h <;> (simp only [Ready, Started]; decide)

/-- For `WindowsEndAndContextsAreSaved`: a context that holds a save area and one that does not; an overrun of a strict task, and of one for
which its core's buffer has no room. -/
theorem witness_overruns :
    (({ recA with area := some (Vector.replicate 8 0#64) } : TaskRec).area ≠ none ∧ recA.area = none) ∧
    (∀ strict : Bool,
      let s := { (stT.modCc fun r => { r with preempt := true, strict := strict }) with
        overrun := [hA], saveBuf := if strict then [] else [⟨stT.cc.fc, 5, 2097152⟩] }
      s.cc.preempt = true ∧ s.cc.region.running = false ∧ s.cc.task ∈ s.overrun ∧ EndsAlone s ∧
      (s.cc.strict = true ∨ (((s.saveBuf.filter fun e => e.fc = s.cc.fc).map (·.bytes)) ≠ [] ∧
        2097152 < ((s.saveBuf.filter fun e => e.fc = s.cc.fc).map (·.bytes)).sum + saveBytes s.cc))) := by
  refine ⟨by decide, fun strict => ⟨by rfl, by rfl, by show hA ∈ [hA]; decide, ⟨recA, ?_⟩, ?_⟩⟩
  · cases strict <;> decide
  · cases strict <;> decide

/-- A context that may issue a word at index 3 with a follow-on template at 4, in a stage or not, with an S signal word, tensor entries and
tile 1 declared. -/
def stIssue2 (w f : W128) (running : Bool) : State := (withVec stT).modCc fun r => { r with
  cmdMem := [(3, w), (4, f)], tids := [(1, tidE 8 1 0 2 1 8 0), (2, tidE 4 0 0 100 1 0 0)], sys := { r.sys with csig := 0x200000#64 },
  region := { r.region with running := running, hdr := some { hdrImage with tiles := 2 } } }
def wPmark : W128 := packCmd 0x07 noArgs
def wCopy : W128 := packCmd 0x10 { xN 8 with ta := 2, tc := 2 }
def wSignalled : W128 := packCmd 0x08 { noArgs with ta := 5, fs := true }
def wCopym : W128 := packCmd 0x11 { xN 8 with ta := 2, tc := 1, ff := true }
def wMload : W128 := packCmd 0x30 { noArgs with ta := 1, tc := 1 }

/-- For `IssueAcceptsPatchedCommands`: a PMARK in a stage and outside one; a COPY that nothing holds; a TIDSET with an S signal; a COPYM with
an MLOAD as its follow-on. -/
theorem witness_issue_forms :
    (∀ b : Bool, let s := stIssue2 wPmark 0 b
     let w := patchedWord s 0 0 3
     Accepted s 3 w ∧ opCmd w = 0x07 ∧ s.cc.task ≠ 0#64 ∧ s.cc.region.running = b) ∧
    (let s := stIssue2 wCopy 0 false
     let w := patchedWord s 0 0 3
     Accepted s 3 w ∧ opCmd w = 0x10 ∧ atAcceptance (opCmd w) (unpackCmd w) = false ∧ (unpackCmd w).fw = false ∧ ccBusy s = false ∧
     (∀ f ∈ s.cc.flights, f.id < s.cc.nextId) ∧ (∀ d ∈ s.cc.cmds, d.id < s.cc.nextId) ∧
     (∀ d ∈ s.cc.cmds, (d.op = 0x0A → cbarMasks d.args .copy = false) ∧ (d.queue = .copy → d.phase ≠ .waiting))) ∧
    (let s := stIssue2 wSignalled 0 false
     let w := patchedWord s 0 0 3
     Accepted s 3 w ∧ (unpackCmd w).fs = true ∧ atAcceptance (opCmd w) (unpackCmd w) = false ∧ opCmd w ≠ 0x07 ∧ opCmd w ≠ 0x10) ∧
    (let s := stIssue2 wCopym wMload false
     AcceptedPair s 3 (patchedWord s 0 0 3) wMload) := by
  refine ⟨fun b => ?_, ?_, ?_, ?_⟩
  · cases b <;> exact ⟨⟨by decide, by decide, .inl (by decide), by decide⟩, by decide, by decide, by decide⟩
  · exact ⟨⟨by decide, by decide, .inl (by decide), by decide⟩, by decide, by decide, by decide, by decide, by decide, by decide, by decide⟩
  · exact ⟨⟨by decide, by decide, .inr ⟨extA, by rfl, by decide⟩, by decide⟩, by decide, by decide, by decide, by decide⟩
  · exact ⟨by decide, by decide, by decide, by decide, by decide, by decide, by decide, by decide, by decide, by decide, by decide, by decide,
      by decide, by decide, by decide, .inl (by decide), .inl (by decide), by decide, by decide⟩

/-- For `TensorEntriesAndStagesAreLoaded` and `CommandsStartCompleteAndFollow`: a PMARK where no stage runs; a promise of a context that
does not end. -/
theorem witness_pmark_and_promise :
    (let s := stCmd wPmark .region .started id
     s.running? k0 = some (s.cc, cmdOf wPmark .region .started) ∧ (cmdOf wPmark .region .started).args = noArgs ∧
     s.cc.region.running = false ∧ s.cc.ending = none) ∧
    (stCmd (packCmd 0x10 noArgs) .copy .started (fun c => { c with prom := some 700 })).cc.ending = none := by decide

/-- For `CopiesAndRowsMoveBytes`: a COPYM of 0 bytes, one of 8, and one whose follow-on waits. -/
theorem witness_copym :
    (∀ n ∈ [0, 8], let x := { xN n with tc := 1, ff := true }
     let c := { cmdTwoT 0x11 x (.tileFetch 1) (tidE 4 0 0 100 1 0 0) Tid.zero Tid.zero with id := 0 }
     let f := { cmdTwoT 0x30 { noArgs with tc := 1 } (.tileBank 1) (tidE 8 1 0 2 1 8 0) Tid.zero Tid.zero with id := 1, carrier := some 0, held := true, phase := .waiting }
     let s := (stTwoT 0x11 x (.tileFetch 1) (tidE 4 0 0 100 1 0 0) Tid.zero Tid.zero bytesA).modCc fun r => { r with cmds := [c, f] }
     s.running? k0 = some (s.cc, c) ∧ c.args = x ∧ x.p1.toNat = n ∧ s.cc.ending = none ∧ c.args.ff = true ∧
     (∃ d ∈ s.cc.cmds, d.carrier = some k0.id) ∧ MayLand s.cc c ∧
     (∀ d ∈ s.cc.cmds, d.id < c.id → d.args.tc = x.tc → (d.op = 0x11 → d.step ≠ 0) ∧ (d.op = 0x15 ∨ d.op = 0x16 → d.phase ≠ .waiting))) := by
  intro n h
  fin_cases h <;>
  · refine ⟨by rfl, by decide, by decide, by rfl, by decide, by decide, ?_, ?_⟩
    · intro d hd g
      simp [stTwoT, stCmd, stT, State.modCc] at hd
      rcases hd with rfl | rfl <;> exact absurd g (by decide)
    · intro d hd g
      simp [stTwoT, stCmd, stT, State.modCc] at hd
      rcases hd with rfl | rfl <;> exact absurd g (by decide)

/-- For `MemoryBankWordsReadStoreAndPark`: a service cycle whose first request is served and whose second waits for its bank, a request
served from the window, and a PARK whose home has room; a line that comes while every held line is waited for. -/
theorem witness_bank_cycles :
    (let e : WinEnt := ⟨1, [some (recOf [4#32]), none, none, none]⟩
     let f : WinEnt := ⟨2, [some (recOf [4#32]), none, none, none]⟩
     Grants (fun _ => [3]) [] [e, f] [e] [f] [3]) ∧
    (let i := Instr.spld aMb (xMb 0x2C 0x2C 6 0)
     let e : WinEnt := ⟨3, [some (recOf [4092#32]), none, none, none]⟩
     let st := { stMb i [4092#32] with mb := some ⟨[(1, e)], [e]⟩, core := { SiteCore.reset with win := List.replicate 32 e } }
     MbTakes (stBank st [] []) i aMb (stBank st [] []).cc st 3 e (recOf [4092#32]) ∧ st.core.win.length = 32) ∧
    (let s := stBank (stMb iPark [4]) [] (memPuts [] 0x200004 [0xFF#8, 0xFF#8, 0xFF#8, 0xFF#8])
     s.badAt 0x200004 4 = none ∧ roomIn (homeDie 0x200004) (s.entries (homeDie 0x200004)) = true ∧ (∀ o ∈ s.heldOps, o.pa ≠ 0x200004)) ∧
    (let st := { siteOf 2 8 (wordsOf [iLd]) [[], [], [], []] with core := { SiteCore.reset with missq := [⟨recOf [0#32], 0x4000⟩] } }
     let s := stBank st [] []
     let full (q : List Rec) : State := { s with
       l1 := [⟨hA, st.key, 7, q⟩]
       cc := { s.cc with region := { s.cc.region with mbs := [(st.key, ⟨4096, 16, 1, false, [], []⟩)] } } }
     (∀ q ∈ [[], [recOf [1#32]]], (full q).live? aMb.task = some (full q).cc ∧ (full q).cc.site? (siteKey aMb.row aMb.col) = some st ∧ st.isMb = true ∧
       lineHeld (full q) aMb st 0x4000 = false ∧ ((full q).cc.mb st.key).room = 1) ∧
     (∃ c ∈ (full []).l1, (c.task = aMb.task ∧ c.mb = siteKey aMb.row aMb.col) ∧ c.wait = []) ∧
     ∀ c ∈ (full [recOf [1#32]]).l1, c.wait ≠ []) := by
  refine ⟨?_, ⟨⟨⟨rfl, rfl, by rfl, by rfl⟩, rfl, ⟨1, _, by decide, rfl, fun _ => by decide, by decide⟩, rfl, rfl⟩, by decide⟩,
    ⟨by decide, roomIn_of_lt _ _ (by decide), by decide⟩, ?_, by decide, by decide⟩
  · exact .grant _ _ _ _ _ _ (by simp) (.wait _ _ _ _ _ _ ⟨3, by simp, by simp⟩ (.none _))
  · intro q h
    fin_cases h <;> exact ⟨by rfl, by rfl, by decide, by decide, by decide⟩

/-- For `RoundsAndDuskPassSitesAndCommit`: the sites of an early edge stand in their order. -/
theorem witness_early_edge :
    let st := stFl iMark (mk0 1) [[], [], [], []]
    let s := inRegion (stSite st) fun g => { g with edgeDue := true }
    SMap.risesFrom 0 s.cc.region.sites = true ∧ (s.cc.region.sites.filter fun e => e.2.isMark && !e.2.fin) = [(st.key, st)] := by
  exact ⟨by decide, by rfl⟩

/-- For `MessagesOfOtherDevicesAndHostsAreServed`: the hold of a partial's engine with room, full, and with room beside the full hold of
another I/O die; no error in the words; STATE 2 and another. -/
theorem witness_holds_and_state :
    (holdOf (stCon [] 0#64) msgA).length < 64 ∧ 64 ≤ (holdOf { stCon [] 0#64 with rings := List.replicate 64 msgA } msgA).length ∧
    (let s := { stCon [] 0x0800000000000000#64 with rings := List.replicate 64 { msgA with group := 4 } }
     s.rings.length = 64 ∧ (holdOf s msgA).length < 64) ∧
    (stImp true).dev.st = 2 ∧ { stImp true with dev := { (stImp true).dev with st := 3 } }.dev.st ≠ 2 ∧ (stImp true).badAt 0x200038 8 = none ∧
    (∀ z, { stCmd (packCmd 0x40 noArgs) .sync .started id with
      homes := [⟨homeDie 0x200000, 0x200000, z, true, .sigop 4 1#64 5, .cmd k0⟩] }.badAt 0x200000 (wordLen z) = none) := by
  refine ⟨by decide, by decide, by decide, by decide, by decide, by decide, ?_⟩
  intro z
  cases z <;> decide

/-- The same packet under tables that map the second GiB to host memory of another tier, which no CXL link serves. -/
def withTier (s : State) : State := { s with mem := memPuts s.mem 0x2008 (leBytes 8 (farBase + 0x435)) }
/-- For `QueuesFetchAndRunPackets`: a ring page that may be read; a LAUNCH without an address, and one with no bad sector; a BARRIER whose home
has room; a SIGNAL of an operation that PCIe has none of, to a page of that tier. -/
theorem witness_packet_rooms :
    extQ.grants 0x200000 64 .r = true ∧ (pktLaunchA tmplA).w 2 = 0#64 ∧ (stPkt (pktLaunchA tmplA) 0).err.bad = [] ∧
    ctxBad (stPkt (pkt []) 0) ctxA 0x200000 192 = none ∧
    (let p := pkt [hdrW 1 3 0, 0#64, 0#64, 0#64, 0#64, 0#64, 0#64, 0x200100#64]
     (stPkt p 1).badAt 0x200100 8 = none ∧ roomIn (homeDie 0x200100) ((stPkt p 1).entries (homeDie 0x200100)) = true ∧
     (∀ o ∈ (stPkt p 1).heldOps, o.pa ≠ 0x200100)) ∧
    (WordAt (withTier (stPkt (pkt []) 0)) ctxA 0x40000000 farBase 0x43#8 ∧
     pathRefuses (withTier (stPkt (pkt []) 0)) (.phys farBase 0x43#8) 4 (decide (3 ≤ 2)) ≠ none ∧
     pathRefuses (withTier (stPkt (pkt []) 0)) (.phys farBase 0x43#8) 4 (decide (2 ≤ 2)) = none) ∧
    (WordAt (noSa (stPkt (pkt []) 0)) ctxA 0x200100 0x200100 7#8 ∧ pathRefuses (noSa (stPkt (pkt []) 0)) (.phys 0x200100 7#8) 4 true = none) := by
  simp only [WordAt]
  refine ⟨by decide, by decide, by decide, by decide, ⟨by decide, roomIn_of_lt _ _ (by decide), by decide⟩, by decide, by decide⟩

/-- For `MailboxCommandsAnswerAndAct` and `GuestSitesCompleteFaultSaveAndReset`: a task without a save, and one whose save has a command that
writes nothing. -/
theorem witness_silent_saves : SaveSilent recA ∧
    SaveSilent { recA with save := some { runA with cmds := [cmdOf (packCmd 0x10 noArgs) .copy .waiting] } } := by
  refine ⟨fun r h => (by cases h), fun r h c hc => ?_⟩
  cases h
  simp only [List.mem_singleton] at hc
  subst hc
  decide

/-- A task whose work a guest saved, and which waits for its next dispatch. -/
def stSaved (g : GTag) : State := { State.reset with
  dev := { DevInfo.reset with st := 2, part := .kg }, tasks := [(0, { recA with st := .ready })], guests := [(1, ⟨true, [(7, g)]⟩)] }
/-- For `GuestSitesCompleteFaultSaveAndReset`: each access that a tag refuses, with the task dispatched and with its work saved. -/
theorem witness_guest_refusals :
    (∀ g ∈ [g7, { g7 with saved := true }, { g7 with acked := true }],
      SMap.get? ((stGuest g).guest 1).tags 7 = some g ∧ ((stGuest g).guest 1).present = true ∧ g.owner = .cmd k0 ∧ g.inval = none ∧
      (stGuest g).run? k0.task = some (stGuest g).cc ∧ AloneOnCore (stGuest g) (stGuest g).cc ∧ (stGuest g).cc.ending = none ∧
      (stGuest g).cc.cmds = [cmdG]) ∧
    (¬ SavesTag ⟨1, 7, 0x200000#64, 4, .read, true, false⟩) ∧
    (covered (stGuest g7).cc.lease 0x210000 1 .w = .error 1 ∧
     covered (extA :: (placedRun Run.reset).lease) 0x200000 4 .r = .ok extA ∧ extA.gvOk 0x200000 4 = false) ∧
    (¬ (0 < 64 ∧ 0x2000C0 % 128 + 128 ≤ 128)) ∧
    (let g := { g7 with saved := true }
     let s := stSaved g
     s.run? k0.task = none ∧ SMap.get? (s.guest 1).tags 7 = some g ∧ (s.guest 1).present = true ∧ SMap.risesFrom 0 s.tasks = true ∧ s.queues = [] ∧
     (∀ e ∈ s.tasks, e.2.arms = []) ∧ s.task? k0.task = some { recA with st := .ready }) ∧
    (∀ c, ({ g7 with inval := some 4 } : GTag).inval = some c → 6004 ≤ c + 6000) ∧
    (∃ p, (gA (.pkt p)).owner = .pkt p ∧ SMap.get? ((stGuest (gA (.pkt p))).guest 1).tags 7 = some (gA (.pkt p))) := by
  refine ⟨?_, ?_, ⟨by rfl, by rfl, by decide⟩, by decide, by decide, ?_, ⟨⟨4, 0⟩, by rfl, by decide⟩⟩
  · intro g h
    fin_cases h <;>
    · refine ⟨by decide, by decide, by rfl, by rfl, by rfl, ?_, by rfl, by rfl⟩
      intro x hx _
      rcases hx with rfl | hx
      · rfl
      · exact absurd hx (by simp [stGuest, stCmd, stT, stA, State.modCc, State.reset])
  · rintro ⟨bs, h, -⟩
    cases h
  · intro c h
    cases h
    decide

/-- For `BringUpLinksAndTemperature`: STATE 1 with a flash; an event that waits when the links come up; no period, one and two of 1,024 slots
after the last adjustment, hot and cool, at a cut of R446 below 192. -/
theorem witness_bring_up_2 :
    { stT with dev := { stT.dev with st := 1 } }.dev.st = 1 ∧
    (let s := { stT with dev := { stT.dev with mbcmd := 0x4000, mbidx := 0x5000 }, mbox := { stT.mbox with events := [mbEvent 0x83 0 0 0 0 0] } }
     s.dev.linken = false ∧ s.dev.st = 2 ∧ s.dev.mbcmd ≠ 0#64 ∧ s.dev.mbidx ≠ 0#64 ∧ s.mbox.resp < s.mbox.respRead + 256 ∧
     s.mbox.events = [mbEvent 0x83 0 0 0 0 0]) ∧
    (∀ n ∈ [0, 1, 2], ∀ hot : Bool,
     let s := { stT with cyc := 64 * (1024 * n + 1023), dev := { stT.dev with hot := hot, thermCut := 16, hotSlot := 0, watts := 2550 } }
     (s.cyc / 64 - s.dev.hotSlot) / 1024 = n ∧ min 192 ((s.dev.watts - 1700) * 192 / 1700) = 96 ∧ s.dev.hot = hot ∧
     (s.dev.hot = true ∨ s.dev.thermCut ≠ 0)) := by
  refine ⟨by decide, by decide, ?_⟩
  intro n h hot
  fin_cases h <;> cases hot <;> decide

/-! ## One-step tests on the manual's worked examples -/

/-- A register after an instruction. -/
def regAfter (i : Instr) (s : State) (k : Reg) : Option W64 :=
  match exec i s with
  | .next t => some (t.reg k)
  | _ => none
def with2 (a b : W64) : State := withReg (withReg stA 4 a) 5 b

/-- The example of file 04 (R95): BFX s3, s4, 8, 12 of 0xABCDEF is 0xBCD. -/
theorem test_bfx_example : regAfter (.bfx 3 4 false 11 8) (with2 0xABCDEF 0) 3 = some 0xBCD := by decide
/-- The example of file 04 (R94): LIH and ADDI load 0x9E3779B9. -/
theorem test_lih_example : regAfter (.lih 4 0x13C6F) stA 4 = some 0x9E378000 ∧
    regAfter (.addi 5 4 false 0x79B9) (with2 0x9E378000 0) 5 = some 0x9E3779B9 := by decide
/-- The table of R92: quotients, by 0 and at the overflow. -/
theorem test_quotients :
    regAfter (.div 3 4 5 false false) (with2 (7) (-2)) 3 = some (-3) ∧
    regAfter (.div 3 4 5 false false) (with2 (-7) (2)) 3 = some (-3) ∧
    regAfter (.div 3 4 5 false false) (with2 (5) (0)) 3 = some (-1) ∧
    regAfter (.div 3 4 5 false false) (with2 (0x8000000000000000) (-1)) 3 = some (0x8000000000000000) ∧
    regAfter (.divu 3 4 5 false false) (with2 (7) (-2)) 3 = some (0) ∧
    regAfter (.divu 3 4 5 false false) (with2 (-7) (2)) 3 = some (0x7FFFFFFFFFFFFFFC) ∧
    regAfter (.divu 3 4 5 false false) (with2 (5) (0)) 3 = some (-1) ∧
    regAfter (.divu 3 4 5 false false) (with2 (0x8000000000000000) (-1)) 3 = some (0) := by
  refine ⟨by decide, by decide, by decide, by decide, by decide, by decide, by decide, by decide⟩
/-- The table of R92: remainders, by 0 and at the overflow. -/
theorem test_remainders :
    regAfter (.rem 3 4 5 false false) (with2 (7) (-2)) 3 = some (1) ∧
    regAfter (.rem 3 4 5 false false) (with2 (-7) (2)) 3 = some (-1) ∧
    regAfter (.rem 3 4 5 false false) (with2 (5) (0)) 3 = some (5) ∧
    regAfter (.rem 3 4 5 false false) (with2 (0x8000000000000000) (-1)) 3 = some (0) ∧
    regAfter (.remu 3 4 5 false false) (with2 (7) (-2)) 3 = some (7) ∧
    regAfter (.remu 3 4 5 false false) (with2 (-7) (2)) 3 = some (1) ∧
    regAfter (.remu 3 4 5 false false) (with2 (5) (0)) 3 = some (5) ∧
    regAfter (.remu 3 4 5 false false) (with2 (0x8000000000000000) (-1)) 3 = some (0x8000000000000000) := by
  refine ⟨by decide, by decide, by decide, by decide, by decide, by decide, by decide, by decide⟩
/-- R93: the counts of 0. -/
theorem test_counts_of_zero : regAfter (.clz 3 4 false) (with2 0 0) 3 = some 64 ∧ regAfter (.ctz 3 4 false) (with2 0 0) 3 = some 64 := by decide

/-- The record in lane 0 of the work in hand, its generator and accumulator, after a word of an arithmetic site. -/
def laneAfter (i : Instr) (st : Site) : Option (List W32 × List W32 × W64) :=
  match exec i (stSite st) with
  | .next t => (t.cc.site? st.key).bind fun u => u.al.map fun w => (laneChain w 0, ((laneRec w 0).map (·.flds)).getD [], u.core.la.getD 0 0#64)
  | _ => none
/-- An arithmetic site with one record in lane 0 in hand, the word i next, and a word to come. -/
def siteWith (i : Instr) (flds chain : List W32) (la : W64) : Site :=
  let st := { siteOf 2 7 (wordsOf [.lmul aAl ⟨4, 0x00, 0x01, 0x2C, 14, 0, 0⟩, i, i]) [[.data (bundleOf [some (recOf flds)])], [], [], []] with core := { SiteCore.reset with gens := List.replicate 16 5#32, la := List.replicate 16 la } }
  let w := startAl st.takeHeads.2 st.takeHeads.1
  { st.takeHeads.2 with al := some { w with chain := w.chain.set 0 chain, next := 1 } }

/-- The example of file 05 (R111, R112, R113): LMUL, LACC and LCVT of one group. -/
theorem test_log6_example :
    (let i := Instr.lmul aAl ⟨4, 0x00, 0x01, 0x2C, 14, 0, 0⟩
     (laneAfter i (siteWith i [0x00010ECB, 0] [0, 0, 0, 0] 0)).map (·.1) = some [0x0040FB0B, 0, 0, 0]) ∧
    (let i := Instr.lacc aAl ⟨5, 0x28, 0x2C, 0x2C, 14, 0, 0⟩
     (laneAfter i (siteWith i [0, 0] [0x0040FB0B, 0, 0, 0] 0)).map (fun e => (e.1, e.2.2)) = some ([0x0040FB0B, 61293248, 0, 0], 61293248)) ∧
    (let i := Instr.lcvt aAl ⟨10, 0x2C, 0x2C, 0x2C, 8, 0, 1⟩
     (laneAfter i (siteWith i [0, 0] [0, 0, 0, 0] 61293248)).map (fun e => e.2) = some ([0, 0, 0x40E9D0B0], 0)) := by decide
/-- The example of file 05 (R115): key 0x29 falls in bucket 5. -/
theorem test_hash_example :
    (let i := Instr.hash aAl ⟨10, 0x00, 0x2C, 0x2C, 6, 0, 0x81C⟩
     encodeSite i = some 0x66501658C000081C ∧ (laneAfter i (siteWith i [0x29] [0, 0, 0, 0] 0)).map (·.2.1) = some [0x29, 0, 5]) := by decide
/-- The example of file 03 (R71): 1 + 2^-8 in bfloat16 under RNE, RUP, RZ and RDN. -/
theorem test_rounding_example : [0, 2, 1, 3].map (fun m => roundTo 10 m false false 0 (f32Of false 0x3F808000#32)) = [0x3F80, 0x3F81, 0x3F80, 0x3F80] := by decide
/-- The example of file 08 (R148): 0.3 in e4m3 and its residual. -/
theorem test_residual_example : quantOne 11 0 false false 0#32 (f32Of false 0x3E99999A#32) (zeroNum false) = (0x2A, 0xBC4CCCC0#32, 0#32) ∧
    quantOne 11 0 false false 0#32 (f32Of false 0x3E99999A#32) (f32Of false 0xBC4CCCC0#32) = (0x29, 0x3BCCCD00#32, 0#32) := by decide
/-- The example of file 09 (R156): the home of a line. -/
theorem test_home_example : homeDie 0x2400003080 = 1 ∧ homeStack 0x2400003080 = 3 ∧ homeSlice 0x2400003080 = 13 := by decide
/-- The example of file 29 (R446): the tile cap at 2,550 W. -/
theorem test_power_example : tileCap { stT with dev := { stT.dev with watts := 2550 } } = 96 := by decide

/-! SHA-512 and Ed25519 on the published examples of FIPS 180-4 and RFC 8032. -/

/-- FIPS 180-4: the digest of the string abc. -/
theorem test_sha512_abc : sha512 [0x61#8, 0x62#8, 0x63#8] = BitVec.ofNat 512 (leNat (beBytes 64
    0xDDAF35A193617ABACC417349AE20413112E6FA4E89A97EA20A9EEEE64B55D39A2192992A274FC1A836BA3C23A3FEEBBD454D4423643CE80E2A9AC94FA54CA49F)) := by
  rw [sha512_eq]
  decide +kernel
/-- RFC 8032, 7.1, test 1: its private key, its public key and its signature of the empty message. -/
def edSeed1 : BitVec 256 := BitVec.ofNat 256 (leNat (beBytes 32 0x9D61B19DEFFD5A60BA844AF492EC2CC44449C5697B326919703BAC031CAE7F60))
def edKey1 : BitVec 256 := BitVec.ofNat 256 (leNat (beBytes 32 0xD75A980182B10AB7D54BFED3C964073A0EE172F3DAA62325AF021A68F707511A))
def edSig1 : BitVec 512 := BitVec.ofNat 512 (leNat (beBytes 64
  0xE5564300C360AC729086E2CC806E828A84877F1EB8E5D974D873E065224901555FB8821590A33BACC61E39701CF9B46BD25BF5F0595BBE24655141438E7A100B))
theorem test_ed25519_public_key : edPublic edSeed1 = edKey1 := by
  unfold edPublic
  rw [sha512_eq]
  decide +kernel
/-- The same: the signature verifies over the empty message. -/
theorem test_ed25519_verifies : edVerifies edKey1 edSig1 [] = true := by
  rw [edVerifies_eq]
  unfold edCheck edChallenge
  simp only [sha512_eq]
  decide +kernel

end Sys2Proof.Tests
end

section
/-! PROOFS. What a step does (O30): what the plan is in each case, and what carrying it out comes to. -/

namespace Sys2Proof.Machine
open Sys2Proof.Machine.Claims

/-! ## A step carries out its plan -/

theorem step_of_plan_idle {s t : State} (h4 : s.dev.st ≠ 4) (h : plan s = .idle t) : step s = .next t := by
  simp [step, h4, h]

theorem step_of_plan_run {s t : State} {i : Instr} (h4 : s.dev.st ≠ 4) (h : plan s = .run i t) : step s = exec i t := by
  simp [step, h4, h]

theorem step_of_plan_boundary {s t : State} {d i : Instr} (h4 : s.dev.st ≠ 4) (h : plan s = .boundary d i t) :
    step s = if entersHandler t.cc.task (exec i t.probe) then exec i t else exec d t := by
  simp [step, h4, h]

/-! ## What the plan is -/

/-- The two ways to a turn of the control cores: it is theirs, or no event is pending. -/
def TurnOfCores (s u : State) : Prop :=
  (s.begin.turn = true ∧ u = { s.begin with turn := false }) ∨
    (s.begin.turn = false ∧ s.begin.work = [] ∧ u = s.begin.rotate)

theorem plan_of_turn {s u : State} (h1 : s.dev.st ≠ 1) (hin : s.inputs = []) (hu : TurnOfCores s u) :
    plan s = ccPlan u := by
  rcases hu with ⟨ht, rfl⟩ | ⟨ht, hw, rfl⟩
  · simp [plan, h1, hin, ht]
  · simp [plan, h1, hin, ht, hw]

theorem plan_of_work {s : State} {i : Instr} {rest : List Instr} (h1 : s.dev.st ≠ 1) (hin : s.inputs = [])
    (ht : s.begin.turn = false) (hw : s.begin.work = i :: rest) :
    plan s = .run i { s.begin.rotate with work := rest, turn := true } := by
  simp [plan, h1, hin, ht, hw]

/-- A context that may issue, whose instruction word is leased to be executed and free of errors. -/
structure CanFetch (u : State) (e : Extent) (pa : Nat) (attr : BitVec 8) : Prop where
  canRun : u.cc.canRun = true
  notPaused : u.paused u.cc = false
  leased : covered u.cc.lease u.cc.pc.toNat 4 .x = .ok e
  placed : e.place u.cc.pc.toNat = .phys pa attr
  clean : u.badAt pa 4 = none

theorem ccPlan_of_canFetch {u : State} {e : Extent} {pa : Nat} {attr : BitVec 8} (h : CanFetch u e pa attr) :
    ccPlan u = if u.cc.trapDue then .boundary .deferredTrapEntry (instrOf (memBytes u.mem pa 4)) u
      else .run (instrOf (memBytes u.mem pa 4)) u := by
  have hbytes : fetchBytes u = .ok (memBytes u.mem pa 4) := by simp [fetchBytes, h.leased, h.placed]
  have hbad : fetchBad u = none := by simp [fetchBad, h.leased, h.placed, h.clean]
  simp [ccPlan, h.canRun, h.notPaused, hbytes, hbad]

/-- R32, R34: the instruction of four bytes is what they decode to, or the trap of a word that is none. -/
theorem instrOf_cases (bs : List Byte) :
    (∃ rest, decode bs = .ok (instrOf bs, rest)) ∨
      ((∃ x, decode bs = .error x) ∧ instrOf bs = .illegalInstruction (BitVec.ofNat 32 (leNat bs))) := by
  unfold instrOf
  cases decode bs with
  | ok p => exact .inl ⟨p.2, rfl⟩
  | error x => exact .inr ⟨⟨x, rfl⟩, rfl⟩

theorem Run.canRun_of {r : Run} (ht : r.task ≠ 0#64) (ha : r.active = true) (he : r.ending = none) (hy : r.yields = false) :
    r.canRun = true := by
  simp [Run.canRun, ht, ha, he, hy]

/-- R392: no deferred trap is due where none is listed, in a handler, and behind a WATCH that waits. -/
theorem Run.trapDue_eq_false {r : Run} (h : r.due = [] ∨ r.sys.hmode = true ∨ r.watching = true) : r.trapDue = false := by
  rcases h with h | h | h <;> simp [Run.trapDue, h]

theorem Run.trapDue_eq_true {r : Run} (hd : r.due ≠ []) (hm : r.sys.hmode = false) (hw : r.watching = false) :
    r.trapDue = true := by
  simp [Run.trapDue, hd, hm, hw]

/-- R254, R392: the turn of a context that can fetch. -/
theorem step_of_canFetch {s u : State} {e : Extent} {pa : Nat} {attr : BitVec 8} (h1 : s.dev.st ≠ 1) (h4 : s.dev.st ≠ 4)
    (hin : s.inputs = []) (hu : TurnOfCores s u) (hf : CanFetch u e pa attr) :
    let i := instrOf (memBytes u.mem pa 4)
    (u.cc.trapDue = false → step s = exec i u) ∧
    (u.cc.trapDue = true → step s = if entersHandler u.cc.task (exec i u.probe) then exec i u else exec .deferredTrapEntry u) := by
  have hplan := (plan_of_turn h1 hin hu).trans (ccPlan_of_canFetch hf)
  refine ⟨fun hd => step_of_plan_run h4 ?_, fun hd => step_of_plan_boundary h4 ?_⟩ <;> simpa [hd] using hplan

/-! ## What the outside world brings -/

@[simp] theorem State.tickBy_cyc (s : State) (n : Nat) : (s.tickBy n).cyc = s.cyc + n := by
  unfold State.tickBy; simp only; repeat' split
  all_goals rfl

@[simp] theorem State.tickBy_cc (s : State) (n : Nat) : (s.tickBy n).cc = s.cc := by
  unfold State.tickBy; simp only; repeat' split
  all_goals rfl

@[simp] theorem State.tickBy_inputs (s : State) (n : Nat) : (s.tickBy n).inputs = s.inputs := by
  unfold State.tickBy; simp only; repeat' split
  all_goals rfl

theorem SMap.get?_ins {α : Type} (m : SMap α) (i : Nat) (x : α) (j : Nat) :
    SMap.get? (SMap.ins m i x) j = if j = i then some x else SMap.get? m j := by
  induction m with
  | nil => simp [SMap.ins, SMap.get?]
  | cons e m ih =>
    obtain ⟨k, v⟩ := e
    rw [SMap.ins]
    split
    · simp [SMap.get?]
    · split
      · next h => subst h; by_cases hj : j = i <;> simp [SMap.get?, hj]
      · next h => by_cases hj : j = k <;> grind [SMap.get?]

/-- R417: a corrected error is logged; the 64th unposted one makes CERR due. -/
theorem State.correctable_eq (s : State) (unit_ pa : Nat) :
    s.correctable unit_ pa =
      { s with
        err := { s.err with corr := s.err.corr + 1, log := s.err.log ++ [(unit_, pa)] }
        work := s.work ++ if 64 ≤ s.err.corr + 1 then [.cerr] else [] } := by
  unfold State.correctable
  simp only
  split <;> simp [State.push]

theorem Stage.corrects_le_detects {st : Stage} {c : Check} (h : st.check = some c) : c.corrects ≤ c.detects := by
  cases st <;> cases h <;> decide

/-- R416: an error that its stage corrects is only logged. -/
theorem State.dataError_of_corrected (s : State) {st : Stage} {c : Check} {n : Nat} (q pa : Nat) (use : DataUse)
    (hc : st.check = some c) (hn : 0 < n) (hle : n ≤ c.corrects) : s.dataError ⟨st, n, q, pa, use⟩ = s.correctable q pa := by
  have hd := Stage.corrects_le_detects hc
  simp only [State.dataError, hc]
  rw [if_neg (by omega), if_pos hle]

/-- R416: an error that its stage only detects takes its course. -/
theorem State.dataError_of_detected (s : State) {st : Stage} {c : Check} {n : Nat} (q pa : Nat) (use : DataUse)
    (hc : st.check = some c) (hlt : c.corrects < n) (hle : n ≤ c.detects) :
    s.dataError ⟨st, n, q, pa, use⟩ = s.uncorrected pa use := by
  simp only [State.dataError, hc]
  rw [if_neg (by omega), if_neg (by omega)]

/-- R327: without room in the response ring an event waits, while fewer than 1,024 do. -/
theorem State.postEvent_waits {s : State} (m : MbCmd) (hr : s.mailRoom = false) (hl : s.mbox.events.length < 1024) :
    s.postEvent m = { s with mbox := { s.mbox with events := s.mbox.events ++ [m] } } := by
  simp [State.postEvent, hr, hl]

/-- R411: where no stage of theirs runs, the preemptions that wait for room are tried at once. -/
theorem foldl_preemptAgain_of_idle (l : List Run) (s : State) (h : ∀ r ∈ l, r.region.running = false) :
    l.foldl State.preemptAgain s = { s with work := s.work ++ l.map fun r => .preemption r.task } := by
  induction l generalizing s with
  | nil => simp
  | cons r l ih =>
    have hr : s.preemptAgain r = s.push (.preemption r.task) := by simp [State.preemptAgain, h r (by simp)]
    rw [List.foldl_cons, hr, ih _ fun x hx => h x (by simp [hx])]
    simp [State.push]

/-- R411: the contexts of a core whose preemption is under way and not yet settled. -/
def awaitingRoom (s : State) (fc : Nat) : List Run := s.allRuns.filter fun r => r.fc == fc && r.preempt && r.ending.isNone

theorem mem_awaitingRoom {s : State} {fc : Nat} {r : Run} :
    r ∈ awaitingRoom s fc ↔ r ∈ s.allRuns ∧ r.fc = fc ∧ r.preempt = true ∧ r.ending = none := by
  simp [awaitingRoom, and_assoc]

theorem State.saveDrained_of_idle {s : State} {fc : Nat} {e : SaveHeld} (he : s.saveBuf.find? (fun e => e.fc == fc) = some e)
    (hr : ∀ r ∈ awaitingRoom s fc, r.region.running = false) :
    s.saveDrained fc = { s with
      saveBuf := s.saveBuf.erase e, work := s.work ++ (awaitingRoom s fc).map fun r => .preemption r.task } := by
  unfold State.saveDrained
  rw [he]
  exact foldl_preemptAgain_of_idle _ _ hr

section Inputs
variable {s : State} (h1 : s.dev.st ≠ 1) (h4 : s.dev.st ≠ 4) {rest : List Input}
include h1 h4

theorem step_of_event {i : Instr} (hin : s.inputs = .event i :: rest) : step s = exec i { s with inputs := rest } :=
  step_of_plan_run h4 (by simp [plan, h1, hin])

theorem step_of_cycles {n : Nat} (hin : s.inputs = .cycles n :: rest) :
    step s = .next ({ s with inputs := rest }.tickBy n) :=
  step_of_plan_idle h4 (by simp [plan, h1, hin])

theorem step_of_softError {pa : Nat} (hin : s.inputs = .softError pa :: rest) :
    step s = .next ({ s with inputs := rest }.strike pa) :=
  step_of_plan_idle h4 (by simp [plan, h1, hin])

theorem step_of_context {c : BitVec 12} {w0 w1 : W64} (hin : s.inputs = .context c w0 w1 :: rest) :
    step s = .next ({ s with inputs := rest }.writeContext c w0 w1) :=
  step_of_plan_idle h4 (by simp [plan, h1, hin])

theorem step_of_dataError {e : DataErr} (hin : s.inputs = .dataError e :: rest) :
    step s = .next ({ s with inputs := rest }.dataError e) :=
  step_of_plan_idle h4 (by simp [plan, h1, hin])

theorem step_of_saveDrained {fc : Nat} (hin : s.inputs = .saveDrained fc :: rest) :
    step s = .next ({ s with inputs := rest }.saveDrained fc) :=
  step_of_plan_idle h4 (by simp [plan, h1, hin])

end Inputs

/-- Settles O30: `plan` gives the case of the step, `step` carries it out. -/
theorem stepRunsTheFetchedInstructionOrTheNextEvent : Obligations.StepRunsTheFetchedInstructionOrTheNextEvent := by
  unfold Obligations.StepRunsTheFetchedInstructionOrTheNextEvent
  refine ⟨?turn, fun s h1 h4 => ⟨fun i rest hin => step_of_event h1 h4 hin, ?work, ?cycles, ?soft, ?context, ?corrected,
    ?detected, ?drained⟩⟩
  case turn =>
    intro s u e pa attr h1 h4 hin hu ht ha he hy hp hl hpl hb
    obtain ⟨hrun, htrap⟩ := step_of_canFetch h1 h4 hin hu ⟨Run.canRun_of ht ha he hy, hp, hl, hpl, hb⟩
    refine ⟨_, instrOf_cases _, fun hd => hrun (Run.trapDue_eq_false hd), fun hd hm hw v hv => ?_⟩
    rw [htrap (Run.trapDue_eq_true hd hm hw), hv]
    rfl
  case work => exact fun i rest hin ht hw => step_of_plan_run h4 (plan_of_work h1 hin ht hw)
  case cycles =>
    exact fun n rest hin => ⟨_, step_of_cycles h1 h4 hin, by simp, by simp, SameBytes.of_mem (by simp), by simp⟩
  case soft =>
    exact fun pa rest hin => ⟨_, step_of_softError h1 h4 hin, by simp [State.strike], SameBytes.of_mem rfl, rfl⟩
  case context =>
    intro c w0 w1 rest hin
    refine ⟨_, step_of_context h1 h4 hin, rfl, SameBytes.of_mem rfl, rfl, rfl, fun k _ => ?_⟩
    exact SMap.get?_ins s.ctxs c.toNat _ k
  case corrected =>
    intro stage check n q pa use rest hin hc hn hle
    refine ⟨_, step_of_dataError h1 h4 hin, ?_⟩
    rw [State.dataError_of_corrected _ q pa use hc hn hle, State.correctable_eq]
    exact ⟨rfl, rfl⟩
  case detected =>
    intro stage check n q pa h agent rest hin hc hlt hle hr hl
    have hwaits : ({ s with inputs := rest } : State).memErr pa false =
        { s with inputs := rest, mbox := { s.mbox with events := s.mbox.events ++ [mbEvent 0x82 0 (keepN pa) 0#64 0#64 0#64] } } :=
      State.postEvent_waits _ hr hl
    refine ⟨_, step_of_dataError h1 h4 hin, ?_⟩
    rw [State.dataError_of_detected _ q pa _ hc hlt hle, State.uncorrected, if_neg Bool.false_ne_true, hwaits]
    exact ⟨rfl, fun _ _ => rfl⟩
  case drained =>
    intro fc e rest hin he hr
    have hidle : ∀ r ∈ awaitingRoom { s with inputs := rest } fc, r.region.running = false := by
      intro r hm
      obtain ⟨hmem, hfc, hpre, hend⟩ := mem_awaitingRoom.mp hm
      exact hr r hmem hfc hpre hend
    refine ⟨_, (step_of_saveDrained h1 h4 hin).trans (congrArg _ (State.saveDrained_of_idle he hidle)), rfl, _, rfl, ?_⟩
    exact fun r hmem hfc hpre hend => List.mem_map.mpr ⟨r, mem_awaitingRoom.mpr ⟨hmem, hfc, hpre, hend⟩, rfl⟩

end Sys2Proof.Machine
end

section
/-! PROOFS. Markers and dusk (O51). `MarkMade` gives every context that holds the task one and the same list of marker
positions, whereas `State.markAt` extends the list that each of them has. The two differ where two contexts hold one task, which
the statement does not exclude. -/

namespace Sys2Proof.Machine
open Sys2Proof.Machine.Claims

/-! ## What sending and waking leave of the contexts -/

@[simp] theorem State.pushNew_runs (s : State) (i : Instr) : (s.pushNew i).runs = s.runs := by
  unfold State.pushNew; split <;> rfl

@[simp] theorem State.wakeSite_runs (s : State) (h : W64) (k : Nat) : (s.wakeSite h k).runs = s.runs := by
  unfold State.wakeSite
  repeat' split
  · rfl
  · rfl
  · exact State.pushNew_runs ..
  · rfl

@[simp] theorem State.checkCommit_runs (s : State) (h : W64) : (s.checkCommit h).runs = s.runs := by
  unfold State.checkCommit
  repeat' split
  · rfl
  · exact State.pushNew_runs ..
  · rfl

/-- A site without routed outputs sends nothing. -/
theorem State.forward_of_no_outs (s : State) (h : W64) {r : Run} {st : Site} (m : Msg) (ho : r.outs st = []) :
    s.forward h r st m = s := by
  simp [State.forward, ho]

/-- Which outputs are routed depends on the place of a site and on its routes alone. -/
theorem Run.outs_congr (r : Run) {st st1 : Site} (hrow : st1.row = st.row) (hcol : st1.col = st.col)
    (hroutes : st1.routes = st.routes) : r.outs st1 = r.outs st := by
  simp [Run.outs, Run.sinkPort, Run.portOf, hrow, hcol, hroutes]

theorem State.modRun_cc_of_other {s : State} {h : W64} (f : Run → Run) (hcc : s.cc.task ≠ h) : (s.modRun h f).cc = s.cc := by
  rw [State.modRun, if_neg hcc]
  split <;> rfl

theorem State.modRun_runs_of_other {s : State} {h : W64} (f : Run → Run) (h0 : h ≠ 0#64) (hcc : s.cc.task ≠ h) :
    (s.modRun h f).runs = s.runs.map fun r => if r.task = h then f r else r := by
  rw [State.modRun, if_neg h0, if_neg hcc]

/-! ## One list of positions for all -/

/-- As `MarkMade` has it, contexts that hold the task of a MARK have the same positions after its marker. -/
theorem markPos_of_markMade {s u : State} {h : W64} {r : Run} {st : Site} {n : Nat} (hm : MarkMade s u h r st n)
    (h0 : h ≠ 0#64) (hcc : s.cc.task ≠ h) (ho : r.outs st = []) :
    ∃ pos, ∀ q ∈ u.runs, q.task = h → q.region.markPos = pos := by
  obtain ⟨st1, pos, hst1, -, -, rfl⟩ := hm
  have ho1 : r.outs st1 = [] := by
    rw [← ho]
    apply Run.outs_congr <;> rw [hst1] <;> rfl
  have hcc1 : (s.putSite h st1).cc.task ≠ h := by rwa [State.putSite, State.modRun_cc_of_other _ hcc]
  refine ⟨pos, fun q hq ht => ?_⟩
  rw [State.checkCommit_runs, State.wakeSite_runs, State.forward_of_no_outs _ _ _ ho1, State.modRun_runs_of_other _ h0 hcc1] at hq
  obtain ⟨p, -, rfl⟩ := List.mem_map.mp hq
  split
  · rfl
  · next hp => simp [hp] at ht

/-! ## Two contexts of one task -/

/-- A MARK (opcode 8 of an FL) without routes that has counted one bundle. -/
def countedMark : Site where
  row := 0
  col := 5
  words := [0x1000000000000000#64]
  consts := []
  routes := []
  ins := [[], [], [], []]
  core := { SiteCore.reset with fl := { FlCore.reset with count := 1 } }
  snaps := []
  al := none
  mb := none
  rnd := 0
  fin := false
  seen := []

def countedMarkRef : SiteRef := ⟨1#64, 0, 5⟩

/-- An image whose rounds are one bundle long. -/
def roundOfOne : ImageHdr where
  base := 0
  scope := 0
  stages := 1
  height := 1
  width := 1
  ports := 0
  tiles := 0
  link := 0
  l2sh := 0
  shadow := 0
  round := 1
  tids := 0#64
  sites := 1
  length := 0
  stab := 0
  nwords := 0
  slist := 0

/-- Task 1, whose region runs that MARK, with the positions noted at markers before. -/
def markRun (pos : List (Nat × List (Nat × Nat))) : Run :=
  { Run.reset with
    task := 1#64
    region := { Region.reset with hdr := some roundOfOne, running := true, sites := [(5, countedMark)], markPos := pos } }

/-- Two contexts hold task 1; the second has noted a position. -/
def twiceHeld : State := { State.reset with runs := [markRun [], markRun [(1, [])]] }

theorem twiceHeld_siteAt : SiteAt twiceHeld (.roundCountExpiry countedMarkRef) countedMarkRef (markRun []) countedMark :=
  ⟨by decide, by decide, by decide, by decide⟩

/-- The positions that the contexts of task 1 have noted. -/
def positionsOf (s : State) : List (List (Nat × List (Nat × Nat))) :=
  (s.runs.filter fun r => r.task == 1#64).map fun r => r.region.markPos

theorem positionsOf_twiceHeld_after {t : State} (h : exec (.roundCountExpiry countedMarkRef) twiceHeld = .next t) :
    positionsOf t = [[(0, [])], [(1, []), (0, [])]] := by
  have hrun : execRoundCountExpiry countedMarkRef twiceHeld = .next t := h
  have : (match execRoundCountExpiry countedMarkRef twiceHeld with | .next t => positionsOf t | _ => []) =
    [[(0, [])], [(1, []), (0, [])]] := by decide
  rwa [hrun] at this

/-- Refutes O51, in its clause on ROUND_COUNT_EXPIRY: the states it speaks of may hold one task in two contexts, and there
the marker's position joins the list of each, not one list for both. -/
theorem not_roundsAndDuskPassSitesAndCommit : ¬ Obligations.RoundsAndDuskPassSitesAndCommit := by
  unfold Obligations.RoundsAndDuskPassSitesAndCommit
  intro hall
  obtain ⟨hexpiry, -⟩ := hall countedMarkRef twiceHeld (markRun []) countedMark
  obtain ⟨t, u, hexec, hmade, rfl⟩ := hexpiry twiceHeld_siteAt
  obtain ⟨pos, hpos⟩ := markPos_of_markMade hmade (by decide) (by decide) (by decide)
  have hafter := positionsOf_twiceHeld_after hexec
  have hsame : ∀ l ∈ positionsOf u, l = pos := by
    intro l hl
    obtain ⟨q, hq, rfl⟩ := List.mem_map.mp hl
    obtain ⟨hmem, htask⟩ := List.mem_filter.mp hq
    exact hpos q hmem (beq_iff_eq.mp htask)
  rw [positionsOf, State.wakeSite_runs, ← positionsOf] at hafter
  rw [hafter] at hsame
  have heq := (hsame [(0, [])] (by simp)).trans (hsame [(1, []), (0, [])] (by simp)).symm
  exact absurd heq (by decide)

end Sys2Proof.Machine
end

section
/-! PROOFS. Scalar words (O26, O27, O29): a word is known by its fields, so decoding an encoded word gives the instruction
back, and a word that decodes is the word of what it decodes to. -/

namespace Sys2Proof

/-! ## A word is known by its fields -/

theorem wordR_eq_iff {w : W32} {op : BitVec 6} {d a b : Reg} {ta tb : Bool} {fn : BitVec 9} :
    wordR op d a b ta tb fn = w ↔
      opF w = op ∧ dF w = d ∧ aF w = a ∧ bF w = b ∧ taR w = ta ∧ tbR w = tb ∧ fnF w = fn := by
  constructor
  · rintro rfl; simp
  · rintro ⟨rfl, rfl, rfl, rfl, rfl, rfl, rfl⟩
    ext i hi
    simp only [wordR, opF, dF, aF, bF, taR, tbR, fnF, bit1]
    grind

theorem wordI_eq_iff {w : W32} {op : BitVec 6} {d a : Reg} {ta : Bool} {imm : BitVec 15} :
    wordI op d a ta imm = w ↔ opF w = op ∧ dF w = d ∧ aF w = a ∧ taI w = ta ∧ immI w = imm := by
  constructor
  · rintro rfl; simp
  · rintro ⟨rfl, rfl, rfl, rfl, rfl⟩
    ext i hi
    simp only [wordI, opF, dF, aF, taI, immI, bit1]
    grind

theorem wordS_eq_iff {w : W32} {op : BitVec 6} {b a : Reg} {ta tb : Bool} {imm : BitVec 14} :
    wordS op b a ta tb imm = w ↔
      opF w = op ∧ dF w = b ∧ aF w = a ∧ taI w = ta ∧ tbS w = tb ∧ immS w = imm := by
  constructor
  · rintro rfl; simp
  · rintro ⟨rfl, rfl, rfl, rfl, rfl, rfl⟩
    ext i hi
    simp only [wordS, opF, dF, aF, taI, tbS, immS, bit1]
    grind

theorem wordJ_eq_iff {w : W32} {op : BitVec 6} {d : Reg} {imm : BitVec 21} :
    wordJ op d imm = w ↔ opF w = op ∧ dF w = d ∧ immJ w = imm := by
  constructor
  · rintro rfl; simp
  · rintro ⟨rfl, rfl, rfl⟩
    ext i hi
    simp only [wordJ, opF, dF, immJ]
    grind

theorem wordC_eq_iff {w : W32} {op : BitVec 6} {d a b : Reg} {n : BitVec 11} :
    wordC op d a b n = w ↔ opF w = op ∧ dF w = d ∧ aF w = a ∧ bF w = b ∧ idxC w = n := by
  constructor
  · rintro rfl; simp
  · rintro ⟨rfl, rfl, rfl, rfl, rfl⟩
    ext i hi
    simp only [wordC, opF, dF, aF, bF, idxC]
    grind

theorem wordY_eq_iff {w : W32} {op : BitVec 6} {d a : Reg} {y : BitVec 16} :
    wordY op d a y = w ↔ opF w = op ∧ dF w = d ∧ aF w = a ∧ yF w = y := by
  constructor
  · rintro rfl; simp
  · rintro ⟨rfl, rfl, rfl, rfl⟩
    ext i hi
    simp only [wordY, opF, dF, aF, yF]
    grind

/-! ## The sub-fields of fn, of an immediate and of Y (R35 to R40) -/

/-- A field of two parts is known by its high part and its low part. -/
theorem eq_append_iff {m n : Nat} {x : BitVec (m + n)} {a : BitVec m} {b : BitVec n} :
    x = a ++ b ↔ x.extractLsb' n m = a ∧ x.extractLsb' 0 n = b := by
  constructor
  · rintro rfl
    exact ⟨BitVec.extractLsb'_append_eq_left, BitVec.extractLsb'_append_eq_right⟩
  · rintro ⟨rfl, rfl⟩
    rw [BitVec.extractLsb'_append_extractLsb'_eq_extractLsb' (Nat.zero_add n).symm, BitVec.extractLsb'_eq_self]

theorem fn_eq_size_iff {fn : BitVec 9} {k : BitVec 5} {z : BitVec 2} :
    fn = k ++ 0#2 ++ z ↔ fn.extractLsb' 4 5 = k ∧ fn.extractLsb' 2 2 = 0#2 ∧ fn.extractLsb' 0 2 = z := by
  constructor
  · rintro rfl
    refine ⟨?_, ?_, ?_⟩ <;> (ext; grind)
  · rintro ⟨rfl, h0, rfl⟩
    rw [← h0]
    ext
    grind

/-- R38: the layout of ATOM, RED and WATCH. -/
theorem fn_eq_atomic_iff {fn : BitVec 9} {o : BitVec 4} {z : Bool} {c : BitVec 3} :
    fn = o ++ bit1 z ++ 0#1 ++ c ↔
      fn.extractLsb' 5 4 = o ∧ fn[4] = z ∧ fn[3] = false ∧ fn.extractLsb' 0 3 = c := by
  unfold bit1
  constructor
  · rintro rfl
    refine ⟨?_, ?_, ?_, ?_⟩
    · ext; grind
    · grind
    · grind
    · ext; grind
  · rintro ⟨rfl, rfl, h3, rfl⟩
    ext
    grind

/-- R38: the layout of the barrier group. -/
theorem fn_eq_barrier_iff {fn : BitVec 9} {k c : BitVec 3} :
    fn = k ++ 0#3 ++ c ↔ fn.extractLsb' 6 3 = k ∧ fn.extractLsb' 3 3 = 0#3 ∧ fn.extractLsb' 0 3 = c := by
  constructor
  · rintro rfl
    refine ⟨?_, ?_, ?_⟩ <;> (ext; grind)
  · rintro ⟨rfl, h0, rfl⟩
    rw [← h0]
    ext
    grind

/-- R38: the layout of SIGOP, FUTRD and FUTWR. -/
theorem fn_eq_signal_iff {fn : BitVec 9} {k c : BitVec 3} {z : Bool} :
    fn = k ++ 0#1 ++ bit1 z ++ 0#1 ++ c ↔
      fn.extractLsb' 6 3 = k ∧ fn[5] = false ∧ fn[4] = z ∧ fn[3] = false ∧ fn.extractLsb' 0 3 = c := by
  unfold bit1
  constructor
  · rintro rfl
    refine ⟨?_, ?_, ?_, ?_, ?_⟩
    · ext; grind
    · grind
    · grind
    · grind
    · ext; grind
  · rintro ⟨rfl, h5, rfl, h3, rfl⟩
    ext
    grind

/-- R39: the layout of SPAWN. -/
theorem fn_eq_spawn_iff {fn : BitVec 9} {p : Bool} {r : BitVec 3} :
    fn = 0#5 ++ bit1 p ++ r ↔ fn.extractLsb' 4 5 = 0#5 ∧ fn[3] = p ∧ fn.extractLsb' 0 3 = r := by
  unfold bit1
  constructor
  · rintro rfl
    refine ⟨?_, ?_, ?_⟩
    · ext; grind
    · grind
    · ext; grind
  · rintro ⟨h0, rfl, rfl⟩
    rw [← h0]
    ext
    grind

/-- R94: the layout of BFX and BFI. -/
theorem imm_eq_field_iff {imm : BitVec 15} {w p : BitVec 6} :
    imm = 0#3 ++ w ++ p ↔ imm.extractLsb' 12 3 = 0#3 ∧ imm.extractLsb' 6 6 = w ∧ imm.extractLsb' 0 6 = p := by
  constructor
  · rintro rfl
    refine ⟨?_, ?_, ?_⟩ <;> (ext; grind)
  · rintro ⟨h0, rfl, rfl⟩
    rw [← h0]
    ext
    grind

/-- R37: the layout of FENCE. -/
theorem imm_eq_fence_iff {imm : BitVec 15} {e f g h : Bool} {c : BitVec 3} :
    imm = 0#8 ++ bit1 e ++ bit1 f ++ bit1 g ++ bit1 h ++ c ↔
      imm.extractLsb' 7 8 = 0#8 ∧ imm[6] = e ∧ imm[5] = f ∧ imm[4] = g ∧ imm[3] = h ∧
        imm.extractLsb' 0 3 = c := by
  unfold bit1
  constructor
  · rintro rfl
    refine ⟨?_, ?_, ?_, ?_, ?_, ?_⟩
    · ext; grind
    · grind
    · grind
    · grind
    · grind
    · ext; grind
  · rintro ⟨h0, rfl, rfl, rfl, rfl, rfl⟩
    rw [← h0]
    ext
    grind

theorem fn_eq_routine_iff {fn : BitVec 9} {n : BitVec 6} {c : BitVec 3} :
    fn = n ++ c ↔ fn.extractLsb' 3 6 = n ∧ fn.extractLsb' 0 3 = c := eq_append_iff (m := 6) (n := 3)
theorem fn_eq_number_iff {fn : BitVec 9} {k : BitVec 4} :
    fn = 0#5 ++ k ↔ fn.extractLsb' 4 5 = 0#5 ∧ fn.extractLsb' 0 4 = k := eq_append_iff (m := 5) (n := 4)
theorem imm_eq_shift_iff {imm : BitVec 15} {h : BitVec 6} :
    imm = 0#9 ++ h ↔ imm.extractLsb' 6 9 = 0#9 ∧ imm.extractLsb' 0 6 = h := eq_append_iff (m := 9) (n := 6)
theorem imm_eq_size_iff {imm : BitVec 15} {z : BitVec 2} {o : BitVec 13} :
    imm = z ++ o ↔ imm.extractLsb' 13 2 = z ∧ imm.extractLsb' 0 13 = o := eq_append_iff (m := 2) (n := 13)
theorem immS_eq_size_iff {imm : BitVec 14} {z : BitVec 2} {o : BitVec 12} :
    imm = z ++ o ↔ imm.extractLsb' 12 2 = z ∧ imm.extractLsb' 0 12 = o := eq_append_iff (m := 2) (n := 12)
theorem y_eq_system_iff {y : BitVec 16} {k : BitVec 4} {r : BitVec 12} :
    y = k ++ r ↔ y.extractLsb' 12 4 = k ∧ y.extractLsb' 0 12 = r := eq_append_iff (m := 4) (n := 12)

/-! ## Decoding a word from its fields -/

theorem accept_eq_ok_iff {w : W32} {unused : Bool} {i j : Instr} :
    accept w unused i = .ok j ↔ unused = true ∧ i.wf = true ∧ i = j := by
  unfold accept
  split
  · split <;> simp_all
  · simp_all

theorem accept_of_wf {w : W32} {i : Instr} (h : i.wf = true) : accept w true i = .ok i :=
  accept_eq_ok_iff.mpr ⟨rfl, h, rfl⟩

theorem decodeWord_of_encodeWord {i : Instr} {w : W32} (hwf : i.wf = true) (h : encodeWord i = some w) :
    decodeWord w = .ok i := by
  have ha := accept_of_wf (w := w) hwf
  cases i with
  | add d a b ta tb | sub d a b ta tb | and d a b ta tb | or d a b ta tb | xor d a b ta tb | sll d a b ta tb
  | srl d a b ta tb | sra d a b ta tb | slt d a b ta tb | sltu d a b ta tb | min d a b ta tb | max d a b ta tb
  | minu d a b ta tb | maxu d a b ta tb =>
    obtain ⟨hop, rfl, rfl, rfl, rfl, rfl, hfn⟩ := wordR_eq_iff.mp (Option.some.inj h)
    simpa [decodeWord, hop, decodeInt, hfn] using ha
  | mul d a b ta tb | mulh d a b ta tb | mulhu d a b ta tb | div d a b ta tb | divu d a b ta tb | rem d a b ta tb
  | remu d a b ta tb =>
    obtain ⟨hop, rfl, rfl, rfl, rfl, rfl, hfn⟩ := wordR_eq_iff.mp (Option.some.inj h)
    simpa [decodeWord, hop, decodeMul, hfn] using ha
  | clz d a ta | ctz d a ta | popc d a ta =>
    obtain ⟨hop, rfl, rfl, hb, rfl, htb, hfn⟩ := wordR_eq_iff.mp (Option.some.inj h)
    simpa [decodeWord, hop, decodeBit, hfn, zB, hb, htb] using ha
  | sext d a ta z | zext d a ta z =>
    obtain ⟨hop, rfl, rfl, hb, rfl, htb, hfn⟩ := wordR_eq_iff.mp (Option.some.inj h)
    have hz : z = 0#2 ∨ z = 1#2 ∨ z = 2#2 := by
      have := of_decide_eq_true hwf
      bv_omega
    rcases hz with rfl | rfl | rfl <;> simpa [decodeWord, hop, decodeBit, hfn, zB, hb, htb] using ha
  | mke d =>
    obtain ⟨hop, rfl, ha0, hb, hta, htb, hfn⟩ := wordR_eq_iff.mp (Option.some.inj h)
    simpa [decodeWord, hop, decodeBit, hfn, zA, zB, ha0, hb, hta, htb] using ha
  | full d a =>
    obtain ⟨hop, rfl, rfl, hb, hta, htb, hfn⟩ := wordR_eq_iff.mp (Option.some.inj h)
    simpa [decodeWord, hop, decodeBit, hfn, zB, hb, hta, htb] using ha
  | addpc d imm | lih d imm | jal d imm =>
    obtain ⟨hop, rfl, rfl⟩ := wordJ_eq_iff.mp (Option.some.inj h)
    simpa [decodeWord, hop] using ha
  | addi d a ta imm | andi d a ta imm | ori d a ta imm | xori d a ta imm | slti d a ta imm | sltiu d a ta imm =>
    obtain ⟨hop, rfl, rfl, rfl, rfl⟩ := wordI_eq_iff.mp (Option.some.inj h)
    simpa [decodeWord, hop] using ha
  | slli d a ta k | srli d a ta k | srai d a ta k =>
    obtain ⟨hop, rfl, rfl, rfl, himm⟩ := wordI_eq_iff.mp (Option.some.inj h)
    obtain ⟨h0, rfl⟩ := imm_eq_shift_iff.mp himm
    simpa [decodeWord, hop, h0] using ha
  | bfx d a ta l p | bfi d a ta l p =>
    obtain ⟨hop, rfl, rfl, rfl, himm⟩ := wordI_eq_iff.mp (Option.some.inj h)
    obtain ⟨h0, rfl, rfl⟩ := imm_eq_field_iff.mp himm
    simpa [decodeWord, hop, h0] using ha
  | ld d a ta z o | lda d a ta z o =>
    obtain ⟨hop, rfl, rfl, rfl, himm⟩ := wordI_eq_iff.mp (Option.some.inj h)
    obtain ⟨rfl, rfl⟩ := imm_eq_size_iff.mp himm
    simpa [decodeWord, hop] using ha
  | st b a ta tb z o | str b a ta tb z o =>
    obtain ⟨hop, rfl, rfl, rfl, rfl, himm⟩ := wordS_eq_iff.mp (Option.some.inj h)
    obtain ⟨rfl, rfl⟩ := immS_eq_size_iff.mp himm
    simpa [decodeWord, hop] using ha
  | fence e f g k c =>
    obtain ⟨hop, hd, ha0, hta, himm⟩ := wordI_eq_iff.mp (Option.some.inj h)
    obtain ⟨h0, rfl, rfl, rfl, rfl, rfl⟩ := imm_eq_fence_iff.mp himm
    simpa [decodeWord, hop, zD, zA, hd, ha0, hta, h0] using ha
  | flush a ta o =>
    obtain ⟨hop, hd, rfl, rfl, rfl⟩ := wordI_eq_iff.mp (Option.some.inj h)
    simpa [decodeWord, hop, zD, hd] using ha
  | beq b a ta tb k | bne b a ta tb k | blt b a ta tb k | bge b a ta tb k | bltu b a ta tb k | bgeu b a ta tb k =>
    obtain ⟨hop, rfl, rfl, rfl, rfl, rfl⟩ := wordS_eq_iff.mp (Option.some.inj h)
    simpa [decodeWord, hop] using ha
  | jalr d a ta o =>
    obtain ⟨hop, rfl, rfl, rfl, himm⟩ := wordI_eq_iff.mp (Option.some.inj h)
    obtain ⟨hk, rfl⟩ := imm_eq_size_iff.mp himm
    simpa [decodeWord, hop, decodeJump, hk] using ha
  | loop a ta l =>
    obtain ⟨hop, hd, rfl, rfl, himm⟩ := wordI_eq_iff.mp (Option.some.inj h)
    obtain ⟨hk, rfl⟩ := imm_eq_size_iff.mp himm
    simpa [decodeWord, hop, decodeJump, hk, zD, hd] using ha
  | pause n =>
    obtain ⟨hop, hd, ha0, hta, himm⟩ := wordI_eq_iff.mp (Option.some.inj h)
    obtain ⟨hk, rfl⟩ := imm_eq_size_iff.mp himm
    simpa [decodeWord, hop, decodeJump, hk, zD, zA, hd, ha0, hta] using ha
  | atom d a b ta tb o z c | watch d a b ta tb o z c =>
    obtain ⟨hop, rfl, rfl, rfl, rfl, rfl, hfn⟩ := wordR_eq_iff.mp (Option.some.inj h)
    obtain ⟨rfl, rfl, h3, rfl⟩ := fn_eq_atomic_iff.mp hfn
    simpa [decodeWord, hop, h3, sizeF, scopeF] using ha
  | red a b ta tb o z c =>
    obtain ⟨hop, hd, rfl, rfl, rfl, rfl, hfn⟩ := wordR_eq_iff.mp (Option.some.inj h)
    obtain ⟨rfl, rfl, h3, rfl⟩ := fn_eq_atomic_iff.mp hfn
    simpa [decodeWord, hop, h3, zD, hd, sizeF, scopeF] using ha
  | atomr d a b ta tb n c =>
    obtain ⟨hop, rfl, rfl, rfl, rfl, rfl, hfn⟩ := wordR_eq_iff.mp (Option.some.inj h)
    obtain ⟨rfl, rfl⟩ := fn_eq_routine_iff.mp hfn
    simpa [decodeWord, hop, scopeF] using ha
  | binit a b ta tb c =>
    obtain ⟨hop, hd, rfl, rfl, rfl, rfl, hfn⟩ := wordR_eq_iff.mp (Option.some.inj h)
    obtain ⟨hk, h0, rfl⟩ := fn_eq_barrier_iff.mp hfn
    simpa [decodeWord, hop, decodeBarrier, hk, h0, zD, hd, scopeF] using ha
  | binv a ta c =>
    obtain ⟨hop, hd, rfl, hb, rfl, htb, hfn⟩ := wordR_eq_iff.mp (Option.some.inj h)
    obtain ⟨hk, h0, rfl⟩ := fn_eq_barrier_iff.mp hfn
    simpa [decodeWord, hop, decodeBarrier, hk, h0, zD, zB, hd, hb, htb, scopeF] using ha
  | arrive d a ta c =>
    obtain ⟨hop, rfl, rfl, hb, rfl, htb, hfn⟩ := wordR_eq_iff.mp (Option.some.inj h)
    obtain ⟨hk, h0, rfl⟩ := fn_eq_barrier_iff.mp hfn
    simpa [decodeWord, hop, decodeBarrier, hk, h0, zB, hb, htb, scopeF] using ha
  | testph d a b ta tb c | waitph d a b ta tb c =>
    obtain ⟨hop, rfl, rfl, rfl, rfl, rfl, hfn⟩ := wordR_eq_iff.mp (Option.some.inj h)
    obtain ⟨hk, h0, rfl⟩ := fn_eq_barrier_iff.mp hfn
    simpa [decodeWord, hop, decodeBarrier, hk, h0, scopeF] using ha
  | sigop d a b ta tb o z c =>
    obtain ⟨hop, rfl, rfl, rfl, rfl, rfl, hfn⟩ := wordR_eq_iff.mp (Option.some.inj h)
    obtain ⟨rfl, h5, rfl, h3, rfl⟩ := fn_eq_signal_iff.mp hfn
    simpa [decodeWord, hop, h5, h3, sizeF, scopeF] using ha
  | futrd d a ta z c =>
    obtain ⟨hop, rfl, rfl, hb, rfl, htb, hfn⟩ := wordR_eq_iff.mp (Option.some.inj h)
    obtain ⟨hk, h5, rfl, h3, rfl⟩ := fn_eq_signal_iff.mp hfn
    simpa [decodeWord, hop, decodeFuture, hk, h5, h3, zB, hb, htb, sizeF, scopeF] using ha
  | futwr a b ta tb z c =>
    obtain ⟨hop, hd, rfl, rfl, rfl, rfl, hfn⟩ := wordR_eq_iff.mp (Option.some.inj h)
    obtain ⟨hk, h5, rfl, h3, rfl⟩ := fn_eq_signal_iff.mp hfn
    simpa [decodeWord, hop, decodeFuture, hk, h5, h3, zD, hd, sizeF, scopeF] using ha
  | spawn d a b ta tb p r =>
    obtain ⟨hop, rfl, rfl, rfl, rfl, rfl, hfn⟩ := wordR_eq_iff.mp (Option.some.inj h)
    obtain ⟨h0, rfl, rfl⟩ := fn_eq_spawn_iff.mp hfn
    simpa [decodeWord, hop, h0] using ha
  | depadd a b ta tb | depdec a b ta tb =>
    obtain ⟨hop, hd, rfl, rfl, rfl, rfl, hfn⟩ := wordR_eq_iff.mp (Option.some.inj h)
    simpa [decodeWord, hop, decodeDep, hfn, zD, hd] using ha
  | done a ta =>
    obtain ⟨hop, hd, rfl, hb, rfl, htb, hfn⟩ := wordR_eq_iff.mp (Option.some.inj h)
    simpa [decodeWord, hop, decodeEnd, hfn, zD, zB, hd, hb, htb] using ha
  | suspend b tb =>
    obtain ⟨hop, hd, ha0, rfl, hta, rfl, hfn⟩ := wordR_eq_iff.mp (Option.some.inj h)
    simpa [decodeWord, hop, decodeEnd, hfn, zD, zA, hd, ha0, hta] using ha
  | yield =>
    obtain ⟨hop, hd, ha0, hb, hta, htb, hfn⟩ := wordR_eq_iff.mp (Option.some.inj h)
    simpa [decodeWord, hop, decodeEnd, hfn, zD, zA, zB, hd, ha0, hb, hta, htb] using ha
  | arm a b ta tb k =>
    obtain ⟨hop, hd, rfl, rfl, rfl, rfl, hfn⟩ := wordR_eq_iff.mp (Option.some.inj h)
    obtain ⟨h0, rfl⟩ := fn_eq_number_iff.mp hfn
    simpa [decodeWord, hop, h0, zD, hd] using ha
  | book d a b ta tb =>
    obtain ⟨hop, rfl, rfl, rfl, rfl, rfl, hfn⟩ := wordR_eq_iff.mp (Option.some.inj h)
    simpa [decodeWord, hop, hfn] using ha
  | extend d a ta =>
    obtain ⟨hop, rfl, rfl, hb, rfl, htb, hfn⟩ := wordR_eq_iff.mp (Option.some.inj h)
    simpa [decodeWord, hop, hfn, zB, hb, htb] using ha
  | release a ta =>
    obtain ⟨hop, hd, rfl, hb, rfl, htb, hfn⟩ := wordR_eq_iff.mp (Option.some.inj h)
    simpa [decodeWord, hop, hfn, zD, zB, hd, hb, htb] using ha
  | issue d a b n =>
    obtain ⟨hop, rfl, rfl, rfl, rfl⟩ := wordC_eq_iff.mp (Option.some.inj h)
    simp [decodeWord, hop]
  | srr d r =>
    obtain ⟨hop, rfl, ha0, hy⟩ := wordY_eq_iff.mp (Option.some.inj h)
    obtain ⟨hk, rfl⟩ := y_eq_system_iff.mp hy
    simpa [decodeWord, hop, decodeSystem, hk, zA, ha0] using ha
  | srw a r =>
    obtain ⟨hop, hd, rfl, hy⟩ := wordY_eq_iff.mp (Option.some.inj h)
    obtain ⟨hk, rfl⟩ := y_eq_system_iff.mp hy
    simpa [decodeWord, hop, decodeSystem, hk, zD, hd] using ha
  | trap n =>
    obtain ⟨hop, hd, ha0, hy⟩ := wordY_eq_iff.mp (Option.some.inj h)
    obtain ⟨hk, rfl⟩ := y_eq_system_iff.mp hy
    simpa [decodeWord, hop, decodeSystem, hk, zD, zA, hd, ha0] using ha
  | eret =>
    obtain ⟨hop, hd, ha0, hy⟩ := wordY_eq_iff.mp (Option.some.inj h)
    obtain ⟨hk, h0⟩ := y_eq_system_iff.mp hy
    simpa [decodeWord, hop, decodeSystem, hk, h0, zD, zA, hd, ha0] using ha
  | _ => nomatch h

/-! ## Encoding what a word decodes to -/

theorem exact_of_accept {w : W32} {unused : Bool} {i j : Instr} (h : accept w unused i = .ok j)
    (henc : unused = true → encodeWord i = some w) : j.wf = true ∧ encodeWord j = some w := by
  obtain ⟨hu, hwf, rfl⟩ := accept_eq_ok_iff.mp h
  exact ⟨hwf, henc hu⟩

theorem encodeWord_of_decodeInt {w : W32} {i : Instr} (hop : opF w = 0x00#6) (h : decodeInt w = .ok i) :
    i.wf = true ∧ encodeWord i = some w := by
  unfold decodeInt at h
  split at h
  case h_15 => nomatch h
  all_goals
    rename_i hfn
    exact exact_of_accept h fun _ => congrArg some
      (wordR_eq_iff.mpr ⟨hop, rfl, rfl, rfl, rfl, rfl, BitVec.eq_of_toNat_eq hfn⟩)

theorem encodeWord_of_decodeMul {w : W32} {i : Instr} (hop : opF w = 0x01#6) (h : decodeMul w = .ok i) :
    i.wf = true ∧ encodeWord i = some w := by
  unfold decodeMul at h
  split at h
  case h_8 => nomatch h
  all_goals
    rename_i hfn
    exact exact_of_accept h fun _ => congrArg some
      (wordR_eq_iff.mpr ⟨hop, rfl, rfl, rfl, rfl, rfl, BitVec.eq_of_toNat_eq hfn⟩)

/-- An unused register field is zero. -/
theorem zD_iff {w : W32} : zD w = true ↔ dF w = 0#5 := by simp [zD]
theorem zA_iff {w : W32} : zA w = true ↔ aF w = 0#5 := by simp [zA]
theorem zB_iff {w : W32} : zB w = true ↔ bF w = 0#5 := by simp [zB]

theorem eq_ofNat_of_toNat_eq {n k : Nat} {x : BitVec n} (h : x.toNat = k) : x = BitVec.ofNat n k := by
  rw [← h, BitVec.ofNat_toNat, BitVec.setWidth_eq]

theorem encodeWord_of_decodeBit {w : W32} {i : Instr} (hop : opF w = 0x02#6) (h : decodeBit w = .ok i) :
    i.wf = true ∧ encodeWord i = some w := by
  unfold decodeBit at h
  split at h
  case h_12 => nomatch h
  all_goals
    rename_i hfn
    refine exact_of_accept h fun hu => congrArg some (wordR_eq_iff.mpr ?_)
    simp only [Bool.and_eq_true, Bool.not_eq_true', zA_iff, zB_iff] at hu
    simp only [hop, hu, eq_ofNat_of_toNat_eq hfn, and_self, true_and]
  all_goals rfl

theorem encodeWord_of_decodeBarrier {w : W32} {i : Instr} (hop : opF w = 0x23#6) (h : decodeBarrier w = .ok i) :
    i.wf = true ∧ encodeWord i = some w := by
  unfold decodeBarrier at h
  split at h
  · nomatch h
  next h0 =>
    simp only [bne_iff_ne, ne_eq, Decidable.not_not] at h0
    split at h
    case h_6 => nomatch h
    all_goals
      rename_i hk
      refine exact_of_accept h fun hu => congrArg some (wordR_eq_iff.mpr ?_)
      simp only [Bool.and_eq_true, Bool.not_eq_true', zD_iff, zB_iff] at hu
      simp only [hop, hu, fn_eq_barrier_iff, eq_ofNat_of_toNat_eq hk, h0, scopeF, and_self]

theorem encodeWord_of_decodeFuture {w : W32} {i : Instr} (hop : opF w = 0x26#6) (h : decodeFuture w = .ok i) :
    i.wf = true ∧ encodeWord i = some w := by
  unfold decodeFuture at h
  split at h
  · nomatch h
  next h53 =>
    obtain ⟨h5, h3⟩ : (fnF w)[5] = false ∧ (fnF w)[3] = false := by simpa using h53
    split at h
    case h_3 => nomatch h
    all_goals
      rename_i hk
      refine exact_of_accept h fun hu => congrArg some (wordR_eq_iff.mpr ?_)
      simp only [Bool.and_eq_true, Bool.not_eq_true', zD_iff, zB_iff] at hu
      simp only [hop, hu, fn_eq_signal_iff, eq_ofNat_of_toNat_eq hk, h5, h3, scopeF, sizeF, true_and, and_true]
    all_goals rfl

theorem encodeWord_of_decodeDep {w : W32} {i : Instr} (hop : opF w = 0x29#6) (h : decodeDep w = .ok i) :
    i.wf = true ∧ encodeWord i = some w := by
  unfold decodeDep at h
  split at h
  case h_3 => nomatch h
  all_goals
    rename_i hfn
    exact exact_of_accept h fun hu => congrArg some
      (wordR_eq_iff.mpr ⟨hop, zD_iff.mp hu, rfl, rfl, rfl, rfl, eq_ofNat_of_toNat_eq hfn⟩)

theorem encodeWord_of_decodeEnd {w : W32} {i : Instr} (hop : opF w = 0x2A#6) (h : decodeEnd w = .ok i) :
    i.wf = true ∧ encodeWord i = some w := by
  unfold decodeEnd at h
  split at h
  case h_4 => nomatch h
  all_goals
    rename_i hfn
    refine exact_of_accept h fun hu => congrArg some (wordR_eq_iff.mpr ?_)
    simp only [Bool.and_eq_true, Bool.not_eq_true', zD_iff, zA_iff, zB_iff] at hu
    simp only [hop, hu, eq_ofNat_of_toNat_eq hfn, and_self]

theorem encodeWord_of_decodeJump {w : W32} {i : Instr} (hop : opF w = 0x1F#6) (h : decodeJump w = .ok i) :
    i.wf = true ∧ encodeWord i = some w := by
  unfold decodeJump at h
  split at h
  case h_4 => nomatch h
  all_goals
    rename_i hk
    refine exact_of_accept h fun hu => congrArg some (wordI_eq_iff.mpr ?_)
    simp only [Bool.and_eq_true, Bool.not_eq_true', zD_iff, zA_iff] at hu
    simp only [hop, hu, imm_eq_size_iff, eq_ofNat_of_toNat_eq hk, and_self]

theorem encodeWord_of_decodeSystem {w : W32} {i : Instr} (hop : opF w = 0x3F#6) (h : decodeSystem w = .ok i) :
    i.wf = true ∧ encodeWord i = some w := by
  unfold decodeSystem at h
  split at h
  case h_5 => nomatch h
  all_goals
    rename_i hk
    refine exact_of_accept h fun hu => congrArg some (wordY_eq_iff.mpr ?_)
    simp only [Bool.and_eq_true, beq_iff_eq, zD_iff, zA_iff] at hu
    simp only [hop, hu, y_eq_system_iff, eq_ofNat_of_toNat_eq hk, and_self]

theorem encodeWord_of_decodeWord {w : W32} {i : Instr} (h : decodeWord w = .ok i) :
    i.wf = true ∧ encodeWord i = some w := by
  unfold decodeWord at h
  split at h
  case h_47 => nomatch h
  all_goals
    rename_i hop
    replace hop := eq_ofNat_of_toNat_eq hop
  case h_1 => exact encodeWord_of_decodeInt hop h
  case h_2 => exact encodeWord_of_decodeMul hop h
  case h_3 => exact encodeWord_of_decodeBit hop h
  case h_4 | h_16 | h_29 => exact exact_of_accept h fun _ => congrArg some (wordJ_eq_iff.mpr ⟨hop, rfl, rfl⟩)
  case h_5 | h_6 | h_7 | h_8 | h_9 | h_10 =>
    exact exact_of_accept h fun _ => congrArg some (wordI_eq_iff.mpr ⟨hop, rfl, rfl, rfl, rfl⟩)
  case h_11 | h_12 | h_13 =>
    exact exact_of_accept h fun hu => congrArg some
      (wordI_eq_iff.mpr ⟨hop, rfl, rfl, rfl, imm_eq_shift_iff.mpr ⟨eq_of_beq hu, rfl⟩⟩)
  case h_14 | h_15 =>
    exact exact_of_accept h fun hu => congrArg some
      (wordI_eq_iff.mpr ⟨hop, rfl, rfl, rfl, imm_eq_field_iff.mpr ⟨eq_of_beq hu, rfl, rfl⟩⟩)
  case h_17 | h_18 =>
    exact exact_of_accept h fun _ => congrArg some
      (wordI_eq_iff.mpr ⟨hop, rfl, rfl, rfl, imm_eq_size_iff.mpr ⟨rfl, rfl⟩⟩)
  case h_19 | h_20 =>
    exact exact_of_accept h fun _ => congrArg some
      (wordS_eq_iff.mpr ⟨hop, rfl, rfl, rfl, rfl, immS_eq_size_iff.mpr ⟨rfl, rfl⟩⟩)
  case h_21 =>
    refine exact_of_accept h fun hu => congrArg some (wordI_eq_iff.mpr ?_)
    simp only [Bool.and_eq_true, Bool.not_eq_true', beq_iff_eq, zD_iff, zA_iff] at hu
    simp [hop, hu, imm_eq_fence_iff]
  case h_22 =>
    exact exact_of_accept h fun hu => congrArg some (wordI_eq_iff.mpr ⟨hop, zD_iff.mp hu, rfl, rfl, rfl⟩)
  case h_23 | h_24 | h_25 | h_26 | h_27 | h_28 =>
    exact exact_of_accept h fun _ => congrArg some (wordS_eq_iff.mpr ⟨hop, rfl, rfl, rfl, rfl, rfl⟩)
  case h_30 => exact encodeWord_of_decodeJump hop h
  case h_31 | h_36 =>
    refine exact_of_accept h fun hu => congrArg some (wordR_eq_iff.mpr ⟨hop, rfl, rfl, rfl, rfl, rfl, ?_⟩)
    exact fn_eq_atomic_iff.mpr ⟨rfl, rfl, by simpa using hu, rfl⟩
  case h_32 =>
    exact exact_of_accept h fun _ => congrArg some
      (wordR_eq_iff.mpr ⟨hop, rfl, rfl, rfl, rfl, rfl, fn_eq_routine_iff.mpr ⟨rfl, rfl⟩⟩)
  case h_33 =>
    refine exact_of_accept h fun hu => congrArg some ?_
    obtain ⟨hd, h3⟩ : dF w = 0#5 ∧ (fnF w)[3] = false := by simpa [zD_iff] using hu
    exact wordR_eq_iff.mpr ⟨hop, hd, rfl, rfl, rfl, rfl, fn_eq_atomic_iff.mpr ⟨rfl, rfl, h3, rfl⟩⟩
  case h_34 => exact encodeWord_of_decodeBarrier hop h
  case h_35 =>
    refine exact_of_accept h fun hu => congrArg some ?_
    obtain ⟨h5, h3⟩ : (fnF w)[5] = false ∧ (fnF w)[3] = false := by simpa using hu
    exact wordR_eq_iff.mpr ⟨hop, rfl, rfl, rfl, rfl, rfl, fn_eq_signal_iff.mpr ⟨rfl, h5, rfl, h3, rfl⟩⟩
  case h_37 => exact encodeWord_of_decodeFuture hop h
  case h_38 =>
    exact exact_of_accept h fun hu => congrArg some
      (wordR_eq_iff.mpr ⟨hop, rfl, rfl, rfl, rfl, rfl, fn_eq_spawn_iff.mpr ⟨eq_of_beq hu, rfl, rfl⟩⟩)
  case h_39 => exact encodeWord_of_decodeDep hop h
  case h_40 => exact encodeWord_of_decodeEnd hop h
  case h_41 =>
    refine exact_of_accept h fun hu => congrArg some ?_
    obtain ⟨hd, h0⟩ : dF w = 0#5 ∧ (fnF w).extractLsb' 4 5 = 0#5 := by simpa [zD_iff] using hu
    exact wordR_eq_iff.mpr ⟨hop, hd, rfl, rfl, rfl, rfl, fn_eq_number_iff.mpr ⟨h0, rfl⟩⟩
  case h_42 =>
    exact exact_of_accept h fun hu => congrArg some
      (wordR_eq_iff.mpr ⟨hop, rfl, rfl, rfl, rfl, rfl, eq_of_beq hu⟩)
  case h_43 =>
    refine exact_of_accept h fun hu => congrArg some ?_
    obtain ⟨⟨hb, htb⟩, hfn⟩ : (bF w = 0#5 ∧ tbR w = false) ∧ fnF w = 0#9 := by simpa [zB_iff] using hu
    exact wordR_eq_iff.mpr ⟨hop, rfl, rfl, hb, rfl, htb, hfn⟩
  case h_44 =>
    refine exact_of_accept h fun hu => congrArg some ?_
    obtain ⟨⟨⟨hd, hb⟩, htb⟩, hfn⟩ : ((dF w = 0#5 ∧ bF w = 0#5) ∧ tbR w = false) ∧ fnF w = 0#9 := by
      simpa [zD_iff, zB_iff] using hu
    exact wordR_eq_iff.mpr ⟨hop, hd, rfl, hb, rfl, htb, hfn⟩
  case h_45 =>
    obtain rfl := Except.ok.inj h
    exact ⟨rfl, congrArg some (wordC_eq_iff.mpr ⟨hop, rfl, rfl, rfl, rfl⟩)⟩
  case h_46 => exact encodeWord_of_decodeSystem hop h

/-! ## Bytes -/

theorem wordOfBytes_byteOf (w : W32) : wordOfBytes (byteOf w 0) (byteOf w 1) (byteOf w 2) (byteOf w 3) = w := by
  ext i hi
  simp only [wordOfBytes, byteOf]
  grind

theorem decode_encode_append {i : Instr} {w : W32} (henc : encodeWord i = some w) (hdec : decodeWord w = .ok i)
    (rest : List Byte) : decode (encode i ++ rest) = .ok (i, rest) := by
  have hbytes : encode i = [byteOf w 0, byteOf w 1, byteOf w 2, byteOf w 3] := by
    simp [encode, henc, bytesOf]
  simp [hbytes, decode, wordOfBytes_byteOf, hdec]

/-- Settles O26, constructor by constructor: the fields of the word fix what the decoder reads. -/
theorem scalarEncodeThenDecode : Obligations.ScalarEncodeThenDecode := by
  unfold Obligations.ScalarEncodeThenDecode
  intro i w hwf henc
  have hdec := decodeWord_of_encodeWord hwf henc
  exact ⟨hdec, decode_encode_append henc hdec⟩

/-- Settles O27, along the branches of the decoder: each accepts one word for the fields it reads. -/
theorem scalarDecodeIsExact : Obligations.ScalarDecodeIsExact := by
  unfold Obligations.ScalarDecodeIsExact
  exact fun _ _ => encodeWord_of_decodeWord

/-- Settles O29: ten closed words, and no branch of the decoder for opcode 0x3E. -/
theorem wordsOfTheManualDecode : Obligations.WordsOfTheManualDecode := by
  unfold Obligations.WordsOfTheManualDecode
  refine ⟨by decide, by decide, by decide, by decide, by decide, by decide, by decide, by decide, by decide, ?_⟩
  have hreserved : decodeWord 0xF8000000#32 = .error (.reservedOpcode 0x3E) := by decide
  intro i hi
  rw [hreserved] at hi
  nomatch hi

end Sys2Proof
end

section
/-! PROOFS. Stream commands and site words (O28): packing and unpacking undo each other, and the tables of R43 and R50 are
the same read from an opcode to its constructor and from a constructor to its opcode. -/

namespace Sys2Proof

/-! ## Stream commands (R41 to R45) -/

theorem bit1_getLsbD {n k : Nat} (w : BitVec n) : bit1 (w.getLsbD k) = w.extractLsb' k 1 := by
  ext i hi
  obtain rfl : i = 0 := by omega
  simp [bit1]

theorem packCmd_unpackCmd (w : W128) : packCmd (opCmd w) (unpackCmd w) = w := by
  simp only [packCmd, unpackCmd, opCmd, BitVec.ofNat_toNat, BitVec.setWidth_eq, bit1_getLsbD,
    BitVec.extractLsb'_append_extractLsb'_eq_extractLsb']
  exact BitVec.extractLsb'_eq_self

theorem unpackCmd_packCmd (op : Nat) (x : CmdArgs) : unpackCmd (packCmd op x) = x := by
  obtain ⟨fs, ff, fw, fc, ta, tb, tc, scope, fixed, p0, p1⟩ := x
  rw [unpackCmd, CmdArgs.mk.injEq, packCmd]
  unfold bit1
  refine ⟨?_, ?_, ?_, ?_, ?_, ?_, ?_, ?_, ?_, ?_, ?_⟩
  iterate 4
    · simp only [BitVec.getLsbD_append]
      simp
  all_goals
    ext i hi
    simp only [BitVec.getElem_extractLsb', BitVec.getLsbD_append]
    grind

theorem packSite_unpackSite (w : W64) : packSite (kindSite w) (opSite w) (unpackSite w) = w := by
  simp only [packSite, unpackSite, kindSite, opSite, BitVec.ofNat_toNat, BitVec.setWidth_eq,
    BitVec.extractLsb'_append_extractLsb'_eq_extractLsb']
  exact BitVec.extractLsb'_eq_self

theorem unpackSite_packSite (kind op : Nat) (x : SiteArgs) : unpackSite (packSite kind op x) = x := by
  obtain ⟨dst, a, b, c, ty, rnd, mods⟩ := x
  rw [packSite, unpackSite, SiteArgs.mk.injEq]
  refine ⟨?_, ?_, ?_, ?_, ?_, ?_, ?_⟩
  all_goals
    ext i hi
    simp only [BitVec.getElem_extractLsb', BitVec.getLsbD_append]
    grind

/-- The row of R43's table that the constructor `i` stands for. -/
structure CmdRow (op : Nat) (k : CmdRef) (x : CmdArgs) (i : Instr) : Prop where
  opcode : i.cmdOpcode = some op
  args : i.cmdArgs = some (k, x)
  wf : i.wf = cmdStaticOk op x
  instr : cmdInstr op k x = some i
  lt : op < 256

theorem cmdRow_of_cmdArgs {i : Instr} {k : CmdRef} {x : CmdArgs} (h : i.cmdArgs = some (k, x)) :
    ∃ op, CmdRow op k x i := by
  unfold Instr.cmdArgs at h
  split at h
  case h_39 => nomatch h
  all_goals
    obtain ⟨rfl, rfl⟩ := Prod.mk.inj (Option.some.inj h)
    exact ⟨_, rfl, rfl, rfl, rfl, by decide⟩

theorem cmdRow_of_cmdInstr {op : Nat} {k : CmdRef} {x : CmdArgs} {i : Instr} (h : cmdInstr op k x = some i) :
    CmdRow op k x i := by
  unfold cmdInstr at h
  split at h
  case h_39 => nomatch h
  all_goals
    obtain rfl := Option.some.inj h
    exact ⟨rfl, rfl, rfl, rfl, by decide⟩

theorem CmdRow.encode {op : Nat} {k : CmdRef} {x : CmdArgs} {i : Instr} (row : CmdRow op k x i) :
    encodeCmd i = some (packCmd op x) := by
  rw [encodeCmd, row.opcode, row.args]

theorem CmdRow.decode {op : Nat} {k : CmdRef} {x : CmdArgs} {i : Instr} (row : CmdRow op k x i) (hwf : i.wf = true) :
    decodeCmd k (packCmd op x) = some i := by
  have hok : cmdStaticOk op x = true := row.wf ▸ hwf
  simp [decodeCmd, opCmd_packCmd, unpackCmd_packCmd, Nat.mod_eq_of_lt row.lt, hok, row.instr]

theorem encodeCmd_of_decodeCmd {k : CmdRef} {w : W128} {i : Instr} (h : decodeCmd k w = some i) :
    i.wf = true ∧ encodeCmd i = some w ∧ i.cmdArgs = some (k, unpackCmd w) := by
  obtain ⟨hok, hinstr⟩ : cmdStaticOk (opCmd w) (unpackCmd w) = true ∧ cmdInstr (opCmd w) k (unpackCmd w) = some i := by
    simpa [decodeCmd] using h
  have row := cmdRow_of_cmdInstr hinstr
  exact ⟨row.wf.trans hok, row.encode.trans (congrArg some (packCmd_unpackCmd w)), row.args⟩

/-! ## Site operation words (R47 to R52) -/

/-- The row of R50's table that the constructor `i` stands for. -/
structure SiteRow (kind op : Nat) (r : SiteRef) (x : SiteArgs) (i : Instr) : Prop where
  opcode : i.siteOpcode = some (kind, op)
  args : i.siteArgs = some (r, x)
  wf : i.wf = (r.ok && siteWordOk kind op x)
  instr : siteInstr kind op r x = some i
  lt : kind < 4 ∧ op < 128

theorem siteRow_of_siteArgs {i : Instr} {r : SiteRef} {x : SiteArgs} (h : i.siteArgs = some (r, x)) :
    ∃ kind op, SiteRow kind op r x i := by
  unfold Instr.siteArgs at h
  split at h
  case h_80 => nomatch h
  all_goals
    obtain ⟨rfl, rfl⟩ := Prod.mk.inj (Option.some.inj h)
    exact ⟨_, _, rfl, rfl, rfl, rfl, by decide⟩

theorem siteRow_of_siteInstr {kind op : Nat} {r : SiteRef} {x : SiteArgs} {i : Instr}
    (h : siteInstr kind op r x = some i) : SiteRow kind op r x i := by
  unfold siteInstr at h
  split at h
  case h_80 => nomatch h
  all_goals
    obtain rfl := Option.some.inj h
    exact ⟨rfl, rfl, rfl, rfl, by decide⟩

theorem SiteRow.encode {kind op : Nat} {r : SiteRef} {x : SiteArgs} {i : Instr} (row : SiteRow kind op r x i) :
    encodeSite i = some (packSite kind op x) := by
  rw [encodeSite, row.opcode, row.args]

theorem SiteRow.decode {kind op : Nat} {r : SiteRef} {x : SiteArgs} {i : Instr} (row : SiteRow kind op r x i)
    (hwf : i.wf = true) : decodeSite r (packSite kind op x) = some i := by
  obtain ⟨-, hok⟩ : r.ok = true ∧ siteWordOk kind op x = true := by simpa [row.wf] using hwf
  obtain ⟨hkind, hop⟩ := row.lt
  simp [decodeSite, opSite_packSite, kindSite_packSite, unpackSite_packSite, Nat.mod_eq_of_lt hkind,
    Nat.mod_eq_of_lt hop, hok, row.instr]

theorem encodeSite_of_decodeSite {r : SiteRef} {w : W64} {i : Instr} (hr : r.ok = true) (h : decodeSite r w = some i) :
    i.wf = true ∧ encodeSite i = some w ∧ i.siteArgs = some (r, unpackSite w) := by
  obtain ⟨hok, hinstr⟩ : siteWordOk (kindSite w) (opSite w) (unpackSite w) = true ∧
      siteInstr (kindSite w) (opSite w) r (unpackSite w) = some i := by
    simpa [decodeSite] using h
  have row := siteRow_of_siteInstr hinstr
  refine ⟨?_, row.encode.trans (congrArg some (packSite_unpackSite w)), row.args⟩
  rw [row.wf, hr, hok, Bool.and_self]

/-- Settles O28: the tables of R43 and R50 are read both ways, and fields pack and unpack. -/
theorem commandAndSiteEncodeThenDecode : Obligations.CommandAndSiteEncodeThenDecode := by
  unfold Obligations.CommandAndSiteEncodeThenDecode
  refine ⟨fun i k x w hwf hargs henc => ?_, fun _ _ _ => encodeCmd_of_decodeCmd, fun i r x w hwf hargs henc => ?_,
    fun _ _ _ => encodeSite_of_decodeSite⟩
  · obtain ⟨op, row⟩ := cmdRow_of_cmdArgs hargs
    obtain rfl := Option.some.inj (row.encode.symm.trans henc)
    exact row.decode hwf
  · obtain ⟨kind, op, row⟩ := siteRow_of_siteArgs hargs
    obtain rfl := Option.some.inj (row.encode.symm.trans henc)
    exact row.decode hwf

end Sys2Proof
end

section
/-! PROOFS. ISSUE (O42): which checks it passes, what acceptance comes to, and what is left alone. -/

namespace Sys2Proof.Machine
open Sys2Proof.Machine.Claims

/-! ## The end of an instruction (R258) -/

/-- R258 entry by entry: the loop stack a completed instruction leaves. -/
theorem loopEnd_of_round {pc : W64} {pre post : List LoopEnt} {e : LoopEnt} (he : e.fin = pc) (hleft : 1 < e.left)
    (hpre : ∀ x ∈ pre, x.fin = pc → x.left ≤ 1) :
    loopEnd pc (pre ++ e :: post) =
      (some e.start, (pre.filter fun x => decide (x.fin ≠ pc)) ++ { e with left := e.left - 1 } :: post) := by
  induction pre with
  | nil => simp [loopEnd, he, hleft]
  | cons x pre ih =>
    have hx := hpre x (by simp)
    have ih := ih fun y hy => hpre y (by simp [hy])
    by_cases hfin : x.fin = pc
    · have : ¬ 1 < x.left := by have := hx hfin; omega
      simp [loopEnd, hfin, this, ih]
    · simp [loopEnd, hfin, ih]

theorem loopEnd_of_spent {pc : W64} {l : List LoopEnt} (h : ∀ x ∈ l, x.fin = pc → x.left ≤ 1) :
    loopEnd pc l = (none, l.filter fun x => decide (x.fin ≠ pc)) := by
  induction l with
  | nil => rfl
  | cons x l ih =>
    have hx := h x (by simp)
    have ih := ih fun y hy => h y (by simp [hy])
    by_cases hfin : x.fin = pc
    · have : ¬ 1 < x.left := by have := hx hfin; omega
      simp [loopEnd, hfin, this, ih]
    · simp [loopEnd, hfin, ih]

theorem goesOn_retire_self (s : State) : GoesOn s s.retire := by
  refine ⟨fun pre e post hl he hleft hpre => ?_, fun h => ?_⟩
  · simp [State.retire, Run.retire, State.modCc, hl, loopEnd_of_round he hleft hpre]
  · simp [State.retire, Run.retire, State.modCc, loopEnd_of_spent h]

/-! ## The shared operations of a task on the context in turn -/

theorem State.run?_cc {s : State} {h : W64} (h0 : h ≠ 0#64) (hcc : s.cc.task = h) : s.run? h = some s.cc := by
  rw [State.run?, if_neg h0, if_pos hcc]

theorem State.modRun_cc {s : State} {h : W64} (h0 : h ≠ 0#64) (hcc : s.cc.task = h) (f : Run → Run) :
    s.modRun h f = { s with cc := f s.cc } := by
  rw [State.modRun, if_neg h0, if_pos hcc]

theorem State.modCtx_cc {s : State} {h : W64} (h0 : h ≠ 0#64) (hcc : s.cc.task = h) (f : Run → Run) :
    s.modCtx h f = { s with cc := f s.cc } := by
  rw [State.modCtx, State.run?_cc h0 hcc, State.modRun_cc h0 hcc]

/-- With no access outstanding a delivery tries no command. -/
theorem State.deliver_cc {s : State} {h : W64} (h0 : h ≠ 0#64) (hcc : s.cc.task = h) (hacc : s.cc.accs = [])
    (n : Nat) (v : W64) :
    s.deliver h n v = { s with
      cc := { s.cc with flights := s.cc.flights.map fun f => if f.id = n then { f with val := some v } else f }
      work := s.work ++ [.lateDelivery ⟨h, n⟩] } := by
  have hnone : (s.cc.accs.any fun a => a.id == n) = false := by simp [hacc]
  have hkept : (s.cc.accs.filter fun a => a.id != n) = s.cc.accs := by simp [hacc]
  simp only [State.deliver, State.modCtx_cc h0 hcc, State.run?_cc h0 hcc, State.push, Option.any_some, hnone, hkept,
    Bool.false_eq_true, if_false]

/-! ## Acceptance -/

/-- A context differs from another in its tiles and collective generators alone. -/
def SameButSeeds (r q : Run) : Prop := q = { r with tiles := q.tiles, coll := q.coll }

theorem SameButSeeds.seedTile {r q : Run} (h : SameButSeeds r q) (t : Nat) : SameButSeeds r (q.seedTile t) := by
  unfold Run.seedTile
  by_cases hs : (q.tile t).seeded = true
  · simpa [hs] using h
  · simp only [hs]
    rw [h]
    rfl

theorem SameButSeeds.seedColl {r q : Run} (h : SameButSeeds r q) : SameButSeeds r q.seedColl := by
  unfold Run.seedColl
  split
  · exact h
  · rw [h]
    rfl

theorem Run.seedFor_sameButSeeds (r : Run) (w : W128) : SameButSeeds r (r.seedFor w) := by
  have hcoll : ∀ q, SameButSeeds r q → SameButSeeds r (if opCmd w = 0x38 then q.seedColl else q) := by
    intro q h
    split
    · exact h.seedColl
    · exact h
  unfold Run.seedFor
  cases tileNamed (opCmd w) (unpackCmd w) with
  | none => exact hcoll r rfl
  | some t => exact hcoll _ (SameButSeeds.seedTile (r := r) (q := r) rfl t)

/-- Seeding touches tiles and collective generators alone. -/
theorem Run.seedFor_eq (r : Run) (w : W128) :
    r.seedFor w = { r with tiles := (r.seedFor w).tiles, coll := (r.seedFor w).coll } :=
  r.seedFor_sameButSeeds w

/-- A command reads registers and entries that seeding leaves alone. -/
theorem Run.mkCmd_seedFor (r : Run) (v : W128) (id : Nat) (w : W128) (carrier : Option Nat) :
    (r.seedFor v).mkCmd id w carrier = r.mkCmd id w carrier := by
  rw [Run.seedFor_eq]; rfl

/-- Marking rd reads the registers alone. -/
theorem Run.await_with (r : Run) (d : Reg) (tiles : SMap Tile) (coll : CollGens) (cmds : List Cmd) :
    ({ r with tiles := tiles, coll := coll, cmds := cmds } : Run).await d =
      { r with regs := (r.await d).regs, tiles := tiles, coll := coll, cmds := cmds } := by
  unfold Run.await Run.putCell
  split <;> rfl

/-- R42, R203: a context once a command stands behind its others: rd awaited, the token's flight noted, generators seeded. -/
def Run.accepted (r : Run) (d : Reg) (w : W128) : Run :=
  { r with
    regs := (r.await d).regs
    tiles := (r.seedFor w).tiles
    coll := (r.seedFor w).coll
    cmds := r.cmds ++ [r.mkCmd r.nextId w none]
    flights := r.flights ++ [⟨r.nextId, d, d != 0#5, none⟩]
    nextId := r.nextId + 1 }

/-- The state in which `State.accept` has noted the command and launched its token. -/
theorem State.launch_noted (s : State) (d : Reg) (w : W128) :
    ((s.modCc fun _ => { s.cc.seedFor w with
      cmds := (s.cc.seedFor w).cmds ++ [s.cc.mkCmd s.cc.nextId w none] }).launch d none).2 =
    { s with cc := s.cc.accepted d w } := by
  rw [Run.seedFor_eq]
  simp only [State.launch, State.modCc]
  rw [Run.await_with]
  rfl

/-- What an ISSUE that is accepted leaves alone, whatever else it does: registers, pc, loop stack and memory. -/
theorem frame_of_await {s u : State} {d : Reg} (hregs : u.cc.regs = (s.cc.await d).regs) (hpc : u.cc.pc = s.cc.pc)
    (hloops : u.cc.loops = s.cc.loops) (hmem : u.mem = s.mem) :
    SameRegsBut d s u.retire ∧ (d ≠ 0#5 → u.retire.cc.awaited d = true) ∧ GoesOn s u.retire ∧ SameBytes s u.retire := by
  have hcell : ∀ k, u.retire.cc.cell k = (s.cc.await d).cell k := fun k => by
    simp only [Run.cell, State.retire_regs, hregs]
  refine ⟨fun k hk => (hcell k).trans (Run.cell_putCell_other _ _ hk), fun hd => ?_,
    goesOn_retire (goesOn_retire_self u) hpc hloops, SameBytes.of_mem hmem⟩
  rw [← Run.awaited_await_self s.cc hd]
  simp only [Run.awaited, Run.full, hcell]

theorem freshCmd_mkCmd (s : State) (w : W128) : FreshCmd s w (s.cc.mkCmd s.cc.nextId w none) :=
  ⟨rfl, rfl, rfl, rfl, rfl, rfl, rfl, rfl, rfl, rfl, rfl, rfl⟩

/-! ### A command that its queue starts -/

theorem State.copyToken_of_not_copy {s : State} {k : CmdRef} {r : Run} {c : Cmd} (h : c.op ≠ 0x10) :
    s.copyToken k r c = s := by
  simp [State.copyToken, Run.copyMay, h]

/-- The command's start is a pending event. -/
def State.issued (s : State) (d : Reg) (w : W128) : State :=
  { s with cc := s.cc.accepted d w, work := s.work ++ [.commandStart ⟨s.cc.task, s.cc.nextId⟩] }

theorem State.accept_plain {s : State} {d : Reg} {w : W128} (hedge : ¬ (opCmd w = 0x07 ∧ s.cc.region.running = true))
    (hcopy : opCmd w ≠ 0x10) (hlater : atAcceptance (opCmd w) (unpackCmd w) = false) :
    s.accept d w none = (s.issued d w).retire := by
  have hop : (s.cc.mkCmd s.cc.nextId w none).op ≠ 0x10 := hcopy
  have hrun : ¬ (opCmd w = 0x07 ∧ (s.cc.accepted d w).region.running = true) := hedge
  simp only [State.accept, State.launch_noted, Run.mkCmd_seedFor, hlater, if_neg hrun, Bool.false_eq_true, if_false,
    State.copyToken_of_not_copy hop]
  rfl

/-- R304: a PMARK while a stage runs asks for an early edge. -/
def State.issuedPmark (s : State) (d : Reg) (w : W128) : State := { s with
  cc := { s.cc.accepted d w with region := { s.cc.region with early := true, edgeDue := true } }
  work := s.work ++ [.earlyEdge, .commandStart ⟨s.cc.task, s.cc.nextId⟩] }

theorem State.accept_pmark {s : State} {d : Reg} {w : W128} (hop : opCmd w = 0x07) (hrun : s.cc.region.running = true)
    (htask : s.cc.task ≠ 0#64) :
    s.accept d w none = (s.issuedPmark d w).retire := by
  have hcopy : (s.cc.mkCmd s.cc.nextId w none).op ≠ 0x10 := by
    show opCmd w ≠ 0x10
    omega
  have hedge : opCmd w = 0x07 ∧ (s.cc.accepted d w).region.running = true := ⟨hop, hrun⟩
  have hlater : atAcceptance (opCmd w) (unpackCmd w) = false := by simp [atAcceptance, hop]
  have htask' : (s.cc.accepted d w).task = s.cc.task := rfl
  simp only [State.accept, State.launch_noted, Run.mkCmd_seedFor, hlater, if_pos hedge, Bool.false_eq_true, if_false,
    State.copyToken_of_not_copy hcopy, State.askEdge, State.modRun, if_neg htask, htask', if_true, State.push,
    List.append_assoc]
  rfl

/-! ### A COPY that nothing holds (R218) -/

theorem Run.copyMay_of_free {r : Run} {c : Cmd} (hop : c.op = 0x10) (hprom : c.prom = none) (hphase : c.phase = .waiting)
    (hfw : c.args.fw = false)
    (hfree : ∀ d ∈ r.cmds, d.id < c.id →
      (d.op = 0x0A → cbarMasks d.args .copy = false) ∧ (d.queue = .copy → d.phase ≠ .waiting)) :
    r.copyMay c = true := by
  have hbarred : r.barred c .copy = false := by
    simp only [Run.barred, Run.before, List.any_eq_false, List.mem_filter, decide_eq_true_eq, Bool.and_eq_true, beq_iff_eq]
    rintro d ⟨hd, hlt⟩ ⟨hcbar, hmask⟩
    rw [(hfree d hd hlt).1 hcbar] at hmask
    nomatch hmask
  have hbefore : ((r.before c).all fun d => d.queue != .copy || d.phase != .waiting || !d.args.fw || d.wDone) = true := by
    simp only [Run.before, List.all_eq_true, List.mem_filter, decide_eq_true_eq]
    rintro d ⟨hd, hlt⟩
    have := (hfree d hd hlt).2
    by_cases hq : d.queue = .copy
    · simp [this hq]
    · simp [hq]
  simp [Run.copyMay, hop, hprom, hphase, hfw, hbarred, hbefore]

/-- R218: the engine of a COPY that starts now and its promise. -/
def copyPlan (s : State) (c : Cmd) : Nat × Nat :=
  let n := c.args.p1.toNat
  let g := copyEngine s.cc (tidOffset c.tidA + c.args.p0.toNat) (tidOffset c.tidC + c.args.fixed.toNat) n c.tidA c.tidC
  (g.1, max s.cyc (SMap.get 0 s.cc.prevP g.1) + g.2.1 + (n + g.2.2 - 1) / g.2.2)

theorem State.promise_cc {s : State} {k : CmdRef} (c : Cmd) (h0 : k.task ≠ 0#64) (hcc : s.cc.task = k.task)
    (hacc : s.cc.accs = []) :
    s.promise k s.cc c = { s with
      cc := { s.cc with
        prevP := SMap.put 0 s.cc.prevP (copyPlan s c).1 (copyPlan s c).2
        cmds := s.cc.cmds.map fun y =>
          if y.id = k.id then { y with ce := (copyPlan s c).1, prom := some (copyPlan s c).2 } else y
        flights := s.cc.flights.map fun f =>
          if f.id = k.id then { f with val := some (keepN ((copyPlan s c).2 % 2 ^ 62)) } else f }
      work := s.work ++ [.lateDelivery k] } := by
  unfold State.promise State.modCmd
  simp only
  rw [State.modRun_cc h0 hcc, State.modCtx_cc h0, State.deliver_cc h0]
  · rfl
  · exact hcc
  · exact hacc
  · exact hcc

/-- Changing the entry of one number changes the new last entry alone. -/
theorem map_append_of_fresh {α : Type} (num : α → Nat) (f : α → α) {l : List α} {x : α} {n : Nat}
    (hl : ∀ y ∈ l, num y < n) (hx : num x = n) :
    ((l ++ [x]).map fun y => if num y = n then f y else y) = l ++ [f x] := by
  have hid : (l.map fun y => if num y = n then f y else y) = l := by
    rw [List.map_congr_left fun y hy => if_neg (Nat.ne_of_lt (hl y hy)), List.map_id']
  rw [List.map_append, hid, List.map_singleton, if_pos hx]

/-- The context once the COPY has its token: the promise is noted for the engine, in the command and in the flight. -/
def State.promisedRun (s : State) (d : Reg) (w : W128) : Run :=
  let c := s.cc.mkCmd s.cc.nextId w none
  { s.cc.accepted d w with
    prevP := SMap.put 0 s.cc.prevP (copyPlan s c).1 (copyPlan s c).2
    cmds := s.cc.cmds ++ [{ c with ce := (copyPlan s c).1, prom := some (copyPlan s c).2 }]
    flights := s.cc.flights ++ [⟨s.cc.nextId, d, d != 0#5, some (keepN ((copyPlan s c).2 % 2 ^ 62))⟩] }

theorem State.copyToken_accepted {s : State} {d : Reg} {w : W128} (hop : opCmd w = 0x10) (hfw : (unpackCmd w).fw = false)
    (htask : s.cc.task ≠ 0#64) (hacc : s.cc.accs = []) (hflights : ∀ f ∈ s.cc.flights, f.id < s.cc.nextId)
    (hcmds : ∀ c ∈ s.cc.cmds, c.id < s.cc.nextId)
    (hfree : ∀ c ∈ s.cc.cmds, (c.op = 0x0A → cbarMasks c.args .copy = false) ∧ (c.queue = .copy → c.phase ≠ .waiting)) :
    State.copyToken { s with cc := s.cc.accepted d w } ⟨s.cc.task, s.cc.nextId⟩ (s.cc.accepted d w)
      (s.cc.mkCmd s.cc.nextId w none) =
    { s with cc := s.promisedRun d w, work := s.work ++ [.lateDelivery ⟨s.cc.task, s.cc.nextId⟩] } := by
  have hmay : (s.cc.accepted d w).copyMay (s.cc.mkCmd s.cc.nextId w none) = true := by
    refine Run.copyMay_of_free hop rfl rfl hfw fun c hc hlt => ?_
    rcases List.mem_append.mp hc with hc | hc
    · exact hfree c hc
    · rw [List.mem_singleton.mp hc] at hlt
      exact absurd hlt (lt_irrefl _)
  have hbehind : ((s.cc.accepted d w).cmds.filter fun c =>
      decide (s.cc.nextId < c.id) && c.queue == .copy && c.phase == .waiting) = [] := by
    rw [List.filter_eq_nil_iff]
    intro c hc
    have hle : ¬ s.cc.nextId < c.id := by
      rcases List.mem_append.mp hc with hc | hc
      · exact Nat.lt_asymm (hcmds c hc)
      · rw [List.mem_singleton.mp hc]
        exact Nat.lt_irrefl _
    simp [hle]
  have hcmd := map_append_of_fresh Cmd.id (fun y => { y with ce := (copyPlan s (s.cc.mkCmd s.cc.nextId w none)).1, prom := some (copyPlan s (s.cc.mkCmd s.cc.nextId w none)).2 })
    hcmds (x := s.cc.mkCmd s.cc.nextId w none) rfl
  have hflight := map_append_of_fresh Flight.id (fun f => { f with val := some (keepN ((copyPlan s (s.cc.mkCmd s.cc.nextId w none)).2 % 2 ^ 62)) })
    hflights (x := ⟨s.cc.nextId, d, d != 0#5, none⟩) rfl
  have hprom := State.promise_cc (s := { s with cc := s.cc.accepted d w }) (k := ⟨s.cc.task, s.cc.nextId⟩)
    (s.cc.mkCmd s.cc.nextId w none) htask rfl hacc
  rw [State.copyToken, if_pos hmay]
  refine (congrArg₂ State.pushAll hprom (congrArg (List.map _) hbehind)).trans ?_
  rw [List.map_nil, State.pushAll, List.append_nil]
  simp only [State.promisedRun]
  rw [← hcmd, ← hflight]
  rfl

/-- The delivery of the token comes before the command's start. -/
def State.issuedCopy (s : State) (d : Reg) (w : W128) : State := { s with
  cc := s.promisedRun d w
  work := s.work ++ [.lateDelivery ⟨s.cc.task, s.cc.nextId⟩, .commandStart ⟨s.cc.task, s.cc.nextId⟩] }

theorem State.accept_copy {s : State} {d : Reg} {w : W128} (hop : opCmd w = 0x10)
    (hlater : atAcceptance (opCmd w) (unpackCmd w) = false)
    (htoken : State.copyToken { s with cc := s.cc.accepted d w } ⟨s.cc.task, s.cc.nextId⟩ (s.cc.accepted d w)
      (s.cc.mkCmd s.cc.nextId w none) =
      { s with cc := s.promisedRun d w, work := s.work ++ [.lateDelivery ⟨s.cc.task, s.cc.nextId⟩] }) :
    s.accept d w none = (s.issuedCopy d w).retire := by
  have hedge : ¬ (opCmd w = 0x07 ∧ (s.cc.accepted d w).region.running = true) := by omega
  simp only [State.accept, State.launch_noted, Run.mkCmd_seedFor, hlater, if_neg hedge, Bool.false_eq_true, if_false,
    htoken, State.push, List.append_assoc]
  rfl

/-! ### A carrier and its follow-on (R138) -/

/-- The context once the follow-on stands behind its carrier. -/
def Run.acceptedPair (r : Run) (d : Reg) (w f : W128) : Run :=
  { r.accepted d w with
    tiles := ((r.accepted d w).seedFor f).tiles
    coll := ((r.accepted d w).seedFor f).coll
    cmds := r.cmds ++ [r.mkCmd r.nextId w none, r.mkCmd (r.nextId + 1) f (some r.nextId)]
    nextId := r.nextId + 2 }

/-- Both starts are pending events, the carrier's first. -/
def State.issuedPair (s : State) (d : Reg) (w f : W128) : State := { s with
  cc := s.cc.acceptedPair d w f
  work := s.work ++ [.commandStart ⟨s.cc.task, s.cc.nextId⟩, .commandStart ⟨s.cc.task, s.cc.nextId + 1⟩] }

theorem State.accept_pair {s : State} {d : Reg} {w f : W128} (hedge : opCmd w ≠ 0x07) (hcopy : opCmd w ≠ 0x10)
    (hlater : atAcceptance (opCmd w) (unpackCmd w) = false) :
    s.accept d w (some f) = (s.issuedPair d w f).retire := by
  have hop : (s.cc.mkCmd s.cc.nextId w none).op ≠ 0x10 := hcopy
  have hrun : ∀ q : Run, ¬ (opCmd w = 0x07 ∧ q.region.running = true) := fun q h => hedge h.1
  have hcc : ({ (s.cc.accepted d w).seedFor f with
      nextId := s.cc.nextId + 2
      cmds := ((s.cc.accepted d w).seedFor f).cmds ++ [(s.cc.accepted d w).mkCmd (s.cc.nextId + 1) f (some s.cc.nextId)] } : Run) =
      s.cc.acceptedPair d w f := by
    have hcmds : (s.cc.accepted d w).cmds ++ [(s.cc.accepted d w).mkCmd (s.cc.nextId + 1) f (some s.cc.nextId)] =
        s.cc.cmds ++ [s.cc.mkCmd s.cc.nextId w none, s.cc.mkCmd (s.cc.nextId + 1) f (some s.cc.nextId)] :=
      List.append_assoc ..
    rw [Run.seedFor_eq]
    simp only [hcmds]
    rfl
  simp only [State.accept, State.launch_noted, Run.mkCmd_seedFor, hlater, if_neg (hrun _), Bool.false_eq_true, if_false,
    State.copyToken_of_not_copy hop]
  simp only [State.modCc, hcc, State.push, List.append_assoc]
  rfl

/-! ## The checks of an ISSUE (R42 to R46, R203, R206 to R208) -/

theorem exec_issue {d a b : Reg} {n : BitVec 11} {s : State} (hsrc : Ready s [a, b]) (hdest : Free s d) :
    exec (.issue d a b n) s = issueWord d n (patchedWord s a b n) s := by
  have hfull : ∀ x ∈ [(a, false), (b, false)], s.cc.full x.1 = true := by
    simpa [Ready] using hsrc
  show execIssue d a b n s = _
  rw [execIssue, withSrcs_ready hfull, withDest_ready hdest]
  rfl

theorem withSignal_of_goes {s : State} {x : CmdArgs} (h : SignalGoes s x) (k : State → Result) :
    withSignal x s k = k s := by
  rcases h with hfs | ⟨e, hcov, hpath⟩
  · simp [withSignal, hfs]
  · simp [withSignal, hcov, hpath]

section
variable {d : Reg} {n : BitVec 11} {w : W128} {s : State}

theorem issueWord_of_accepted (h : Accepted s n w) : issueWord d n w s = .next (s.accept d w none) := by
  obtain ⟨hstatic, hff, hsignal, hflags, hrel, hguest, htid, hentry, hroom, hpath, -⟩ := h
  have hpresent : ¬ (opCmd w = 0x48 ∧ (s.guest ((unpackCmd w).fld 90 90)).present = false) := by
    rintro ⟨hop, hno⟩
    simp [hguest hop] at hno
  have hpartner : (if opCmd w = 0x38 then contribPath s (unpackCmd w) else none) = none := by
    split
    · next hop => exact hpath hop
    · rfl
  simp [issueWord, hpresent, hff, hstatic, hflags, hrel, hentry, htid, withSignal_of_goes hsignal, Nat.not_le.mpr hroom,
    hpartner]

theorem issueWord_of_acceptedPair {f : W128} (h : AcceptedPair s n w f) :
    issueWord d n w s = .next (s.accept d w (some f)) := by
  obtain ⟨hguest, hcontrib, -, -, -, hstatic, hff, hindex, rfl, hfollow, hflags, hrel, htid, hentry, hentryF, hsignal, hsignalF,
    hroom, hroomF⟩ := h
  simp [issueWord, hguest, hff, hstatic, hfollow, hflags, hrel, hentry, hentryF, htid, withSignal_of_goes hsignal,
    withSignal_of_goes hsignalF, Nat.not_le.mpr hroom, Nat.not_le.mpr hroomF, hcontrib, Nat.not_lt.mpr hindex]

theorem issueWord_of_guest_absent (hop : opCmd w = 0x48) (habsent : (s.guest ((unpackCmd w).fld 90 90)).present = false) :
    issueWord d n w s = .next (s.trap 0x0D 0 0 (keepN ((unpackCmd w).fld 90 90)) false) := by
  simp [issueWord, hop, habsent, keepN]

theorem issueWord_of_bad_word (hguest : opCmd w = 0x48 → (s.guest ((unpackCmd w).fld 90 90)).present = true)
    (hbad : cmdStaticOk (opCmd w) (unpackCmd w) = false) :
    issueWord d n w s = .next (s.trap 0x08 0 0 (n.setWidth 64) false) := by
  have hpresent : ¬ (opCmd w = 0x48 ∧ (s.guest ((unpackCmd w).fld 90 90)).present = false) := by
    rintro ⟨hop, hno⟩
    simp [hguest hop] at hno
  simp [issueWord, hpresent, hbad]

theorem issueWord_of_tidBusy (hstatic : cmdStaticOk (opCmd w) (unpackCmd w) = true) (hff : (unpackCmd w).ff = false)
    (hflags : flagRegsOk s.cc (unpackCmd w) = true) (hrel : s.cc.relCur = false) (hguest : opCmd w ≠ 0x48)
    (hbusy : s.cc.tidBusy (tidsNamed (opCmd w) (unpackCmd w)) = true) : issueWord d n w s = .next s.stall := by
  simp [issueWord, hguest, hff, hstatic, hflags, hrel, hbusy]

theorem issueWord_of_full (hstatic : cmdStaticOk (opCmd w) (unpackCmd w) = true) (hff : (unpackCmd w).ff = false)
    (hfs : (unpackCmd w).fs = false) (hflags : flagRegsOk s.cc (unpackCmd w) = true) (hrel : s.cc.relCur = false)
    (hguest : opCmd w ≠ 0x48) (hfree : s.cc.tidBusy (tidsNamed (opCmd w) (unpackCmd w)) = false)
    (hentry : entryOk s (opCmd w) (unpackCmd w) = true)
    (hfull : 16 ≤ (s.cc.inQueue (queueOf (opCmd w) (unpackCmd w))).length) : issueWord d n w s = .next s.stall := by
  simp [issueWord, hguest, hff, hstatic, hflags, hrel, hfree, hentry, withSignal_of_goes (.inl hfs), hfull]

end

/-- Settles O42: the checks decide between acceptance, a trap and a wait; acceptance is one equation for each kind of word. -/
theorem issueAcceptsPatchedCommands : Obligations.IssueAcceptsPatchedCommands := by
  unfold Obligations.IssueAcceptsPatchedCommands
  intro d a b n s hsrc hdest w x
  rw [exec_issue hsrc hdest]
  refine ⟨?plain, ?pmark, ?copy, ?pair, ?absent, ?bad, ?busy, ?full⟩
  case plain =>
    intro h hlater hpmark hcopy
    obtain ⟨hregs, hawaited, hgoes, hbytes⟩ := frame_of_await (s := s) (u := s.issued d w) rfl rfl rfl rfl
    rw [issueWord_of_accepted h, State.accept_plain (fun he => hpmark he.1) hcopy hlater]
    exact ⟨_, _, rfl, freshCmd_mkCmd s w, rfl, hregs, hawaited, hgoes, hbytes, rfl, rfl, rfl, rfl, rfl, rfl, rfl, rfl⟩
  case pmark =>
    intro h hop htask
    rw [issueWord_of_accepted h]
    cases hrun : s.cc.region.running with
    | false =>
      obtain ⟨hregs, hawaited, hgoes, hbytes⟩ := frame_of_await (s := s) (u := s.issued d w) rfl rfl rfl rfl
      have hlater : atAcceptance (opCmd w) x = false := by simp [atAcceptance, hop]
      rw [State.accept_plain (by simp [hrun]) (by omega) hlater]
      exact ⟨_, _, rfl, freshCmd_mkCmd s w, rfl, hregs, hawaited, hgoes, hbytes, rfl, rfl, fun _ => ⟨rfl, rfl⟩, nofun⟩
    | true =>
      rw [State.accept_pmark hop hrun htask]
      obtain ⟨hregs, hawaited, hgoes, hbytes⟩ := frame_of_await (s := s) (u := s.issuedPmark d w) rfl rfl rfl rfl
      exact ⟨_, _, rfl, freshCmd_mkCmd s w, rfl, hregs, hawaited, hgoes, hbytes, rfl, rfl, nofun, fun _ => ⟨rfl, rfl⟩⟩
  case copy =>
    intro h hop hlater hfw htask hbusy hflights hcmds hfree
    have hacc : s.cc.accs = [] := by simpa [ccBusy] using hbusy
    rw [issueWord_of_accepted h,
      State.accept_copy hop hlater (State.copyToken_accepted hop hfw htask hacc hflights hcmds hfree)]
    obtain ⟨hregs, hawaited, hgoes, hbytes⟩ := frame_of_await (s := s) (u := s.issuedCopy d w) rfl rfl rfl rfl
    exact ⟨_, _, rfl, freshCmd_mkCmd s w, rfl, hregs, hawaited, hgoes, hbytes, rfl, rfl, rfl⟩
  case pair =>
    intro f h
    obtain ⟨-, -, hpmark, hcopy, hlater, -⟩ := id h
    rw [issueWord_of_acceptedPair h, State.accept_pair hpmark hcopy hlater]
    obtain ⟨hregs, hawaited, hgoes, hbytes⟩ := frame_of_await (s := s) (u := s.issuedPair d w f) rfl rfl rfl rfl
    exact ⟨_, _, _, rfl, freshCmd_mkCmd s w, rfl, rfl, rfl, rfl, rfl, rfl, hregs, hawaited, hgoes, hbytes, rfl, rfl, rfl⟩
  case absent =>
    intro hop habsent henter
    rw [issueWord_of_guest_absent hop habsent]
    exact ⟨_, rfl, enters_trap henter ..⟩
  case bad =>
    intro hguest hbad henter
    rw [issueWord_of_bad_word hguest hbad]
    exact ⟨_, rfl, enters_trap henter ..⟩
  case busy =>
    intro hstatic hff hflags hrel hguest hbusy
    rw [issueWord_of_tidBusy hstatic hff hflags hrel hguest hbusy]
    exact ⟨_, rfl, waits_stall s⟩
  case full =>
    intro hstatic hff hfs hflags hrel hguest hfree hentry hfull
    rw [issueWord_of_full hstatic hff hfs hflags hrel hguest hfree hentry hfull]
    exact ⟨_, rfl, waits_stall s⟩

end Sys2Proof.Machine
end

section
/-! PROOFS. Arithmetic sites (R96 to R100), for O46: what one word does to the lanes of the work in hand. -/

namespace Sys2Proof.Machine
open Sys2Proof.Machine.Claims

/-! ## The work in hand has sixteen lanes, four chain registers a lane and four outputs -/

structure AlWork.Shaped (w : AlWork) : Prop where
  o : w.o.length = 16
  chain : w.chain.length = 16
  regs : ∀ c ∈ w.chain, c.length = 4
  outs : w.outs.length = 4
  rows : ∀ o ∈ w.outs, o.length = 16

/-! ## One write -/

section
variable {w : AlWork} {l dst : Nat} (v : W32)

theorem AlWork.write_out (h : dst < 4) : w.write l dst v =
    { w with outs := w.outs.set dst ((w.outs.getD dst []).set l ((w.outs.getD dst []).getD l [] ++ [v])) } := by
  simp [AlWork.write, h]

theorem AlWork.write_chain (h : 4 ≤ dst) (h' : dst < 8) : w.write l dst v =
    { w with chain := w.chain.set l ((w.chain.getD l []).set (dst - 4) v) } := by
  simp [AlWork.write, h', Nat.not_lt.mpr h]

theorem AlWork.write_field (h : 8 ≤ dst) : w.write l dst v =
    { w with o := w.o.set l ((laneRec w l).map fun q => { q with flds := setField q.flds (dst - 8) v }) } := by
  simp [AlWork.write, Nat.not_lt.mpr h, show ¬ dst < 4 by omega, laneRec]

theorem AlWork.write_frame : w.write l dst v =
    { w with o := (w.write l dst v).o, chain := (w.write l dst v).chain, outs := (w.write l dst v).outs } := by
  unfold AlWork.write
  split
  · rfl
  · split <;> rfl

theorem AlWork.Shaped.getD_outs (h : w.Shaped) (hdst : dst < 4) : (w.outs.getD dst []).length = 16 := by
  have hlt : dst < w.outs.length := by rw [h.outs]; exact hdst
  rw [List.getD_eq_getElem _ _ hlt]
  exact h.rows _ (List.getElem_mem hlt)

theorem AlWork.Shaped.write (h : w.Shaped) (hl : l < 16) : (w.write l dst v).Shaped := by
  rcases Nat.lt_or_ge dst 4 with h4 | h4
  · rw [AlWork.write_out v h4]
    refine ⟨h.o, h.chain, h.regs, by simp [h.outs], fun o ho => ?_⟩
    rcases List.mem_or_eq_of_mem_set ho with ho | rfl
    · exact h.rows o ho
    · rw [List.length_set, h.getD_outs h4]
  · rcases Nat.lt_or_ge dst 8 with h8 | h8
    · rw [AlWork.write_chain v h4 h8]
      refine ⟨h.o, by simp [h.chain], fun c hc => ?_, h.outs, h.rows⟩
      have hlt : l < w.chain.length := by rw [h.chain]; exact hl
      rcases List.mem_or_eq_of_mem_set hc with hc | rfl
      · exact h.regs c hc
      · rw [List.length_set, List.getD_eq_getElem _ _ hlt]
        exact h.regs _ (List.getElem_mem hlt)
    · rw [AlWork.write_field v h8]
      exact ⟨by simp [h.o], h.chain, h.regs, h.outs, h.rows⟩

theorem set_getD_self {α : Type} (l : List α) (n : Nat) (d : α) : l.set n (l.getD n d) = l := by
  rcases Nat.lt_or_ge n l.length with h | h
  · rw [List.getD_eq_getElem _ _ h, List.set_getElem_self]
  · rw [List.set_eq_of_length_le h]

theorem getD_laneOuts (w : AlWork) (l dst : Nat) : (laneOuts w l).getD dst [] = (w.outs.getD dst []).getD l [] := by
  have h := List.getD_map (l := w.outs) (d := []) (n := dst) fun o : List (List W32) => o.getD l []
  simpa [laneOuts] using h

theorem laneOuts_write_out (h : dst < 4) (k : Nat) : laneOuts (w.write l dst v) k =
    (laneOuts w k).set dst (((w.outs.getD dst []).set l ((laneOuts w l).getD dst [] ++ [v])).getD k []) := by
  rw [AlWork.write_out v h, getD_laneOuts]
  exact List.map_set

/-- A write leaves every other lane as it was. -/
theorem AlWork.write_stays {k : Nat} (hk : k ≠ l) : LaneStays w (w.write l dst v) k := by
  rcases Nat.lt_or_ge dst 4 with h4 | h4
  · have hrow : ∀ row : List (List W32), ∀ y, (row.set l y).getD k [] = row.getD k [] := by
      simp [List.getD_eq_getElem?_getD, hk.symm]
    refine ⟨?_, ?_, ?_⟩
    · rw [laneOuts_write_out v h4, hrow, ← getD_laneOuts, set_getD_self]
    · rw [AlWork.write_out v h4]; rfl
    · rw [AlWork.write_out v h4]; rfl
  · rcases Nat.lt_or_ge dst 8 with h8 | h8
    · rw [AlWork.write_chain v h4 h8]
      exact ⟨rfl, by simp [laneChain, List.getD_eq_getElem?_getD, hk.symm], rfl⟩
    · rw [AlWork.write_field v h8]
      exact ⟨rfl, rfl, by simp [laneRec, hk.symm]⟩

theorem getD_append_zeros (f : List W32) (m k : Nat) : (f ++ List.replicate m 0#32).getD k 0#32 = f.getD k 0#32 := by
  rcases Nat.lt_or_ge k f.length with h | h
  · exact List.getD_append _ _ _ _ h
  · rw [List.getD_append_right _ _ _ _ h, List.getD_eq_default _ _ h, List.getD_eq_getElem?_getD,
      List.getElem?_getD_replicate_default_eq]

/-- `setField` pads with zeros up to the field. -/
theorem exists_padded (f : List W32) (n : Nat) : ∃ p : List W32, setField f n v = p.set n v ∧
    p.length = Nat.max f.length (n + 1) ∧ ∀ k, p.getD k 0#32 = f.getD k 0#32 := by
  have hmax : Nat.max f.length (n + 1) = max f.length (n + 1) := rfl
  unfold setField
  split
  · refine ⟨_, rfl, ?_, getD_append_zeros f _⟩
    simp only [List.length_append, List.length_replicate]
    omega
  · exact ⟨f, rfl, by omega, fun _ => rfl⟩

theorem length_setField (f : List W32) (n : Nat) : (setField f n v).length = Nat.max f.length (n + 1) := by
  obtain ⟨p, hp, hlen, -⟩ := exists_padded v f n
  rw [hp, List.length_set, hlen]

theorem getD_setField (f : List W32) (n k : Nat) : (setField f n v).getD k 0#32 = if k = n then v else f.getD k 0#32 := by
  obtain ⟨p, hp, hlen, hpad⟩ := exists_padded v f n
  have hn : n < p.length := hlen ▸ Nat.le_max_right ..
  rw [hp, ← hpad k, List.getD_eq_getElem?_getD, List.getElem?_set, List.getD_eq_getElem?_getD]
  by_cases hk : n = k
  · rw [if_pos hk, if_pos (hk ▸ hn), if_pos hk.symm]
    rfl
  · rw [if_neg hk, if_neg (Ne.symm hk)]

/-- A write gives its lane the value at the destination. -/
theorem AlWork.write_gets (h : w.Shaped) (hl : l < 16) (hrec : (laneRec w l).isSome) :
    LaneGets w (w.write l dst v) l dst v := by
  unfold LaneGets
  rcases Nat.lt_or_ge dst 4 with h4 | h4
  · have hrow : ((w.outs.getD dst []).set l ((laneOuts w l).getD dst [] ++ [v])).getD l [] = (laneOuts w l).getD dst [] ++ [v] := by
      rw [List.getD_eq_getElem?_getD, List.getElem?_set_self (by rw [h.getD_outs h4]; exact hl)]
      rfl
    rw [if_pos h4, if_neg (by omega), if_neg (by omega), laneOuts_write_out v h4, hrow, AlWork.write_out v h4]
    exact ⟨rfl, rfl, rfl⟩
  · rw [if_neg (by omega)]
    rcases Nat.lt_or_ge dst 8 with h8 | h8
    · rw [if_pos ⟨h4, h8⟩, if_neg (by omega), AlWork.write_chain v h4 h8]
      refine ⟨rfl, ?_, rfl⟩
      simp [laneChain, List.getD_eq_getElem?_getD, h.chain, hl]
    · obtain ⟨q, hq⟩ := Option.isSome_iff_exists.mp hrec
      rw [if_neg (by omega), if_pos h8, AlWork.write_field v h8, hq]
      refine ⟨rfl, rfl, q, { q with flds := setField q.flds (dst - 8) v }, rfl, ?_, rfl, ?_, ?_⟩
      · simp [laneRec, h.o, hl]
      · rw [length_setField]
        congr 1
        omega
      · exact fun f => getD_setField v q.flds (dst - 8) f

end

/-! ## All lanes of one word -/

theorem laneStays_refl (w : AlWork) (l : Nat) : LaneStays w w l := ⟨rfl, rfl, rfl⟩

theorem laneStays_trans {w u t : AlWork} {l : Nat} (h : LaneStays w u l) (h' : LaneStays u t l) : LaneStays w t l := by
  obtain ⟨ho, hc, hr⟩ := h
  obtain ⟨ho', hc', hr'⟩ := h'
  exact ⟨ho'.trans ho, hc'.trans hc, hr'.trans hr⟩

theorem laneGets_of_stays_left {w u t : AlWork} {l dst : Nat} {v : W32} (h : LaneStays w u l) (h' : LaneGets u t l dst v) :
    LaneGets w t l dst v := by
  obtain ⟨ho, hc, hr⟩ := h
  simpa only [LaneGets, ho, hc, hr] using h'

theorem laneGets_of_stays_right {w u t : AlWork} {l dst : Nat} {v : W32} (h : LaneGets w u l dst v) (h' : LaneStays u t l) :
    LaneGets w t l dst v := by
  obtain ⟨ho, hc, hr⟩ := h'
  simpa only [LaneGets, ho, hc, hr] using h

/-- What the results of a word make of one lane: the lane gets its result, or stays where there is none. -/
def LaneDone (w t : AlWork) (dst l : Nat) : Option LaneOut → Prop
  | some q => LaneGets w t l dst q.v
  | none => LaneStays w t l

/-- One lane's result is written. -/
def AlWork.writeOut (dst : Nat) (outs : List (Option LaneOut)) (t : AlWork) (l : Nat) : AlWork :=
  match (outs[l]?).join with
  | some q => t.write l dst q.v
  | none => t

section
variable {w t : AlWork} {dst : Nat} {outs : List (Option LaneOut)}

theorem AlWork.writeOut_frame (t : AlWork) (l : Nat) : t.writeOut dst outs l =
    { t with o := (t.writeOut dst outs l).o, chain := (t.writeOut dst outs l).chain, outs := (t.writeOut dst outs l).outs } := by
  unfold AlWork.writeOut
  cases (outs[l]?).join with
  | none => rfl
  | some q => exact AlWork.write_frame q.v

theorem AlWork.Shaped.writeOut (h : t.Shaped) {l : Nat} (hl : l < 16) : (t.writeOut dst outs l).Shaped := by
  unfold AlWork.writeOut
  cases (outs[l]?).join with
  | none => exact h
  | some q => exact h.write q.v hl

theorem AlWork.writeOut_stays (t : AlWork) {l k : Nat} (hk : k ≠ l) : LaneStays t (t.writeOut dst outs l) k := by
  unfold AlWork.writeOut
  cases (outs[l]?).join with
  | none => exact laneStays_refl t k
  | some q => exact AlWork.write_stays q.v hk

theorem AlWork.writeOut_done (h : t.Shaped) {l : Nat} (hl : l < 16)
    (hrec : ((outs[l]?).join).isSome → (laneRec t l).isSome) :
    LaneDone t (t.writeOut dst outs l) dst l ((outs[l]?).join) := by
  unfold AlWork.writeOut
  cases hq : (outs[l]?).join with
  | none => exact laneStays_refl t l
  | some q => exact AlWork.write_gets q.v h hl (hrec (by simp [hq]))

/-- The lanes below n written in order: they are done, the others are as they were. -/
structure AlWork.WrittenTo (w t : AlWork) (dst : Nat) (outs : List (Option LaneOut)) (n : Nat) : Prop where
  frame : t = { w with o := t.o, chain := t.chain, outs := t.outs }
  shaped : t.Shaped
  below : ∀ l, l < n → LaneDone w t dst l ((outs[l]?).join)
  above : ∀ l, n ≤ l → LaneStays w t l

theorem LaneDone.of_stays_right {l : Nat} {q : Option LaneOut} {u : AlWork} (h : LaneDone w t dst l q)
    (h' : LaneStays t u l) : LaneDone w u dst l q := by
  cases q with
  | none => exact laneStays_trans h h'
  | some q => exact laneGets_of_stays_right h h'

theorem LaneDone.of_stays_left {l : Nat} {q : Option LaneOut} {u : AlWork} (h : LaneStays w t l)
    (h' : LaneDone t u dst l q) : LaneDone w u dst l q := by
  cases q with
  | none => exact laneStays_trans h h'
  | some q => exact laneGets_of_stays_left h h'

theorem AlWork.writtenTo_foldl (h : w.Shaped) (hrec : ∀ l, l < 16 → ((outs[l]?).join).isSome → (laneRec w l).isSome) {n : Nat}
    (hn : n ≤ 16) : w.WrittenTo ((List.range n).foldl (AlWork.writeOut dst outs) w) dst outs n := by
  induction n with
  | zero => exact ⟨rfl, h, fun l hl => absurd hl (Nat.not_lt_zero l), fun l _ => laneStays_refl w l⟩
  | succ n ih =>
    obtain ⟨frame, shaped, below, above⟩ := ih (by omega)
    rw [List.range_succ, List.foldl_append, List.foldl_cons, List.foldl_nil]
    generalize (List.range n).foldl (AlWork.writeOut dst outs) w = t at *
    refine ⟨?_, shaped.writeOut (by omega), fun l hl => ?_, fun l hl => ?_⟩
    · rw [AlWork.writeOut_frame t n, frame]
    · rcases Nat.lt_succ_iff_lt_or_eq.mp hl with hlt | rfl
      · exact (below l hlt).of_stays_right (t.writeOut_stays (Nat.ne_of_lt hlt))
      · have hstays := above l le_rfl
        refine LaneDone.of_stays_left hstays (AlWork.writeOut_done shaped (by omega) fun hq => ?_)
        rw [hstays.2.2]
        exact hrec l (by omega) hq
    · exact laneStays_trans (above l (by omega)) (t.writeOut_stays (by omega))

theorem AlWork.writeAll_eq (w : AlWork) (dst : Nat) (outs : List (Option LaneOut)) :
    w.writeAll dst outs = { (List.range 16).foldl (AlWork.writeOut dst outs) w with next := w.next + 1 } := rfl

end

/-! ## One word of a site -/

theorem isSome_laneRec_of_seenIn {st0 : Site} {w : AlWork} {x : SiteArgs} {l : Nat} (hl : l < 16)
    (h : (seenIn st0 w x l).isSome) : (laneRec w l).isSome := by
  cases hq : laneRec w l with
  | some q => rfl
  | none =>
    have hnone : (w.o[l]?).join = none := hq
    simp [seenIn, AlWork.lanes, hl, hnone] at h

theorem getD_map_range {α : Type} (f : Nat → α) (d : α) {n l : Nat} (hl : l < n) : ((List.range n).map f).getD l d = f l := by
  simp [List.getD_eq_getElem?_getD, hl]

theorem SiteCore.gens_afterAl (c : SiteCore) (outs : List (Option LaneOut)) {l : Nat} (hl : l < 16) :
    (c.afterAl outs).gens.getD l 0#32 = ((outs[l]?).join.map (·.g)).getD (c.gens.getD l 0#32) := by
  unfold SiteCore.afterAl
  rw [getD_map_range _ _ hl]
  cases (outs[l]?).join <;> rfl

theorem SiteCore.la_afterAl (c : SiteCore) (outs : List (Option LaneOut)) {l : Nat} (hl : l < 16) :
    (c.afterAl outs).la.getD l 0#64 = ((outs[l]?).join.map (·.la)).getD (c.la.getD l 0#64) := by
  unfold SiteCore.afterAl
  rw [getD_map_range _ _ hl]
  cases (outs[l]?).join <;> rfl

theorem alDoes_alStep {s : State} {a : SiteRef} {r : Run} {st0 : Site} {w : AlWork} {x : SiteArgs} {f : AlFn}
    {out : Nat → LaneIn → LaneOut} (hw : w.Shaped)
    (hf : ∀ l, l < 16 → ((f (w.lanes st0.core st0.consts x))[l]?).join = (seenIn st0 w x l).map (out l)) :
    AlDoes s ((s.alStep a.task r st0 w x f).wakeSite a.task (siteKey a.row a.col)) a r st0 w x out := by
  have hrec : ∀ l, l < 16 → (((f (w.lanes st0.core st0.consts x))[l]?).join).isSome → (laneRec w l).isSome := by
    intro l hl h
    rw [hf l hl, Option.isSome_map] at h
    exact isSome_laneRec_of_seenIn hl h
  obtain ⟨frame, shaped, below, -⟩ := AlWork.writtenTo_foldl (dst := x.dstN) hw hrec le_rfl
  refine ⟨w.writeAll x.dstN (f (w.lanes st0.core st0.consts x)), st0.core.afterAl (f (w.lanes st0.core st0.consts x)),
    ?_, rfl, shaped.outs, fun l hl => ?_, rfl⟩
  · rw [AlWork.writeAll_eq, frame]
  · have hdone := below l hl
    have hgen := st0.core.gens_afterAl (f (w.lanes st0.core st0.consts x)) hl
    have hla := st0.core.la_afterAl (f (w.lanes st0.core st0.consts x)) hl
    rw [hf l hl] at hdone hgen hla
    cases hseen : seenIn st0 w x l with
    | none =>
      rw [hseen] at hdone hgen hla
      exact ⟨hdone, hgen, hla⟩
    | some q =>
      rw [hseen] at hdone hgen hla
      exact ⟨hdone, hgen, hla⟩

theorem alWord_of_takes {i : Instr} {a : SiteRef} {x : SiteArgs} {s : State} {r : Run} {st st0 : Site} {w : AlWork}
    (h : AlTakes s i a r st st0 w) (f : Bool → AlFn) :
    alWord i a x s f = .next ((s.alStep a.task r st0 w x (f r.fz)).wakeSite a.task (siteKey a.row a.col)) := by
  obtain ⟨⟨hlive, hsite, -, hevent⟩, hwork, -⟩ := h
  rcases hwork with ⟨hal, rfl⟩ | ⟨hal, hjoin, rfl, rfl⟩
  · simp [alWord, withEvent, withSite, hlive, hsite, hevent, hal]
  · have hwaits : (!st.joined && !r.quietFor st.key) = false := by
      rcases hjoin with hjoin | hquiet
      · simp [hjoin]
      · simp [hquiet]
    simp [alWord, withEvent, withSite, hlive, hsite, hevent, hal, hwaits]

theorem shaped_of_takes {i : Instr} {a : SiteRef} {s : State} {r : Run} {st st0 : Site} {w : AlWork}
    (h : AlTakes s i a r st st0 w) : w.Shaped := by
  obtain ⟨-, -, ho, hchain, hregs, houts, hrows⟩ := h
  exact ⟨ho, hchain, hregs, houts, hrows⟩

end Sys2Proof.Machine
end

section
/-! PROOFS. Arithmetic sites: the integer, bit and lane-moving words (R114, R115, R118, R119) give the values of `laneInts`; settles O46. -/

namespace Sys2Proof.Machine
open Sys2Proof.Machine.Claims

/-! ## The values of R114, R115 and R119 over the integers -/

theorem ofNat_emod_toNat (v : Int) : BitVec.ofNat 32 (v % 2 ^ 32).toNat = BitVec.ofInt 32 v := by
  apply BitVec.eq_of_toNat_eq
  simp [BitVec.toNat_ofInt]
  omega

/-- R114: clamping to i32 or n32. -/
theorem satInt_eq_ranged {x : SiteArgs} (h : x.tyN = 2 ∨ x.tyN = 6) (v : Int) : satInt x v = ranged x v := by
  have hclamp : ∀ lo hi : Int, lo ≤ hi → (if v < lo then lo else if hi < v then hi else v) = max lo (min hi v) := by
    intro lo hi hle
    split
    · omega
    · split <;> omega
  unfold satInt ranged
  split
  · rcases h with h | h
    · rw [h, if_pos rfl, ← ofNat_emod_toNat, ← hclamp _ _ (by decide)]
      rfl
    · rw [h, if_neg (by decide), ← ofNat_emod_toNat, ← hclamp _ _ (by decide)]
      rfl
  · exact ofNat_emod_toNat v

theorem ofInt_inType (x : SiteArgs) (v : W32) : BitVec.ofInt 32 (inType x v) = v := by
  unfold inType
  split
  · exact BitVec.ofInt_toInt
  · simp

theorem ofInt_min_inType (x : SiteArgs) (a b : W32) :
    BitVec.ofInt 32 (min (inType x a) (inType x b)) = if inType x b < inType x a then b else a := by
  split
  · next h => rw [min_eq_right h.le, ofInt_inType]
  · next h => rw [min_eq_left (not_lt.mp h), ofInt_inType]

theorem ofInt_max_inType (x : SiteArgs) (a b : W32) :
    BitVec.ofInt 32 (max (inType x a) (inType x b)) = if inType x a < inType x b then b else a := by
  split
  · next h => rw [max_eq_right h.le, ofInt_inType]
  · next h => rw [max_eq_left (not_lt.mp h), ofInt_inType]

theorem shiftLeft_eq_ofNat (a : W32) (n : Nat) : a <<< n = BitVec.ofNat 32 (a.toNat * 2 ^ n) := by
  apply BitVec.eq_of_toNat_eq
  simp [Nat.shiftLeft_eq]

theorem shiftRight_eq_ofNat (a : W32) (n : Nat) : a >>> n = BitVec.ofNat 32 (a.toNat / 2 ^ n) := by
  apply BitVec.eq_of_toNat_eq
  rw [BitVec.toNat_ushiftRight, Nat.shiftRight_eq_div_pow, BitVec.toNat_ofNat]
  exact (Nat.mod_eq_of_lt (lt_of_le_of_lt (Nat.div_le_self ..) a.isLt)).symm

theorem sshiftRight_eq_ofInt (a : W32) (n : Nat) : a.sshiftRight n = BitVec.ofInt 32 (a.toInt / 2 ^ n) := by
  rw [BitVec.sshiftRight_eq, Int.shiftRight_eq_div_pow]
  norm_cast

theorem flagVal_icmpCond (c : Nat) (a b : Int) : flagVal (icmpCond c a b) =
    if (c = 0 ∧ a = b) ∨ (c = 1 ∧ a ≠ b) ∨ (c = 2 ∧ a < b) ∨ (c = 3 ∧ a ≤ b) ∨ (c = 4 ∧ b < a) ∨ (5 ≤ c ∧ b ≤ a)
    then 1#32 else 0#32 := by
  match c with
  | 0 | 1 | 2 | 3 | 4 => simp [flagVal, icmpCond]
  | n + 5 => simp [flagVal, icmpCond]

/-- R114: the leading one of a value stands at its logarithm. -/
theorem clz_eq_find? (a : W32) : (if a = 0#32 then 32 else 31 - Nat.log2 a.toNat) =
    ((List.range 32).find? fun i => a.getMsbD i).getD 32 := by
  by_cases ha : a = 0#32
  · have hnone : ((List.range 32).find? fun i => (0#32).getMsbD i) = none := by simp
    rw [if_pos ha, ha, hnone]
    rfl
  · have hne : a.toNat ≠ 0 := fun h => ha (BitVec.eq_of_toNat_eq h)
    have hlt : Nat.log2 a.toNat < 32 := (Nat.log2_lt hne).mpr a.isLt
    have hsome : ((List.range 32).find? fun i => a.getMsbD i) = some (31 - Nat.log2 a.toNat) := by
      rw [List.find?_range_eq_some]
      refine ⟨?_, List.mem_range.mpr (by omega), fun j hj => ?_⟩
      · have hbit : 32 - 1 - (31 - Nat.log2 a.toNat) = Nat.log2 a.toNat := by omega
        simp [BitVec.getMsbD_eq_getLsbD, BitVec.getLsbD, hbit, Nat.testBit_log2 hne]
        omega
      · have hbit : a.toNat.testBit (32 - 1 - j) = false := by
          refine Nat.testBit_lt_two_pow (lt_of_lt_of_le Nat.lt_log2_self (Nat.pow_le_pow_right (by decide) ?_))
          omega
        simp [BitVec.getMsbD_eq_getLsbD, BitVec.getLsbD, hbit]
    rw [if_neg ha, hsome]
    rfl

theorem rotateRight_eq_or (h : W32) {k : Nat} (hk : k < 32) : h.rotateRight k = (h >>> k) ||| (h <<< (32 - k)) := by
  simp [BitVec.rotateRight, BitVec.rotateRightAux, Nat.mod_eq_of_lt hk]

theorem append_zero_eq_ofNat (m : BitVec 26) : m ++ (0#6 : BitVec 6) = BitVec.ofNat 32 (m.toNat * 64) := by
  apply BitVec.eq_of_toNat_eq
  have h := BitVec.toNat_append m 0#6
  simp only [BitVec.toNat_ofNat, Nat.shiftLeft_eq] at h ⊢
  have := m.isLt
  simp at h
  omega

theorem constVal_eq (x : SiteArgs) : constVal x =
    if x.tyN = 8 then BitVec.ofNat 32 (x.mods.toNat * 64) else BitVec.ofInt 32 x.mods.toInt := by
  unfold constVal
  rw [append_zero_eq_ofNat]
  rfl

theorem m_lt (x : SiteArgs) (hi lo : Nat) : x.m hi lo < 2 ^ (hi + 1 - lo) := (x.mods.extractLsb' lo (hi + 1 - lo)).isLt

theorem hashVal_eq (x : SiteArgs) (v : W32) : hashVal x v =
    BitVec.ofNat 32 ((((v * 0x9E3779B9#32) >>> x.m 4 0) ||| ((v * 0x9E3779B9#32) <<< (32 - x.m 4 0))).toNat / 2 ^ x.m 9 5 %
      2 ^ (x.m 14 10 + 1)) := by
  rw [hashVal, rotateRight_eq_or _ (m_lt x 4 0)]

/-! ## Words that an operation carries out lane by lane -/

/-- The words O46 speaks of: of type i32 or n32, or CONST, SEL, SHUF or BCAST. -/
def IntTyped (i : Instr) (a : SiteRef) (x : SiteArgs) : Prop :=
  x.tyN = 2 ∨ x.tyN = 6 ∨ i = .const a x ∨ i = .sel a x ∨ i = .shuf a x ∨ i = .bcast a x

/-- What O46 says of one operation: `mk` is its constructor, `v` what a lane gets. -/
def GivesLanes (mk : SiteRef → SiteArgs → Instr) (v : SiteArgs → (Nat → Option LaneIn) → Nat → LaneIn → W32) : Prop :=
  ∀ (a : SiteRef) (x : SiteArgs) (s : State) (r : Run) (st st0 : Site) (w : AlWork), AlTakes s (mk a x) a r st st0 w →
    IntTyped (mk a x) a x → ∃ t, exec (mk a x) s = .next t ∧
      AlDoes s t a r st0 w x fun l q => plainLane (v x (seenIn st0 w x) l q) q

section
variable {mk : SiteRef → SiteArgs → Instr} {v : SiteArgs → (Nat → Option LaneIn) → Nat → LaneIn → W32}

theorem givesLanes_of_lanes {f : SiteArgs → AlFn} (hexec : ∀ a x s, exec (mk a x) s = alWord (mk a x) a x s fun _ => f x)
    (hf : ∀ a x lanes l, IntTyped (mk a x) a x → l < 16 → ((f x lanes)[l]?).join =
      ((lanes[l]?).join).map fun q => plainLane (v x (fun k => (lanes[k]?).join) l q) q) : GivesLanes mk v := by
  intro a x s r st st0 w htakes htype
  rw [hexec, alWord_of_takes htakes]
  exact ⟨_, rfl, alDoes_alStep (shaped_of_takes htakes) fun l hl => hf a x _ l htype hl⟩

/-- An operation on the values of its own lane. -/
theorem givesLanes_of_pure1 {g : SiteArgs → LaneIn → W32}
    (hexec : ∀ a x s, exec (mk a x) s = alWord (mk a x) a x s fun _ => pure1 (g x))
    (hval : ∀ a x at_ l q, IntTyped (mk a x) a x → g x q = v x at_ l q) : GivesLanes mk v := by
  refine givesLanes_of_lanes hexec fun a x lanes l htype _ => ?_
  have hlane : ((pure1 (g x) lanes)[l]?).join = ((lanes[l]?).join).map fun q => ⟨g x q, q.g, q.la⟩ := by
    rw [pure1, each, List.getElem?_map]
    cases lanes[l]? <;> rfl
  rw [hlane]
  exact congrArg (fun h => Option.map h _) (funext fun q => by rw [hval a x _ l q htype, plainLane])

end

/-- An operation whose lane l reads its own values and its place. -/
theorem join_map_range (g : Nat → LaneIn → LaneOut) (lanes : List (Option LaneIn)) {l : Nat} (hl : l < 16) :
    (((List.range 16).map fun i => ((lanes[i]?).join).map (g i))[l]?).join = ((lanes[l]?).join).map (g l) := by
  simp [hl]

theorem givesLanes_iota : GivesLanes Instr.iota
    fun x _ l q => BitVec.ofNat 32 ((if x.selA = .none then 0 else q.a.toNat) + x.m 15 0 + l) := by
  refine givesLanes_of_lanes (fun _ _ _ => rfl) fun a x lanes l _ hl => (join_map_range _ lanes hl).trans ?_
  refine congrArg (fun h => Option.map h _) (funext fun q => ?_)
  rw [plainLane, Nat.add_assoc]
  split <;> simp [BitVec.ofNat_add]

theorem givesLanes_shuf : GivesLanes Instr.shuf fun x at_ l q =>
    ((at_ (if x.selB = .none then l ^^^ x.m 3 0 else q.b.toNat % 16)).map (·.a)).getD 0#32 :=
  givesLanes_of_lanes (fun _ _ _ => rfl) fun _ _ lanes _ _ hl => join_map_range _ lanes hl

theorem givesLanes_bcast : GivesLanes Instr.bcast fun x at_ _ _ => ((at_ (x.m 3 0)).map (·.a)).getD 0#32 :=
  givesLanes_of_lanes (fun _ _ _ => rfl) fun _ _ lanes _ _ hl => join_map_range _ lanes hl

/-- Outside CONST, SEL, SHUF and BCAST a word of O46 is of type i32 or n32. -/
theorem typed_of_intTyped {i : Instr} {a : SiteRef} {x : SiteArgs} (h : IntTyped i a x) (hc : i ≠ .const a x)
    (hs : i ≠ .sel a x) (hsh : i ≠ .shuf a x) (hb : i ≠ .bcast a x) : x.tyN = 2 ∨ x.tyN = 6 := by
  simpa [IntTyped, hc, hs, hsh, hb] using h

theorem laneInts_give : ∀ e ∈ laneInts, GivesLanes e.1 e.2 := by
  simp only [laneInts, List.forall_mem_cons]
  refine ⟨?iadd, ?isub, ?imul, ?imulh, ?imad, ?imin, ?imax, ?iabs, ?and, ?or, ?xor, ?not, ?shl, ?shr, ?sar, ?icmp, ?sel,
    ?popc, ?clz, ?hash, givesLanes_shuf, givesLanes_bcast, givesLanes_iota, ?const, List.forall_mem_nil _⟩
  case iadd | isub =>
    exact givesLanes_of_pure1 (fun _ _ _ => rfl) fun _ _ _ _ _ h =>
      satInt_eq_ranged (typed_of_intTyped h nofun nofun nofun nofun) _
  case imul =>
    exact givesLanes_of_pure1 (fun _ _ _ => rfl) fun _ _ _ _ q _ => by simp [BitVec.ofInt_mul]
  case imad =>
    exact givesLanes_of_pure1 (fun _ _ _ => rfl) fun _ _ _ _ q _ => by simp [BitVec.ofInt_mul, BitVec.ofInt_add]
  case imin => exact givesLanes_of_pure1 (fun _ _ _ => rfl) fun _ x _ _ q _ => (ofInt_min_inType x q.a q.b).symm
  case imax => exact givesLanes_of_pure1 (fun _ _ _ => rfl) fun _ x _ _ q _ => (ofInt_max_inType x q.a q.b).symm
  case iabs =>
    refine givesLanes_of_pure1 (fun _ _ _ => rfl) fun _ x _ _ q h => ?_
    rw [satInt_eq_ranged (typed_of_intTyped h nofun nofun nofun nofun), Int.abs_eq_natAbs]
  case imulh | and | or | xor | not =>
    exact givesLanes_of_pure1 (fun _ _ _ => rfl) fun _ _ _ _ _ _ => rfl
  case shl => exact givesLanes_of_pure1 (fun _ _ _ => rfl) fun _ _ _ _ _ _ => shiftLeft_eq_ofNat _ _
  case shr => exact givesLanes_of_pure1 (fun _ _ _ => rfl) fun _ _ _ _ _ _ => shiftRight_eq_ofNat _ _
  case sar => exact givesLanes_of_pure1 (fun _ _ _ => rfl) fun _ _ _ _ _ _ => sshiftRight_eq_ofInt _ _
  case icmp => exact givesLanes_of_pure1 (fun _ _ _ => rfl) fun _ _ _ _ _ _ => flagVal_icmpCond _ _ _
  case sel => exact givesLanes_of_pure1 (fun _ _ _ => rfl) fun _ _ _ _ q _ => (ite_not ..).symm
  case popc =>
    exact givesLanes_of_pure1 (fun _ _ _ => rfl) fun _ _ _ _ _ _ => congrArg (BitVec.ofNat 32) List.countP_eq_length_filter
  case clz => exact givesLanes_of_pure1 (fun _ _ _ => rfl) fun _ _ _ _ q _ => congrArg (BitVec.ofNat 32) (clz_eq_find? q.a)
  case hash => exact givesLanes_of_pure1 (fun _ _ _ => rfl) fun _ x _ _ _ _ => hashVal_eq x _
  case const => exact givesLanes_of_pure1 (fun _ _ _ => rfl) fun _ x _ _ _ _ => constVal_eq x

/-- Settles O46: every operation of the list acts lane by lane, and a word writes lane by lane. -/
theorem integerSiteWordsGiveTheManualsValues : Obligations.IntegerSiteWordsGiveTheManualsValues := by
  unfold Obligations.IntegerSiteWordsGiveTheManualsValues
  exact laneInts_give

end Sys2Proof.Machine
end

section
/-! PROOFS. CFG (O45). A CFG whose stage is refused rolls the region back to the edge it holds (R392, R406), which arms again the
records that were parked there (R200); where the word of such a record holds an uncorrectable error, the task ends (R419). -/

namespace Sys2Proof.Machine
open Sys2Proof.Machine.Claims

/-! ## A refused CFG that ends its task -/

/-- A record that waits, parked, for the word at address 0. -/
def parkedAtZero : ParkEnt := ⟨0, ⟨[], 0#16, none⟩, 0, true, 0, none⟩

/-- The first page of memory, leased for reading and writing. -/
def firstPage : Extent := ⟨0, true, true, false, 0, 4096, [⟨0, 4096, 0x7#8, 0, 0⟩], none⟩

/-- A CFG of stage 0, started. -/
def refusedCfg : Cmd :=
  { Run.reset.mkCmd 0 (packCmd 0x01 ⟨false, false, false, false, 0, 0, 0, 0, 0, 1, 1⟩) none with phase := .started }

def refusedCfgRef : CmdRef := ⟨1#64, 0⟩

/-- Task 1 with that CFG; the edge of its region holds the parked record at the site of row 0 and column 0. -/
def parkedRun : Run :=
  { Run.reset with
    task := 1#64
    lease := [firstPage]
    cmds := [refusedCfg]
    region := { Region.reset with
      hdr := some roundOfOne
      edge := { Edge.reset with held := true, sites := [(0, { SiteCore.reset with parked := [parkedAtZero] })] } } }

/-- The word at address 0 lies in a sector with an uncorrectable error. -/
def parkedOnError : State := { State.reset with cc := parkedRun, err := { State.reset.err with bad := [0] } }

theorem parkedOnError_running : parkedOnError.running? refusedCfgRef = some (parkedRun, refusedCfg) := by decide

theorem parkedOnError_noReceivers : NoReceivers parkedOnError := by
  intro q hq d hd
  obtain rfl : q = parkedRun := by simpa [parkedOnError, State.reset] using hq
  obtain rfl : d = refusedCfg := by simpa [parkedRun] using hd
  rfl

theorem parkedOnError_siteList : siteList parkedOnError 0 roundOfOne = [] := by decide

theorem parkedRun_route_ok : firstBadRoute (loadedRun refusedCfgRef refusedCfg parkedRun roundOfOne []) roundOfOne = none := by
  decide

theorem parkedRun_stage_refused : stageOk (loadedRun refusedCfgRef refusedCfg parkedRun roundOfOne []) = false := by decide

/-- The task of the CFG is gone after it. -/
theorem run?_after_refusedCfg {t : State} (h : exec (.cfg refusedCfgRef refusedCfg.args) parkedOnError = .next t) :
    t.run? refusedCfgRef.task = none := by
  have hgone : (match execCfg refusedCfgRef refusedCfg.args parkedOnError with
      | .next t => t.run? refusedCfgRef.task
      | _ => none) = none := by decide
  have hrun : execCfg refusedCfgRef refusedCfg.args parkedOnError = .next t := h
  rwa [hrun] at hgone

/-- Refutes O45, in its clause on a CFG that is refused: the rollback to a held edge arms a parked record again, its word holds an
uncorrectable error, and so the task ends and has no context in which the CFG could complete with status 11. -/
theorem not_tensorEntriesAndStagesAreLoaded : ¬ Obligations.TensorEntriesAndStagesAreLoaded := by
  unfold Obligations.TensorEntriesAndStagesAreLoaded
  intro hall
  obtain ⟨-, -, -, hcfg⟩ := hall parkedOnError refusedCfgRef refusedCfg.args parkedRun refusedCfg parkedOnError_running rfl
  obtain ⟨-, -, hrefused⟩ := hcfg roundOfOne [] rfl parkedOnError_siteList.symm (by decide) rfl (by decide)
    parkedOnError_noReceivers
  obtain ⟨t, u, hexec, hrun, -⟩ := hrefused parkedRun_route_ok parkedRun_stage_refused
  rw [run?_after_refusedCfg hexec] at hrun
  exact nomatch hrun

end Sys2Proof.Machine
end

section
/-! PROOFS. Arithmetic sites: totals and running values over the lanes (R116, R117), for O47. The model combines rows of blocks in
place; the statement has a tree over the lanes, in which the first valid lane of a block keeps the block's generator. -/

namespace Sys2Proof.Machine
open Sys2Proof.Machine.Claims

/-! ## The first valid lane of a block (R116) -/

/-- No lane of the block of 2^k lanes around a lane is valid before it. -/
def leads (at_ : Nat → Option LaneIn) (k m : Nat) : Bool :=
  (List.range (m % 2 ^ k)).all fun j => (at_ (m / 2 ^ k * 2 ^ k + j)).isNone

/-- The largest of the blocks of at most 2^k lanes whose first valid lane is a lane. -/
def leadUpTo (at_ : Nat → Option LaneIn) (k m : Nat) : Nat :=
  ((List.range (k + 1)).reverse.find? fun j => leads at_ j m).getD 0

section
variable {at_ : Nat → Option LaneIn} {k c i : Nat}

theorem leadUpTo_zero (at_ : Nat → Option LaneIn) (m : Nat) : leadUpTo at_ 0 m = 0 := by
  cases h : leads at_ 0 m <;> simp [leadUpTo, h]

theorem leadUpTo_succ (at_ : Nat → Option LaneIn) (k m : Nat) :
    leadUpTo at_ (k + 1) m = if leads at_ (k + 1) m then k + 1 else leadUpTo at_ k m := by
  rw [leadUpTo, List.range_succ, List.reverse_append, List.reverse_singleton, List.singleton_append, List.find?_cons]
  cases leads at_ (k + 1) m <;> rfl

theorem leadUpTo_of_leads {m : Nat} (h : leads at_ k m = true) : leadUpTo at_ k m = k := by
  cases k with
  | zero => exact leadUpTo_zero at_ m
  | succ k => rw [leadUpTo_succ, if_pos h]

theorem block_add (hc : 2 ^ k ∣ c) (hi : i < 2 ^ k) : (c + i) / 2 ^ k * 2 ^ k = c := by
  obtain ⟨b, rfl⟩ := hc
  rw [Nat.mul_add_div (by positivity), Nat.div_eq_of_lt hi, Nat.add_zero, Nat.mul_comm]

theorem leads_add (hc : 2 ^ k ∣ c) (hi : i < 2 ^ k) : leads at_ k (c + i) = true ↔ ∀ j, j < i → at_ (c + j) = none := by
  have hmod : (c + i) % 2 ^ k = i := by
    obtain ⟨b, rfl⟩ := hc
    rw [Nat.mul_add_mod, Nat.mod_eq_of_lt hi]
  simp [leads, hmod, block_add hc hi]

/-- A lane that is first in a block is first in the half of it where it stands. -/
theorem leads_of_leads_succ (hc : 2 ^ (k + 1) ∣ c) (hi : i < 2 ^ (k + 1)) (h : leads at_ (k + 1) (c + i) = true) :
    leads at_ k (c + i) = true := by
  have hnone := (leads_add hc hi).mp h
  have hck : 2 ^ k ∣ c := (pow_dvd_pow 2 (Nat.le_succ k)).trans hc
  rcases Nat.lt_or_ge i (2 ^ k) with hlt | hge
  · exact (leads_add hck hlt).mpr hnone
  · obtain ⟨j, rfl⟩ := Nat.exists_eq_add_of_le hge
    rw [← Nat.add_assoc]
    refine (leads_add (hck.add (dvd_refl _)) (by omega)).mpr fun l hl => ?_
    rw [Nat.add_assoc]
    exact hnone _ (by omega)

/-- The first valid of n lanes from c on, as the row of the tree finds it. -/
def firstValid (valid : List Bool) (c n : Nat) : Nat :=
  ((List.range n).find? fun i => valid.getD (c + i) false).getD 0 + c

theorem firstValid_eq {valid : List Bool} (hv : ∀ i, valid.getD i false = (at_ i).isSome) {n : Nat} (hi : i < n)
    (hsome : (at_ (c + i)).isSome = true) (hnone : ∀ j, j < i → at_ (c + j) = none) : firstValid valid c n = c + i := by
  have hfind : ((List.range n).find? fun j => valid.getD (c + j) false) = some i := by
    rw [List.find?_range_eq_some]
    refine ⟨by rw [hv]; exact hsome, List.mem_range.mpr hi, fun j hj => ?_⟩
    rw [hv, hnone j hj]
    rfl
  rw [firstValid, hfind, Option.getD_some, Nat.add_comm]

theorem firstValid_mem (valid : List Bool) (c : Nat) {n : Nat} (hn : 0 < n) :
    c ≤ firstValid valid c n ∧ firstValid valid c n < c + n := by
  unfold firstValid
  cases h : (List.range n).find? fun i => valid.getD (c + i) false with
  | none => simp [hn]
  | some i =>
    have hi := List.mem_range.mp (List.mem_of_find?_eq_some h)
    simp only [Option.getD_some]
    omega

/-- A block with a valid lane has a first one. -/
theorem exists_firstValid {valid : List Bool} (hv : ∀ i, valid.getD i false = (at_ i).isSome) {n : Nat}
    (h : ∃ i < n, at_ (c + i) ≠ none) :
    ∃ i < n, firstValid valid c n = c + i ∧ (at_ (c + i)).isSome = true ∧ ∀ j, j < i → at_ (c + j) = none := by
  classical
  obtain ⟨hlt, hsome⟩ := Nat.find_spec h
  have hnone : ∀ j, j < Nat.find h → at_ (c + j) = none := fun j hj => by
    by_contra hne
    exact Nat.find_min h hj ⟨hj.trans hlt, hne⟩
  have hsome := Option.isSome_iff_ne_none.mpr hsome
  exact ⟨_, hlt, firstValid_eq hv hlt hsome hnone, hsome, hnone⟩

end

/-! ## The pairwise tree (R116) -/

section
variable (rd : W32 → W32) (f : W32 → W32 → W32 → W32 × W32) (at_ : Nat → Option LaneIn)

theorem treeNode_succ (k l : Nat) : treeNode rd f at_ (k + 1) l =
    match treeNode rd f at_ k l, treeNode rd f at_ k (l + 2 ^ k) with
    | some p, some q => some (f p.1 q.1 p.2)
    | some p, none => some p
    | none, q => q := rfl

/-- A block without valid lanes has no value. -/
theorem treeNode_eq_none_iff (k l : Nat) : treeNode rd f at_ k l = none ↔ ∀ i, i < 2 ^ k → at_ (l + i) = none := by
  induction k generalizing l with
  | zero =>
    simp [treeNode]
  | succ k ih =>
    have hhalves : (∀ i, i < 2 ^ (k + 1) → at_ (l + i) = none) ↔
        (∀ i, i < 2 ^ k → at_ (l + i) = none) ∧ ∀ i, i < 2 ^ k → at_ (l + 2 ^ k + i) = none := by
      rw [Nat.pow_succ]
      refine ⟨fun h => ⟨fun i hi => h i (by omega), fun i hi => ?_⟩, fun h i hi => ?_⟩
      · rw [Nat.add_assoc]
        exact h _ (by omega)
      · rcases Nat.lt_or_ge i (2 ^ k) with hlt | hge
        · exact h.1 i hlt
        · obtain ⟨j, rfl⟩ := Nat.exists_eq_add_of_le hge
          rw [← Nat.add_assoc]
          exact h.2 j (by omega)
    rw [hhalves, ← ih, ← ih, treeNode_succ]
    cases treeNode rd f at_ k l <;> cases treeNode rd f at_ k (l + 2 ^ k) <;> simp

/-- R116: the generators after the Combine of two halves, values with generators, that draws from a lane. -/
def combinedGens (lead : Nat) (g : List W32) : Option (W32 × W32) → Option (W32 × W32) → List W32
  | some p, some q => g.set lead (f p.1 q.1 p.2).2
  | _, _ => g

theorem length_combinedGens (lead : Nat) (g : List W32) (p q : Option (W32 × W32)) :
    (combinedGens f lead g p q).length = g.length := by
  cases p <;> cases q <;> simp [combinedGens]

theorem getD_combinedGens_of_ne {lead m : Nat} (hne : lead ≠ m) (g : List W32) (p q : Option (W32 × W32)) :
    (combinedGens f lead g p q).getD m 0#32 = g.getD m 0#32 := by
  cases p <;> cases q <;> simp [combinedGens, List.getD_eq_getElem?_getD, hne]

/-- R116: the generator of a lane once blocks of 2^k lanes are combined: that of the largest block which the lane leads. -/
def genAfter (k m : Nat) (q : LaneIn) : W32 :=
  ((treeNode rd f at_ (leadUpTo at_ k m) (m / 2 ^ leadUpTo at_ k m * 2 ^ leadUpTo at_ k m)).map (·.2)).getD q.g

/-- Before lane c the blocks of 2^(k+1) lanes have been combined, from c on those of 2^k: `v` holds a block's value at its first
lane, `g` the generators. -/
structure Combined (k c : Nat) (v : List (Option W32)) (g : List W32) : Prop where
  vlen : v.length = 16
  glen : g.length = 16
  before : ∀ b, b < c → b < 16 → 2 ^ (k + 1) ∣ b → (v[b]?).join = (treeNode rd f at_ (k + 1) b).map (·.1)
  after : ∀ b, c ≤ b → b < 16 → 2 ^ k ∣ b → (v[b]?).join = (treeNode rd f at_ k b).map (·.1)
  gens : ∀ m q, m < 16 → at_ m = some q → g.getD m 0#32 = genAfter rd f at_ (if m < c then k + 1 else k) m q

variable {rd f at_} {k c : Nat} {v : List (Option W32)} {g : List W32}

theorem genAfter_of_leads {i : Nat} (hc : 2 ^ k ∣ c) (hi : i < 2 ^ k) (h : leads at_ k (c + i) = true) (q : LaneIn) :
    genAfter rd f at_ k (c + i) q = ((treeNode rd f at_ k c).map (·.2)).getD q.g := by
  rw [genAfter, leadUpTo_of_leads h, block_add hc hi]

theorem genAfter_succ_of_not_leads {m : Nat} (h : ¬ leads at_ (k + 1) m = true) (q : LaneIn) :
    genAfter rd f at_ (k + 1) m q = genAfter rd f at_ k m q := by
  rw [genAfter, genAfter, leadUpTo_succ, if_neg h]

/-- A block that is still to be combined has its generator at its first valid lane. -/
theorem Combined.gens_of_leads (h : Combined rd f at_ k c v g) {b i : Nat} (hb : 2 ^ k ∣ b) (hcb : c ≤ b) (hi : i < 2 ^ k)
    (hlt : b + i < 16) {q : LaneIn} (hq : at_ (b + i) = some q) (hl : leads at_ k (b + i) = true) :
    g.getD (b + i) 0#32 = ((treeNode rd f at_ k b).map (·.2)).getD q.g := by
  rw [h.gens _ q hlt hq, if_neg (by omega), genAfter_of_leads hb hi hl]

/-- The blocks of one width follow one another, and sixteen lanes hold them whole. -/
theorem block_le_of_lt (hk : 2 ^ (k + 1) ∣ 16) (hc : 2 ^ (k + 1) ∣ c) (hlt : c < 16) : c + 2 ^ (k + 1) ≤ 16 := by
  have hle := Nat.le_of_dvd (Nat.sub_pos_of_lt hlt) (Nat.dvd_sub hk hc)
  omega

section
variable {valid : List Bool} (hv : ∀ i, valid.getD i false = (at_ i).isSome) (h : Combined rd f at_ k c v g)
  (hk : 2 ^ (k + 1) ∣ 16) (hc : 2 ^ (k + 1) ∣ c) (hlt : c < 16)
include hv h hk hc hlt

/-- The generator of the first valid lane, where the left half of a block has one, is that of the half. -/
theorem Combined.gens_firstValid {p : W32 × W32} (hp : treeNode rd f at_ k c = some p) :
    g.getD (firstValid valid c (2 ^ (k + 1))) 0#32 = p.2 := by
  have hle := block_le_of_lt hk hc hlt
  have hck : 2 ^ k ∣ c := (pow_dvd_pow 2 (Nat.le_succ k)).trans hc
  have hpow : 2 ^ (k + 1) = 2 * 2 ^ k := by ring
  have hex : ∃ i < 2 ^ k, at_ (c + i) ≠ none := by
    by_contra hno
    push Not at hno
    rw [(treeNode_eq_none_iff rd f at_ k c).mpr hno] at hp
    exact nomatch hp
  obtain ⟨i, hi, -, hsome, hnone⟩ := exists_firstValid hv hex
  obtain ⟨q, hq⟩ := Option.isSome_iff_exists.mp hsome
  rw [firstValid_eq hv (by omega) hsome hnone,
    h.gens_of_leads hck le_rfl hi (by omega) hq ((leads_add hck hi).mpr hnone), hp]
  rfl

/-- R116: one Combine of a row is one node of the tree. -/
theorem Combined.combine_eq :
    combine f g (firstValid valid c (2 ^ (k + 1))) (v[c]?).join (v[c + 2 ^ k]?).join =
      ((treeNode rd f at_ (k + 1) c).map (·.1),
        combinedGens f (firstValid valid c (2 ^ (k + 1))) g (treeNode rd f at_ k c) (treeNode rd f at_ k (c + 2 ^ k))) := by
  have hle := block_le_of_lt hk hc hlt
  have hck : 2 ^ k ∣ c := (pow_dvd_pow 2 (Nat.le_succ k)).trans hc
  have hpos : 0 < 2 ^ k := by positivity
  have hpow : 2 ^ (k + 1) = 2 * 2 ^ k := by ring
  have hlead := fun p => h.gens_firstValid hv hk hc hlt (p := p)
  rw [h.after c le_rfl hlt hck, h.after (c + 2 ^ k) (by omega) (by omega) (hck.add (dvd_refl _)), treeNode_succ]
  cases hP : treeNode rd f at_ k c with
  | none => cases treeNode rd f at_ k (c + 2 ^ k) <;> rfl
  | some p =>
    cases treeNode rd f at_ k (c + 2 ^ k) with
    | none => rfl
    | some q => simp only [Option.map_some, combine, combinedGens, hlead p hP]

/-- The generators after one Combine: the first valid lane of the block has that of the combined block. -/
theorem Combined.gens_combine {i : Nat} (hi : i < 2 ^ (k + 1)) {q : LaneIn} (hq : at_ (c + i) = some q) :
    (combinedGens f (firstValid valid c (2 ^ (k + 1))) g (treeNode rd f at_ k c) (treeNode rd f at_ k (c + 2 ^ k))).getD (c + i)
      0#32 = genAfter rd f at_ (k + 1) (c + i) q := by
  have hle := block_le_of_lt hk hc hlt
  have hpow : 2 ^ (k + 1) = 2 * 2 ^ k := by ring
  by_cases hl : leads at_ (k + 1) (c + i) = true
  · have hfirst : firstValid valid c (2 ^ (k + 1)) = c + i :=
      firstValid_eq hv hi (by simp [hq]) ((leads_add hc hi).mp hl)
    have hleft := fun p => h.gens_firstValid hv hk hc hlt (p := p)
    rw [genAfter_of_leads hc hi hl, treeNode_succ, hfirst]
    rw [hfirst] at hleft
    cases hP : treeNode rd f at_ k c with
    | some p =>
      cases treeNode rd f at_ k (c + 2 ^ k) with
      | some p' =>
        have hlen : c + i < g.length := by rw [h.glen]; omega
        simp [combinedGens, List.getD_eq_getElem?_getD, hlen]
      | none => exact hleft p hP
    | none =>
      have hge : 2 ^ k ≤ i := by
        by_contra hno
        rw [(treeNode_eq_none_iff rd f at_ k c).mp hP i (by omega)] at hq
        exact nomatch hq
      obtain ⟨j, rfl⟩ := Nat.exists_eq_add_of_le hge
      have hck : 2 ^ k ∣ c := (pow_dvd_pow 2 (Nat.le_succ k)).trans hc
      have hlk := leads_of_leads_succ hc hi hl
      rw [← Nat.add_assoc] at hq hlk ⊢
      exact h.gens_of_leads (hck.add (dvd_refl _)) (by omega) (by omega) (by omega) hq hlk
  · have hne : firstValid valid c (2 ^ (k + 1)) ≠ c + i := by
      obtain ⟨j, hj, hfirst, -, hnone⟩ := exists_firstValid (c := c) hv ⟨i, hi, by simp [hq]⟩
      intro heq
      rw [← heq, hfirst] at hl
      exact hl ((leads_add hc hj).mpr hnone)
    rw [genAfter_succ_of_not_leads hl, getD_combinedGens_of_ne f hne, h.gens _ q (by omega) hq, if_neg (by omega)]

/-- R116: the Combine of one block of a row. -/
theorem Combined.block :
    Combined rd f at_ k (c + 2 ^ (k + 1))
      (v.set c (combine f g (firstValid valid c (2 ^ (k + 1))) (v[c]?).join (v[c + 2 ^ k]?).join).1)
      (combine f g (firstValid valid c (2 ^ (k + 1))) (v[c]?).join (v[c + 2 ^ k]?).join).2 := by
  rw [h.combine_eq hv hk hc hlt]
  have hpos : 0 < 2 ^ (k + 1) := by positivity
  obtain ⟨hmem, hmem'⟩ := firstValid_mem valid c hpos
  constructor
  case vlen => simp [h.vlen]
  case glen => exact (length_combinedGens ..).trans h.glen
  case before =>
    intro b hb hb16 hdvd
    rcases Nat.lt_or_ge b c with hbc | hbc
    · rw [List.getElem?_set_ne (by omega)]
      exact h.before b hbc hb16 hdvd
    · have hbeq : b = c := by
        have hzero := Nat.eq_zero_of_dvd_of_lt (Nat.dvd_sub hdvd hc) (by omega)
        omega
      rw [hbeq, List.getElem?_set_self (by rw [h.vlen]; exact hlt)]
      rfl
  case after =>
    intro b hb hb16 hdvd
    rw [List.getElem?_set_ne (by omega)]
    exact h.after b (by omega) hb16 hdvd
  case gens =>
    intro m q hm hq
    by_cases hin : c ≤ m ∧ m < c + 2 ^ (k + 1)
    · obtain ⟨i, rfl⟩ := Nat.exists_eq_add_of_le hin.1
      rw [if_pos hin.2]
      exact h.gens_combine hv hk hc hlt (by omega) hq
    · rw [getD_combinedGens_of_ne f (by omega), h.gens m q hm hq]
      congr 1
      by_cases hmc : m < c
      · rw [if_pos hmc, if_pos (by omega)]
      · rw [if_neg hmc, if_neg (by omega)]

end

/-- A row that has been combined to its end begins the next width. -/
theorem Combined.next_row (h : Combined rd f at_ k c v g) (hc : 16 ≤ c) : Combined rd f at_ (k + 1) 0 v g where
  vlen := h.vlen
  glen := h.glen
  before b hb := absurd hb (Nat.not_lt_zero b)
  after b _ hb hdvd := h.before b (by omega) hb hdvd
  gens m q hm hq := by rw [h.gens m q hm hq, if_pos (by omega), if_neg (Nat.not_lt_zero m)]

theorem combineRow_succ (valid : List Bool) (w n l : Nat) (v : List (Option W32)) (g : List W32) :
    combineRow f valid w (n + 1) l v g = if 16 ≤ l then (v, g) else
      combineRow f valid w n (l + 2 * w)
        (v.set l (combine f g (firstValid valid l (2 * w)) (v[l]?).join (v[l + w]?).join).1)
        (combine f g (firstValid valid l (2 * w)) (v[l]?).join (v[l + w]?).join).2 := rfl

/-- R116: the combinations of one width. -/
theorem Combined.row {valid : List Bool} (hv : ∀ i, valid.getD i false = (at_ i).isSome) (hk : 2 ^ (k + 1) ∣ 16) {w : Nat}
    (hw : w = 2 ^ k) (n : Nat) (h : Combined rd f at_ k c v g) (hc : 2 ^ (k + 1) ∣ c) (hn : 16 ≤ c + n) :
    Combined rd f at_ (k + 1) 0 (combineRow f valid w n c v g).1 (combineRow f valid w n c v g).2 := by
  subst hw
  induction n generalizing c v g with
  | zero => exact h.next_row (by omega)
  | succ n ih =>
    rw [combineRow_succ]
    split
    · next hge => exact h.next_row hge
    · next hlt =>
      have hpow : 2 * 2 ^ k = 2 ^ (k + 1) := by ring
      have hpos : 0 < 2 ^ (k + 1) := by positivity
      rw [hpow]
      exact ih (h.block hv hk hc (by omega)) (hc.add (dvd_refl _)) (by omega)

end

/-! ## Totals and running values over the lanes (R116, R117) -/

section
variable (rd : W32 → W32) (f : W32 → W32 → W32 → W32 × W32) (lanes : List (Option LaneIn))

theorem combined_start (hlen : lanes.length = 16) :
    Combined rd f (fun k => (lanes[k]?).join) 0 0 (lanes.map fun q => q.map fun q => rd q.a)
      (lanes.map fun q => (q.map (·.g)).getD 0#32) where
  vlen := by simp [hlen]
  glen := by simp [hlen]
  before b hb := absurd hb (Nat.not_lt_zero b)
  after b _ hb _ := by
    simp only [treeNode, List.getElem?_map, Option.map_map]
    cases lanes[b]? with
    | none => rfl
    | some q => cases q <;> rfl
  gens m q hm hq := by
    have hget : lanes[m]? = some (some q) := Option.join_eq_some_iff.mp hq
    rw [if_neg (Nat.not_lt_zero m), genAfter, leadUpTo_zero]
    simp [treeNode, List.getD_eq_getElem?_getD, hget]

/-- R116: the tree of the model is that of the rule, with the generators of its nodes. -/
theorem combined_laneTree (hlen : lanes.length = 16) : ∃ v,
    Combined rd f (fun k => (lanes[k]?).join) 4 0 v (laneTree rd f lanes).2 ∧ (laneTree rd f lanes).1 = (v[0]?).join := by
  have hv : ∀ i, (lanes.map (·.isSome)).getD i false = ((lanes[i]?).join).isSome := by
    intro i
    rw [List.getD_eq_getElem?_getD, List.getElem?_map]
    cases lanes[i]? with
    | none => rfl
    | some q => cases q <;> rfl
  have h1 := (combined_start rd f lanes hlen).row hv (by decide) (w := 1) rfl 16 (Nat.dvd_zero _) le_rfl
  have h2 := h1.row hv (by decide) (w := 2) rfl 16 (Nat.dvd_zero _) le_rfl
  have h4 := h2.row hv (by decide) (w := 4) rfl 16 (Nat.dvd_zero _) le_rfl
  have h8 := h4.row hv (by decide) (w := 8) rfl 16 (Nat.dvd_zero _) le_rfl
  simp only [laneTree, List.foldl_cons, List.foldl_nil]
  exact ⟨_, h8, rfl⟩

theorem fst_laneTree (hlen : lanes.length = 16) :
    (laneTree rd f lanes).1 = (treeNode rd f (fun k => (lanes[k]?).join) 4 0).map (·.1) := by
  obtain ⟨v, h, htotal⟩ := combined_laneTree rd f lanes hlen
  rw [htotal, h.after 0 le_rfl (by decide) (Nat.dvd_zero _)]

theorem getD_snd_laneTree (hlen : lanes.length = 16) {l : Nat} (hl : l < 16) {q : LaneIn} (hq : (lanes[l]?).join = some q) :
    (laneTree rd f lanes).2.getD l q.g = genAfter rd f (fun k => (lanes[k]?).join) 4 l q := by
  obtain ⟨v, h, -⟩ := combined_laneTree rd f lanes hlen
  have hget := h.gens l q hl hq
  rw [if_neg (Nat.not_lt_zero l)] at hget
  rw [← hget, List.getD_eq_getElem _ _ (by rw [h.glen]; exact hl), List.getD_eq_getElem _ _ (by rw [h.glen]; exact hl)]

/-- R116: every valid lane gets the total, and its generator after the draws of the nodes that it leads. -/
theorem join_reduceLanes (hlen : lanes.length = 16) {l : Nat} (hl : l < 16) :
    ((reduceLanes rd f lanes)[l]?).join = ((lanes[l]?).join).map fun q =>
      ⟨((treeNode rd f (fun k => (lanes[k]?).join) 4 0).map (·.1)).getD 0#32, genAfter rd f (fun k => (lanes[k]?).join) 4 l q,
        q.la⟩ := by
  unfold reduceLanes
  rw [List.getElem?_map, List.getElem?_range hl, Option.map_some, Option.join_some, fst_laneTree rd f lanes hlen]
  cases hq : (lanes[l]?).join with
  | none => rfl
  | some q => rw [Option.map_some, Option.map_some, getD_snd_laneTree rd f lanes hlen hl hq]

variable {rd f lanes}

theorem snd_combine_of_keeps (hf : ∀ a b g, (f a b g).2 = g) (g : List W32) (lead : Nat) (p q : Option W32) :
    (combine f g lead p q).2 = g := by
  cases p <;> cases q
  case some.some a b => exact (congrArg _ (hf a b _)).trans (set_getD_self g lead 0#32)
  all_goals rfl

theorem snd_combineRow_of_keeps (hf : ∀ a b g, (f a b g).2 = g) (valid : List Bool) (w n l : Nat) (v : List (Option W32))
    (g : List W32) : (combineRow f valid w n l v g).2 = g := by
  induction n generalizing l v with
  | zero => rfl
  | succ n ih =>
    rw [combineRow_succ]
    split
    · rfl
    · rw [snd_combine_of_keeps hf, ih]

/-- R116: where no Combine draws, every valid lane keeps its generator. -/
theorem genAfter_of_keeps (hf : ∀ a b g, (f a b g).2 = g) (hlen : lanes.length = 16) {l : Nat} (hl : l < 16) {q : LaneIn}
    (hq : (lanes[l]?).join = some q) : genAfter rd f (fun k => (lanes[k]?).join) 4 l q = q.g := by
  have hget : lanes[l]? = some (some q) := Option.join_eq_some_iff.mp hq
  rw [← getD_snd_laneTree rd f lanes hlen hl hq]
  simp [laneTree, snd_combineRow_of_keeps hf, List.getD_eq_getElem?_getD, hget]

end

/-- R117: the running value p behind a lane, from p before it. -/
def scanNext (rd : W32 → W32) (f : W32 → W32 → W32 → W32 × W32) (p : Option W32) : Option LaneIn → Option W32
  | none => p
  | some q => some (match p with | none => rd q.a | some v => (f v q.a q.g).1)

theorem scanBefore_succ (rd : W32 → W32) (f : W32 → W32 → W32 → W32 × W32) (at_ : Nat → Option LaneIn) (l : Nat) :
    scanBefore rd f at_ (l + 1) = scanNext rd f (scanBefore rd f at_ l) (at_ l) := by
  rw [scanBefore]
  cases scanBefore rd f at_ l <;> cases at_ l <;> rfl

/-- R117: the running value before a lane is that of the lanes below it, taken in order. -/
theorem scanBefore_eq_foldl (rd : W32 → W32) (f : W32 → W32 → W32 → W32 × W32) (lanes : List (Option LaneIn)) {l : Nat}
    (hl : l ≤ lanes.length) :
    scanBefore rd f (fun k => (lanes[k]?).join) l = (lanes.take l).foldl (scanNext rd f) none := by
  induction l with
  | zero => rfl
  | succ l ih =>
    have hget : lanes[l]? = some lanes[l] := List.getElem?_eq_getElem hl
    rw [scanBefore_succ, ih (by omega), List.take_add_one, hget, Option.join_some, Option.toList_some, List.foldl_append]
    rfl

/-- R117: what SCANL gives a valid lane where the running value before it is p. -/
def scanOut (x : SiteArgs) (fz : Bool) (p : Option W32) (q : LaneIn) : LaneOut :=
  match p with
  | none => plainLane (if x.m 0 0 = 1 then 0#32 else readAs x fz q.a) q
  | some p => ⟨if x.m 0 0 = 1 then p else (laneAdd x fz p q.a q.g).1, (laneAdd x fz p q.a q.g).2, q.la⟩

theorem scanLanes_cons (x : SiteArgs) (fz : Bool) (p : Option W32) (o : Option LaneIn) (lanes : List (Option LaneIn)) :
    scanLanes x fz p (o :: lanes) =
      o.map (scanOut x fz p) :: scanLanes x fz (scanNext (readAs x fz) (laneAdd x fz) p o) lanes := by
  cases o with
  | none => rfl
  | some q => cases p <;> rfl

theorem join_scanLanes (x : SiteArgs) (fz : Bool) (lanes : List (Option LaneIn)) (p : Option W32) (l : Nat) :
    ((scanLanes x fz p lanes)[l]?).join =
      ((lanes[l]?).join).map (scanOut x fz ((lanes.take l).foldl (scanNext (readAs x fz) (laneAdd x fz)) p)) := by
  induction lanes generalizing p l with
  | nil => rfl
  | cons o lanes ih =>
    rw [scanLanes_cons]
    cases l with
    | zero => rfl
    | succ l => exact ih _ l

end Sys2Proof.Machine
end

section
/-! PROOFS. Arithmetic sites: the words on numbers (R103 to R113, R116, R117) give the values of `laneNums`; settles O47. -/

namespace Sys2Proof.Machine
open Sys2Proof.Machine.Claims

/-! ## Words that an operation carries out lane by lane -/

/-- The words O47 speaks of: a packed addition, multiplication or multiply-add is of type f16 or bf16. -/
def PackedTyped (i : Instr) (a : SiteRef) (x : SiteArgs) : Prop :=
  i = .hadd2 a x ∨ i = .hmul2 a x ∨ i = .hfma2 a x → x.tyN = 9 ∨ x.tyN = 10

/-- What O47 says of one operation: `mk` is its constructor, `v` what a lane gets. -/
def GivesNums (mk : SiteRef → SiteArgs → Instr) (v : SiteArgs → Bool → (Nat → Option LaneIn) → Nat → LaneIn → LaneOut) :
    Prop :=
  ∀ (a : SiteRef) (x : SiteArgs) (s : State) (r : Run) (st st0 : Site) (w : AlWork), AlTakes s (mk a x) a r st st0 w →
    PackedTyped (mk a x) a x → ∃ t, exec (mk a x) s = .next t ∧
      AlDoes s t a r st0 w x fun l q => v x r.fz (seenIn st0 w x) l q

section
variable {mk : SiteRef → SiteArgs → Instr} {v : SiteArgs → Bool → (Nat → Option LaneIn) → Nat → LaneIn → LaneOut}

/-- An operation on the sixteen lanes. -/
theorem givesNums_of_lanes {f : SiteArgs → Bool → AlFn} (hexec : ∀ a x s, exec (mk a x) s = alWord (mk a x) a x s (f x))
    (hf : ∀ x fz lanes l, lanes.length = 16 → l < 16 →
      ((f x fz lanes)[l]?).join = ((lanes[l]?).join).map (v x fz (fun k => (lanes[k]?).join) l)) : GivesNums mk v := by
  intro a x s r st st0 w htakes _
  rw [hexec, alWord_of_takes htakes]
  exact ⟨_, rfl, alDoes_alStep (shaped_of_takes htakes) fun l hl => hf x r.fz _ l (by simp [AlWork.lanes]) hl⟩

theorem join_each (g : LaneIn → LaneOut) (lanes : List (Option LaneIn)) (l : Nat) :
    ((each g lanes)[l]?).join = ((lanes[l]?).join).map g := by
  rw [each, List.getElem?_map]
  cases lanes[l]? <;> rfl

/-- An operation on the values of its own lane, of a type that O47 speaks of. -/
theorem givesNums_of_typed {g : SiteArgs → Bool → LaneIn → LaneOut}
    (hexec : ∀ a x s, exec (mk a x) s = alWord (mk a x) a x s fun fz => each (g x fz))
    (hval : ∀ a x fz at_ l q, PackedTyped (mk a x) a x → g x fz q = v x fz at_ l q) : GivesNums mk v := by
  intro a x s r st st0 w htakes htype
  rw [hexec, alWord_of_takes htakes]
  refine ⟨_, rfl, alDoes_alStep (shaped_of_takes htakes) fun l _ => (join_each _ _ l).trans ?_⟩
  exact congrArg (fun h => Option.map h _) (funext fun q => hval a x r.fz _ l q htype)

/-- An operation on the values of its own lane. -/
theorem givesNums_of_each {g : SiteArgs → Bool → LaneIn → LaneOut}
    (hexec : ∀ a x s, exec (mk a x) s = alWord (mk a x) a x s fun fz => each (g x fz))
    (hval : ∀ x fz at_ l q, g x fz q = v x fz at_ l q) : GivesNums mk v :=
  givesNums_of_typed hexec fun _ x fz at_ l q _ => hval x fz at_ l q

end

/-! ## Rounding and drawing (R71, R75) -/

/-- Round and draw as one: under mode 4 the generator moves and its new state is drawn. -/
theorem roundG_eq (ty mode : Nat) (sat fz : Bool) (g : W32) (v : Num) :
    roundG ty mode sat fz g v =
      (let drawn := if mode = 4 then genNext g else g
       (roundTo ty mode sat fz (if mode = 4 then drawn.toNat else 0) v, drawn)) := by
  unfold roundG
  split <;> rfl

theorem roundF_eq (x : SiteArgs) (fz : Bool) (v : Num) (q : LaneIn) : roundF x fz v q = f32Rounded x fz v q := by
  simp only [roundF, roundG_eq, f32Rounded]

/-- R108: what a packed word gives a lane. -/
def packedLane (x : SiteArgs) (fz : Bool) (f : Num → Num → Num → Num) (q : LaneIn) : LaneOut :=
  let el (j : Nat) (w : W32) : Num := decodeNum x.tyN fz (elemOf x.tyN j w)
  let r0 := roundG x.tyN x.rndN false fz q.g (f (el 0 q.a) (el 0 q.b) (el 0 q.c))
  let r1 := roundG x.tyN x.rndN false fz r0.2 (f (el 1 q.a) (el 1 q.b) (el 1 q.c))
  ⟨BitVec.ofNat 32 (packCodes x.tyN [r0.1, r1.1]), r1.2, q.la⟩

theorem packed2_eq_each (x : SiteArgs) (fz : Bool) (f : Num → Num → Num → Num) : packed2 x fz f = each (packedLane x fz f) := rfl

/-- R108: elements of 16 bits fill a lane. -/
theorem packedLane_eq_pairRounded {x : SiteArgs} (h : x.tyN = 9 ∨ x.tyN = 10) (fz : Bool) (f : Num → Num → Num → Num)
    (q : LaneIn) : packedLane x fz f q = pairRounded x fz f q := by
  have hbits : fmtBits x.tyN = 16 := by rcases h with h | h <;> rw [h] <;> rfl
  simp only [packedLane, roundG_eq, elemOf, packCodes, pairRounded, hbits, Nat.mul_zero, Nat.add_zero]

/-- R110: a choice between two forms that no lane decides is made in each lane. -/
theorem ite_each (c : Prop) [Decidable c] (f g : LaneIn → LaneOut) :
    (if c then each f else each g) = each fun q => if c then f q else g q := by
  split <;> rfl

/-! ## The words of O47 -/

theorem givesNums_f32 {mk : SiteRef → SiteArgs → Instr} {f : SiteArgs → Num → Num → Num → Num}
    (hexec : ∀ a x s, exec (mk a x) s = alWord (mk a x) a x s fun fz => f32Op x fz (f x)) :
    GivesNums mk fun x fz _ _ q => f32Rounded x fz (f x (f32Of fz q.a) (f32Of fz q.b) (f32Of fz q.c)) q :=
  givesNums_of_each hexec fun x fz _ _ q => roundF_eq x fz _ q

theorem givesNums_packed {mk : SiteRef → SiteArgs → Instr} {f : SiteArgs → Num → Num → Num → Num}
    (hmk : ∀ a x, mk a x = .hadd2 a x ∨ mk a x = .hmul2 a x ∨ mk a x = .hfma2 a x)
    (hexec : ∀ a x s, exec (mk a x) s = alWord (mk a x) a x s fun fz => packed2 x fz (f x)) :
    GivesNums mk fun x fz _ _ q => pairRounded x fz (f x) q :=
  givesNums_of_typed (g := fun x fz => packedLane x fz (f x)) (fun a x s => by simp only [hexec, packed2_eq_each])
    fun a x fz _ _ q h => packedLane_eq_pairRounded (h (hmk a x)) fz (f x) q

theorem givesNums_pure1 {mk : SiteRef → SiteArgs → Instr} {g : SiteArgs → Bool → LaneIn → W32}
    (hexec : ∀ a x s, exec (mk a x) s = alWord (mk a x) a x s fun fz => pure1 (g x fz)) :
    GivesNums mk fun x fz _ _ q => plainLane (g x fz q) q :=
  givesNums_of_each (g := fun x fz q => plainLane (g x fz q) q) hexec fun _ _ _ _ _ => rfl

/-- R109: the exact sum of two products and an f32. -/
theorem dotNum_two (mode ta tb : Nat) (fz : Bool) (a b : W32) (c : Num) : dotNum mode ta tb 2 fz a b c =
    addNum mode (mulNum (decodeNum ta fz (elemOf ta 0 a)) (decodeNum tb fz (elemOf tb 0 b)))
      (addNum mode (mulNum (decodeNum ta fz (elemOf ta 1 a)) (decodeNum tb fz (elemOf tb 1 b))) c) := rfl

theorem givesNums_hdot2 : GivesNums Instr.hdot2 fun x fz _ _ q => f32Rounded x fz
    (addNum x.rndN (mulNum (decodeNum x.tyN fz (elemOf x.tyN 0 q.a)) (decodeNum x.tyN fz (elemOf x.tyN 0 q.b)))
      (addNum x.rndN (mulNum (decodeNum x.tyN fz (elemOf x.tyN 1 q.a)) (decodeNum x.tyN fz (elemOf x.tyN 1 q.b))) (f32Of fz q.c)))
    q :=
  givesNums_of_each (g := fun x fz q => roundF x fz (dotNum x.rndN x.tyN x.tyN 2 fz q.a q.b (f32Of fz q.c)) q)
    (fun _ _ _ => rfl) fun x fz _ _ q => by rw [roundF_eq, dotNum_two]

theorem exec_q8dot4 (a : SiteRef) (x : SiteArgs) (s : State) :
    exec (.q8dot4 a x) s = alWord (.q8dot4 a x) a x s fun fz =>
      if x.tyN = 0 then each fun q => plainLane (q8Int (x.m 1 1 == 1) q) q
      else each fun q =>
        roundF x fz (dotNum x.rndN x.tyN (if x.m 0 0 = 1 then 23 - x.tyN else x.tyN) 4 fz q.a q.b (f32Of fz q.c)) q := rfl

theorem givesNums_q8dot4 : GivesNums Instr.q8dot4 fun x fz _ _ q =>
    if x.tyN = 0 then plainLane (q8Int (x.m 1 1 == 1) q) q
    else f32Rounded x fz (dotNum x.rndN x.tyN (if x.m 0 0 = 1 then 23 - x.tyN else x.tyN) 4 fz q.a q.b (f32Of fz q.c)) q :=
  givesNums_of_each
    (g := fun x fz q => if x.tyN = 0 then plainLane (q8Int (x.m 1 1 == 1) q) q else
      roundF x fz (dotNum x.rndN x.tyN (if x.m 0 0 = 1 then 23 - x.tyN else x.tyN) 4 fz q.a q.b (f32Of fz q.c)) q)
    (fun a x s => by simp only [exec_q8dot4, ite_each]) fun x fz _ _ q => by rw [roundF_eq]

theorem givesNums_lacc : GivesNums Instr.lacc fun _ _ _ _ q =>
    let la := BitVec.ofInt 64 (q.la.toInt + ((List.range 4).map fun j => laccAmount (q.a.toNat / 2 ^ (8 * j) % 256)).sum)
    ⟨la.setWidth 32, q.g, la⟩ :=
  givesNums_of_each
    (g := fun _ _ q =>
      let la := q.la + BitVec.ofInt 64 ((List.range 4).map fun j => laccAmount (elemOf 0 j q.a)).sum
      ⟨la.setWidth 32, q.g, la⟩)
    (fun _ _ _ => rfl) fun _ _ _ _ q => by rw [BitVec.ofInt_add, BitVec.ofInt_toInt]; rfl

theorem givesNums_rsum : GivesNums Instr.rsum fun x fz at_ l q =>
    ⟨((treeNode (readAs x fz) (laneAdd x fz) at_ 4 0).map (·.1)).getD 0#32,
      ((treeNode (readAs x fz) (laneAdd x fz) at_ (leadBlock at_ l) (l / 2 ^ leadBlock at_ l * 2 ^ leadBlock at_ l)).map (·.2)).getD q.g,
      q.la⟩ :=
  givesNums_of_lanes (f := fun x fz => reduceLanes (asRead x.tyN fz) (laneAdd x fz)) (fun _ _ _ => rfl)
    fun x fz lanes _ hlen hl => join_reduceLanes (readAs x fz) (laneAdd x fz) lanes hlen hl

theorem givesNums_rmax : GivesNums Instr.rmax fun x fz at_ _ q =>
    plainLane (((treeNode (readAs x fz) (laneMax x fz) at_ 4 0).map (·.1)).getD 0#32) q := by
  refine givesNums_of_lanes (f := fun x fz => reduceLanes (asRead x.tyN fz) (laneMax x fz)) (fun _ _ _ => rfl)
    fun x fz lanes l hlen hl => (join_reduceLanes (readAs x fz) (laneMax x fz) lanes hlen hl).trans ?_
  cases hq : (lanes[l]?).join with
  | none => rfl
  | some q =>
    rw [Option.map_some, Option.map_some, genAfter_of_keeps (fun _ _ _ => rfl) hlen hl hq]
    rfl

theorem givesNums_scanl : GivesNums Instr.scanl fun x fz at_ l q =>
    match scanBefore (readAs x fz) (laneAdd x fz) at_ l with
    | none => plainLane (if x.m 0 0 = 1 then 0#32 else readAs x fz q.a) q
    | some p => ⟨if x.m 0 0 = 1 then p else (laneAdd x fz p q.a q.g).1, (laneAdd x fz p q.a q.g).2, q.la⟩ := by
  refine givesNums_of_lanes (f := fun x fz => scanLanes x fz none) (fun _ _ _ => rfl) fun x fz lanes l hlen hl => ?_
  rw [join_scanLanes, ← scanBefore_eq_foldl _ _ _ (by omega)]
  rfl

theorem laneNums_give : ∀ e ∈ laneNums, GivesNums e.1 e.2 := by
  simp only [laneNums, List.forall_mem_cons]
  refine ⟨?fadd, ?fsub, ?fmul, ?fma, ?fmin, ?fmax, ?fabs, ?fneg, ?frcp, ?frsq, ?fexp2, ?flog2, ?fcmp, ?fclass, ?fcvt,
    givesNums_hdot2, givesNums_q8dot4, ?lmul, givesNums_lacc, ?lcvt, ?hadd2, ?hmul2, ?hfma2, givesNums_rsum, givesNums_rmax,
    givesNums_scanl, List.forall_mem_nil _⟩
  case fadd => exact givesNums_f32 (f := fun x a b _ => addNum x.rndN a b) fun _ _ _ => rfl
  case fsub => exact givesNums_f32 (f := fun x a b _ => addNum x.rndN a (negNum b)) fun _ _ _ => rfl
  case fmul => exact givesNums_f32 (f := fun _ a b _ => mulNum a b) fun _ _ _ => rfl
  case fma => exact givesNums_f32 (f := fun x a b c => addNum x.rndN (mulNum a b) c) fun _ _ _ => rfl
  case frcp => exact givesNums_f32 (f := fun _ a _ _ => fnNum 0 a) fun _ _ _ => rfl
  case frsq => exact givesNums_f32 (f := fun _ a _ _ => fnNum 1 a) fun _ _ _ => rfl
  case fexp2 => exact givesNums_f32 (f := fun _ a _ _ => fnNum 2 a) fun _ _ _ => rfl
  case flog2 => exact givesNums_f32 (f := fun _ a _ _ => fnNum 3 a) fun _ _ _ => rfl
  case fmin | fmax | fabs | fneg | fcmp | fclass | lmul => exact givesNums_pure1 fun _ _ _ => rfl
  case fcvt => exact givesNums_of_each (g := fcvtLane) (fun _ _ _ => rfl) fun _ _ _ _ _ => rfl
  case lcvt => exact givesNums_of_each (g := lcvtLane) (fun _ _ _ => rfl) fun _ _ _ _ _ => rfl
  case hadd2 => exact givesNums_packed (f := fun x a b _ => addNum x.rndN a b) (fun _ _ => .inl rfl) fun _ _ _ => rfl
  case hmul2 => exact givesNums_packed (f := fun _ a b _ => mulNum a b) (fun _ _ => .inr (.inl rfl)) fun _ _ _ => rfl
  case hfma2 =>
    exact givesNums_packed (f := fun x a b c => addNum x.rndN (mulNum a b) c) (fun _ _ => .inr (.inr rfl)) fun _ _ _ => rfl

/-- Settles O47: every operation of the list acts lane by lane, and a word writes lane by lane. -/
theorem numberSiteWordsGiveTheManualsValues : Obligations.NumberSiteWordsGiveTheManualsValues := by
  unfold Obligations.NumberSiteWordsGiveTheManualsValues
  exact laneNums_give

end Sys2Proof.Machine
end

section
/-! PROOFS. Reading through a lease (R363): bytes that lie at consecutive physical addresses, free of errors, are what memory holds
there, and reading them changes nothing. -/

namespace Sys2Proof.Machine
open Sys2Proof.Machine.Claims

theorem memBytes_append (m : List (Nat × Byte)) (pa k n : Nat) :
    memBytes m pa k ++ memBytes m (pa + k) n = memBytes m pa (k + n) := by
  induction k generalizing pa with
  | zero => rw [Nat.zero_add]; rfl
  | succ k ih =>
    have hpa : pa + (k + 1) = pa + 1 + k := by omega
    rw [Nat.add_right_comm, hpa]
    exact congrArg (memByte m pa :: ·) (ih (pa + 1))

/-- R372: a place in memory is no place in another device's window. -/
theorem Extent.peer_of_place_phys {e : Extent} {va pa : Nat} {attr : BitVec 8} (h : e.place va = .phys pa attr) :
    e.peer = none := by
  unfold Extent.place at h
  cases hp : e.peer with
  | none => rfl
  | some w => rw [hp] at h; exact nomatch h

theorem flatAt_drop {e : Extent} {va n pa k : Nat} (h : FlatAt e va n pa) (hk : k ≤ n) : FlatAt e (va + k) (n - k) (pa + k) := by
  intro i hi
  rw [Nat.add_assoc, Nat.add_assoc]
  exact h (k + i) (by omega)

theorem flatAt_place {e : Extent} {va n pa : Nat} (h : FlatAt e va n pa) (hn : 0 < n) :
    ∃ attr, e.place va = .phys pa attr := h 0 hn

theorem readRange_of_flat (s : State) {e : Extent} {va n pa : Nat} (h : FlatAt e va n pa) {fuel : Nat} (hn : n < fuel) :
    readRange s e va fuel n = (.ok (memBytes s.mem pa n), s) := by
  induction fuel generalizing va n pa with
  | zero => exact absurd hn (Nat.not_lt_zero n)
  | succ fuel ih =>
    rw [readRange]
    by_cases h0 : n = 0
    · rw [if_pos h0, h0]
      rfl
    · obtain ⟨attr, hplace⟩ := flatAt_place h (Nat.pos_of_ne_zero h0)
      have hk : min n (8 - va % 8) ≤ n := Nat.min_le_left ..
      have hpos : 0 < min n (8 - va % 8) := by omega
      rw [if_neg h0, hplace]
      simp only [readPlace, ih (flatAt_drop h hk) (by omega), memBytes_append, Nat.add_sub_cancel' hk]

theorem readVa_of_flat {s : State} {lease : List Extent} {e : Extent} {va n pa : Nat} (hc : covered lease va n .r = .ok e)
    (hf : FlatAt e va n pa) (hb : badIn s e va n = none) : readVa s lease va n = (.ok (memBytes s.mem pa n), s) := by
  simp only [readVa, hc, hb, readRange_of_flat s hf (Nat.lt_succ_self n)]

/-- R421: outside the windows of other devices, errors are found by address alone. -/
theorem badIn_congr {s t : State} {e : Extent} (hp : e.peer = none) (hbad : t.err.bad = s.err.bad) (va n : Nat) :
    badIn t e va n = badIn s e va n := by
  have hat : t.badAt = s.badAt := by
    funext pa n
    rw [State.badAt, State.badAt, hbad]
  simp only [badIn, hp, hat]

/-- The same bytes are read in a state with the same memory and the same errors. -/
theorem readVa_of_flat_congr {s t : State} {lease : List Extent} {e : Extent} {va n pa : Nat} (hn : 0 < n)
    (hc : covered lease va n .r = .ok e) (hf : FlatAt e va n pa) (hb : badIn s e va n = none) (hmem : t.mem = s.mem)
    (hbad : t.err.bad = s.err.bad) : readVa t lease va n = (.ok (memBytes s.mem pa n), t) := by
  obtain ⟨attr, hplace⟩ := flatAt_place hf hn
  rw [← hmem]
  exact readVa_of_flat hc hf ((badIn_congr (Extent.peer_of_place_phys hplace) hbad va n).trans hb)

theorem mapAcc_of_ok {α ε : Type} {l : List Nat} {f : Nat → State → Except ε α × State} {g : Nat → α} {s : State}
    (h : ∀ i ∈ l, f i s = (.ok (g i), s)) : mapAcc l f s = (.ok (l.map g), s) := by
  induction l with
  | nil => rfl
  | cons i l ih =>
    obtain ⟨hi, hl⟩ := List.forall_mem_cons.mp h
    rw [mapAcc, hi]
    simp only [ih hl, List.map_cons]

end Sys2Proof.Machine
end

section
/-! PROOFS. Ports (R212 to R215, R299 to R301, R403): one lemma for each event and message; settles O52. -/

namespace Sys2Proof.Machine
open Sys2Proof.Machine.Claims

@[simp] theorem State.modRun_err (s : State) (h : W64) (f : Run → Run) : (s.modRun h f).err = s.err := by
  unfold State.modRun; repeat' split
  all_goals rfl

@[simp] theorem State.putPort_err (s : State) (h : W64) (k : Nat) (p : Port) : (s.putPort h k p).err = s.err :=
  State.modRun_err ..

theorem withPort_of_portAt {p : PortRef} {s : State} {r : Run} {q : Port} (h : PortAt s p r q)
    (f : Run → Port → State → State) : withPort p s f = .next (f r q s) := by
  obtain ⟨hlive, rfl, hstarted⟩ := h
  simp [withPort, hlive, hstarted]

/-- R215: a reading port has mode 1, an affine generator, and has not been stopped. -/
theorem Port.reads_iff {q : Port} : q.reads = true ↔ q.mode = 1 ∧ q.gen.isIndirect = false ∧ q.stopped = false := by
  simp [Port.reads, and_assoc]

/-! ## Run-ahead (R214) -/

theorem reqUpTo_of_ok {r : Run} {q : Port} {n j : Nat}
    (h : ∀ i, j ≤ i → i < j + n → ∃ va, r.portVa q (r.affineOff q i) .r = .ok va) : reqUpTo r q n j = (j + n, none) := by
  induction n generalizing j with
  | zero => rfl
  | succ n ih =>
    obtain ⟨va, hva⟩ := h j le_rfl (by omega)
    rw [reqUpTo, hva]
    exact (ih fun i hi hlt => h i (by omega) (by omega)).trans (by rw [Nat.add_right_comm]; rfl)

theorem State.runAhead_of_ok (s : State) (p : PortRef) {r : Run} {q : Port} {stop : Nat}
    (hmin : min q.gen.total (r.windowEnd p.port q) = stop) (hstop : q.stopAt = none) (howed : q.owed = []) (hle : q.req ≤ stop)
    (hva : ∀ j, q.req ≤ j → j < stop → ∃ va, r.portVa q (r.affineOff q j) .r = .ok va) :
    s.runAhead p.task p.port r q =
      (((List.range (stop - q.req)).map fun i => q.req + i).foldl (fun u j => u.pushNew (.portElementLanded p j .none))
        (s.putPort p.task p.port { q with req := stop })).pushNew (.portEmit p) := by
  have hreq : reqUpTo r q (stop - q.req) q.req = (stop, none) := by
    rw [reqUpTo_of_ok fun i hi hlt => hva i hi (by omega), Nat.add_sub_cancel' hle]
  simp only [State.runAhead, hmin, hstop, howed, Option.isSome_none, Bool.false_eq_true, if_false, hreq, max_eq_right hle,
    List.flatMap_nil, List.filter_nil, List.nil_append]

/-! ## Landing (R215, R417, R418) -/

/-- R215: what PORT_ELEMENT_LANDED does with an element that is granted and free of errors; `t` is the state once a corrected
error has been logged. -/
theorem readVa_of_elementAt {s t : State} {r : Run} {q : Port} {j pa : Nat} (h : ElementAt s r q j pa)
    (hc : 0 < contBytes (tidFmt q.tid)) (hmem : t.mem = s.mem) (hbad : t.err.bad = s.err.bad) :
    ∃ va, r.portVa q (r.affineOff q j) .r = .ok va ∧
      readVa t r.lease va (contBytes (tidFmt q.tid)) = (.ok (memBytes s.mem pa (contBytes (tidFmt q.tid))), t) := by
  obtain ⟨va, y, hva, hcov, hflat, hnone⟩ := h
  exact ⟨va, hva, readVa_of_flat_congr hc hcov hflat hnone hmem hbad⟩

/-! ## Emission (R215, R299) -/

/-- R215, R299: a record is known by its tag, and by its containers or its absent mark. -/
theorem eq_laneRec {q : Port} {k n : Nat} {x : Rec} (htag : x.tag = BitVec.ofNat 16 (n * q.per))
    (hhere : ∀ cs, q.recordAt (n * q.per) = some cs → x.flds = packConts (tidFmt q.tid) cs ∧ x.absent = none)
    (hgone : q.recordAt (n * q.per) = none → x.absent = some (k, n * q.per) ∧
      x.flds = (packConts (tidFmt q.tid) (List.replicate q.per 0)).map fun _ => 0#32) : x = q.laneRec k n := by
  obtain ⟨flds, tag, absent⟩ := x
  unfold Port.laneRec
  simp only at htag hhere hgone ⊢
  cases hr : q.recordAt (n * q.per) with
  | none =>
    obtain ⟨rfl, rfl⟩ := hgone hr
    rw [htag]
    rfl
  | some cs =>
    obtain ⟨rfl, rfl⟩ := hhere cs hr
    rw [htag]
    rfl

/-- Whether a landed element is kept: it lies from the next record on, or a record that left absent waits for it. -/
def Port.keeps (q : Port) (next : Nat) (owed : List Nat) (j : Nat) : Bool :=
  decide (next * q.per ≤ j) || owed.any fun o => decide (o ≤ j ∧ j < o + q.per)

/-- The port once lanes have left. -/
def Port.sent (q : Port) (lanes : List Rec) : Port :=
  let owed := q.owed ++ lanes.filterMap fun x => x.absent.map (·.2)
  { q with next := q.next + lanes.length, owed := owed, landed := q.landed.filter fun e => q.keeps (q.next + lanes.length) owed e.1 }

theorem State.emitAffine_of_lanes (s : State) (p : PortRef) (r : Run) {q : Port} (hstop : q.stopAt = none)
    (hlt : q.next < (q.gen.total + q.per - 1) / q.per) {lanes : List Rec}
    (hlen : lanes.length = Nat.min 16 ((q.gen.total + q.per - 1) / q.per - q.next))
    (hlanes : lanes = (List.range lanes.length).map fun l => q.laneRec p.port (q.next + l)) :
    s.emitAffine p.task p.port r q = (s.portSend p.task p.port r (q.sent lanes) lanes).pushNew (.portRunAhead p) := by
  have hn : min 16 ((q.gen.total + q.per - 1) / q.per - q.next) = lanes.length := hlen.symm
  have hpos : lanes.length ≠ 0 := by omega
  unfold State.emitAffine
  simp only [if_neg (Nat.not_le.mpr hlt), hstop, hn, if_neg hpos, ← hlanes, Port.sent, Port.keeps]

/-! ## Index records (R301) -/

theorem answerLane_of_none {r : Run} {q : Port} {b : Bundle} {j : Nat} (s : State) (h : (b.lanes[j]?).join = none) :
    answerLane r q b j s = (.ok none, s) := by
  simp only [answerLane, h]

theorem answerLane_of_some {r : Run} {q : Port} {b : Bundle} {l : Nat} {x : Rec} {s : State} {cs : Nat → Nat}
    (h : (b.lanes[l]?).join = some x) (habsent : x.absent = none)
    (hcs : ∀ i, i < q.per → answerCont r q (x.flds.getD 0 0#32) i s = (.ok (cs i), s)) :
    answerLane r q b l s = (.ok (some { x with
      flds := (packConts (tidFmt q.tid) ((List.range q.per).map cs) ++ x.flds.drop 1).take 8 }), s) := by
  have hmap := mapAcc_of_ok (f := answerCont r q (fieldOf (some x) 0)) (g := cs) (s := s) fun i hi => hcs i (List.mem_range.mp hi)
  simp only [answerLane, h, habsent, Option.isSome_none, Bool.false_eq_true, if_false, hmap]

/-- R301: an index in one lane alone is answered in that lane. -/
theorem mapAcc_answerLane {r : Run} {q : Port} {b : Bundle} {l : Nat} {s : State} {ans : Rec}
    (hl : answerLane r q b l s = (.ok (some ans), s)) (hother : ∀ j, j < 16 → j ≠ l → (b.lanes[j]?).join = none) :
    mapAcc (List.range 16) (answerLane r q b) s =
      (.ok ((List.range 16).map fun j => if j = l then some ans else none), s) := by
  refine mapAcc_of_ok fun j hj => ?_
  by_cases hjl : j = l
  · rw [if_pos hjl, hjl, hl]
  · rw [if_neg hjl, answerLane_of_none s (hother j (List.mem_range.mp hj) hjl)]

theorem answerCont_of_flat {s t : State} {r : Run} {q : Port} {x : W32} {i va pa : Nat} {y : Extent}
    (hc : 0 < contBytes (tidFmt q.tid)) (hva : r.portVa q (indirectOff q x i) .r = .ok va)
    (hcov : covered r.lease va (contBytes (tidFmt q.tid)) .r = .ok y) (hflat : FlatAt y va (contBytes (tidFmt q.tid)) pa)
    (hnone : badIn s y va (contBytes (tidFmt q.tid)) = none) (hmem : t.mem = s.mem) (hbad : t.err.bad = s.err.bad) :
    answerCont r q x i t = (.ok (leNat (memBytes s.mem pa (contBytes (tidFmt q.tid)))), t) := by
  simp only [answerCont, hva, readVa_of_flat_congr hc hcov hflat hnone hmem hbad]

/-- R301: dusk ends the stream. -/
theorem State.indexStep_dusk (s : State) (h : W64) (k : Nat) (r : Run) {q : Port} (hstopped : q.stopped = false)
    (hdusked : q.dusked = false) : s.indexStep h k r q (.dusk true) = s.portDusk h k r q := by
  simp only [State.indexStep, hstopped, hdusked, Bool.or_self, Bool.false_eq_true, if_false]

theorem State.indexStep_data {s : State} (h : W64) (k : Nat) {r : Run} {q : Port} {b : Bundle} {lanes : List (Option Rec)}
    (hstopped : q.stopped = false) (hdusked : q.dusked = false)
    (hlanes : mapAcc (List.range 16) (answerLane r q b) s = (.ok lanes, s)) :
    s.indexStep h k r q (.data b) = s.toInput h (r.siteOfPort k) 3 (.data { b with lanes := lanes }) := by
  simp only [State.indexStep, hstopped, hdusked, Bool.or_self, Bool.false_eq_true, if_false, hlanes]

/-! ## Records at a writing port (R299, R403) -/

theorem mapM_of_ok {α ε : Type} {l : List Nat} {f : Nat → Except ε α} {g : Nat → α} (h : ∀ i ∈ l, f i = .ok (g i)) :
    l.mapM f = .ok (l.map g) := by
  induction l with
  | nil => rfl
  | cons i l ih =>
    obtain ⟨hi, hl⟩ := List.forall_mem_cons.mp h
    rw [List.mapM_cons, hi, ih hl]
    rfl

/-- R299: the stores of a present record at an affine port. -/
theorem recordStores_of_ok {r : Run} {k : Nat} {q : Port} {x : Rec} {ls : Nat → List RoundStore} (hgen : q.gen.isIndirect = false)
    (habsent : x.absent = none)
    (hls : ∀ i, i < Nat.min q.per (q.gen.total - q.next) → ∃ va, r.portVa q (r.affineOff q (q.next + i)) .w = .ok va ∧
      storesOf r k q.rnd va
        (leBytes (contBytes (tidFmt q.tid)) ((unpackConts (tidFmt q.tid) q.per x.flds).getD i 0)) = .ok (ls i)) :
    recordStores r k q x = .ok ((List.range (Nat.min q.per (q.gen.total - q.next))).flatMap ls,
      q.next + Nat.min q.per (q.gen.total - q.next)) := by
  have hmin : min q.per (q.gen.total - q.next) = Nat.min q.per (q.gen.total - q.next) := rfl
  have hstores : ((List.range (Nat.min q.per (q.gen.total - q.next))).mapM fun i => do
      let va ← r.portVa q (r.affineOff q (q.next + i)) .w
      storesOf r k q.rnd va (leBytes (contBytes (tidFmt q.tid)) ((unpackConts (tidFmt q.tid) q.per x.flds).getD i 0))) =
      .ok ((List.range (Nat.min q.per (q.gen.total - q.next))).map ls) := by
    refine mapM_of_ok fun i hi => ?_
    obtain ⟨va, hva, hst⟩ := hls i (List.mem_range.mp hi)
    rw [hva]
    exact hst
  simp only [recordStores, hgen, habsent, Option.isSome_none, Bool.false_eq_true, if_false, hmin, hstores, List.flatMap_def]

theorem bundleStores_singleton {r : Run} {k l next : Nat} {q : Port} {x : Rec} {st : List RoundStore}
    (h : recordStores r k q x = .ok (st, next)) : bundleStores r k [(l, x)] q = .ok (st, { q with next := next }) := by
  simp only [bundleStores, h, List.append_nil]

/-- R403, R404: a record's stores that fit join those of the round. -/
theorem State.writeStep_data (s : State) (h : W64) {k : Nat} {r : Run} {q q1 : Port} {b : Bundle} {st : List RoundStore}
    (hstopped : q.stopped = false)
    (hst : bundleStores r k (b.lanes.zipIdx.filterMap fun z => z.1.map fun y => (z.2, y)) q = .ok (st, q1))
    (hfits : { r.region with stores := r.region.stores ++ st }.buffered k ≤ 24576) :
    s.writeStep h k r q (.data b) = (s.putPort h k q1).modRun h fun u =>
      { u with region := { u.region with stores := u.region.stores ++ st } } := by
  simp only [State.writeStep, hstopped, Bool.false_eq_true, if_false, hst, if_neg (Nat.not_lt.mpr hfits)]

/-! ## The events of a port -/

section
variable {p : PortRef} {s : State} {r : Run} {q : Port} (hat : PortAt s p r q)
include hat

theorem exec_portRunAhead (hreads : q.reads = true) : exec (.portRunAhead p) s = .next (s.runAhead p.task p.port r q) := by
  change execPortRunAhead p s = _
  rw [execPortRunAhead, withPort_of_portAt hat, if_pos hreads]

/-- R215, R417: an awaited element lands, at once or after a corrected error. -/
theorem exec_portElementLanded {j pa : Nat} {e : MemErr} {t : State} (hreads : q.reads = true) (hawaits : q.awaits j = true)
    (helem : ElementAt s r q j pa) (hc : 0 < contBytes (tidFmt q.tid))
    (he : e = .none ∧ t = s ∨ ∃ x, e = .corrected x ∧ t = s.correctable 0 x) :
    exec (.portElementLanded p j e) s = .next (t.putPort p.task p.port
      { q with landed := q.landed ++ [(j, leNat (memBytes s.mem pa (contBytes (tidFmt q.tid))))] }) := by
  have hsame : t.mem = s.mem ∧ t.err.bad = s.err.bad := by
    rcases he with ⟨-, rfl⟩ | ⟨x, -, rfl⟩
    · exact ⟨rfl, rfl⟩
    · rw [State.correctable_eq]
      exact ⟨rfl, rfl⟩
  obtain ⟨va, hva, hread⟩ := readVa_of_elementAt helem hc hsame.1 hsame.2
  change execPortElementLanded p j e s = _
  rw [execPortElementLanded, withPort_of_portAt hat]
  rcases he with ⟨rfl, rfl⟩ | ⟨x, rfl, rfl⟩ <;>
    simp only [hreads, hawaits, Bool.not_true, Bool.or_self, Bool.false_eq_true, if_false, hva, hread]

/-- R418: an uncorrectable error in an awaited element. -/
theorem exec_portElementLanded_uncorrectable {j : Nat} (pa : Nat) (hreads : q.reads = true) (hawaits : q.awaits j = true) :
    exec (.portElementLanded p j (.uncorrectable pa)) s = .next (s.roundError p.task pa (portInfo p.port (q.laneOf j))) := by
  change execPortElementLanded p j (.uncorrectable pa) s = _
  rw [execPortElementLanded, withPort_of_portAt hat]
  simp only [hreads, hawaits, Bool.not_true, Bool.or_self, Bool.false_eq_true, if_false]

theorem exec_portEmit (hreads : q.reads = true) (hdusked : q.dusked = false) :
    exec (.portEmit p) s = .next (s.emitAffine p.task p.port r q) := by
  obtain ⟨hmode, hgen, hstopped⟩ := Port.reads_iff.mp hreads
  change execPortEmit p s = _
  rw [execPortEmit, withPort_of_portAt hat]
  simp only [hmode, hgen, hstopped, hdusked, Bool.or_self, Bool.false_eq_true, if_false]

theorem exec_portIndexRecord {m : Msg} {ms : List Msg} (hmode : q.mode = 1) (hgen : q.gen.isIndirect = true)
    (hins : q.ins = m :: ms) :
    exec (.portIndexRecord p) s =
      .next (let u := (s.putPort p.task p.port { q with ins := ms }).indexStep p.task p.port r { q with ins := ms } m
        if ms = [] then u else u.pushNew (.portIndexRecord p)) := by
  change execPortIndexRecord p s = _
  rw [execPortIndexRecord, withPort_of_portAt hat]
  simp only [hins, hmode, hgen, and_self, if_true, List.isEmpty_iff]

theorem exec_portRecordWrite {m : Msg} {ms : List Msg} (hmode : q.mode = 2) (hins : q.ins = m :: ms) :
    exec (.portRecordWrite p) s =
      .next (let u := (s.putPort p.task p.port { q with ins := ms }).writeStep p.task p.port r { q with ins := ms } m
        if ms = [] then u else u.pushNew (.portRecordWrite p)) := by
  change execPortRecordWrite p s = _
  rw [execPortRecordWrite, withPort_of_portAt hat]
  simp only [hins, hmode, if_true, List.isEmpty_iff]

end

/-- Settles O52, event by event and message by message. -/
theorem portsStreamIndexAndWriteRecords : Obligations.PortsStreamIndexAndWriteRecords := by
  unfold Obligations.PortsStreamIndexAndWriteRecords
  intro p s r q hat
  refine ⟨?runAhead, ?landed, ?emit, ?index, ?write⟩
  case runAhead =>
    intro hreads hstop howed stop hle hva
    exact ⟨_, exec_portRunAhead hat hreads, s.runAhead_of_ok p rfl hstop howed hle hva⟩
  case landed =>
    intro j pa hreads hawaits
    refine ⟨fun helem hc => ⟨⟨_, ?_, rfl⟩, fun x => ⟨_, ?_, rfl⟩⟩, _,
      exec_portElementLanded_uncorrectable hat pa hreads hawaits, rfl⟩
    · exact exec_portElementLanded hat hreads hawaits helem hc (.inl ⟨rfl, rfl⟩)
    · exact exec_portElementLanded hat hreads hawaits helem hc (.inr ⟨x, rfl, rfl⟩)
  case emit =>
    intro hreads hdusked hstop
    refine ⟨fun hall => ⟨_, exec_portEmit hat hreads hdusked, by rw [State.emitAffine, if_pos hall]; rfl⟩, ?_⟩
    intro hlt lanes hlen hrecs
    have hlanes : lanes = (List.range lanes.length).map fun l => q.laneRec p.port (q.next + l) := by
      refine List.ext_getElem (by simp) fun l hl _ => ?_
      obtain ⟨htag, hhere, hgone⟩ := hrecs l lanes[l] (List.getElem?_eq_getElem hl)
      rw [List.getElem_map, List.getElem_range]
      exact eq_laneRec htag hhere hgone
    refine ⟨_, q.sent lanes, exec_portEmit hat hreads hdusked, rfl, rfl, fun e he hnext => ?_, fun e he => ?_,
      s.emitAffine_of_lanes p r hstop hlt hlen hlanes⟩
    · exact List.mem_filter.mpr ⟨he, Bool.or_eq_true_iff.mpr (.inl (decide_eq_true hnext))⟩
    · exact List.mem_of_mem_filter he
  case index =>
    intro hmode hgen hstopped hdusked
    refine ⟨fun ms hins => ⟨_, exec_portIndexRecord hat hmode hgen hins, ?_⟩, ?_⟩
    · rw [State.indexStep_dusk (q := { q with ins := ms }) _ p.task p.port r hstopped hdusked]
      rfl
    · intro b ms l x va hins hl hx habsent hother hc hva
      refine ⟨_, exec_portIndexRecord hat hmode hgen hins, ?_⟩
      have hans := answerLane_of_some (s := s.putPort p.task p.port { q with ins := ms }) (q := { q with ins := ms })
        (cs := fun i => leNat (memBytes s.mem (va i).2 (contBytes (tidFmt q.tid)))) hx habsent fun i hi => by
          obtain ⟨y, hport, hcov, hflat, hnone⟩ := hva i hi
          exact answerCont_of_flat hc hport hcov hflat hnone (by simp) (by simp)
      rw [State.indexStep_data (q := { q with ins := ms }) p.task p.port hstopped hdusked (mapAcc_answerLane hans hother)]
      rfl
  case write =>
    intro hmode ms
    refine ⟨fun n hins => ⟨_, exec_portRecordWrite hat hmode hins, rfl⟩,
      fun hins => ⟨_, exec_portRecordWrite hat hmode hins, rfl⟩, ?_⟩
    intro b l x ls hins hstopped hgen hlanes habsent n hls hfits
    refine ⟨_, exec_portRecordWrite hat hmode hins, ?_⟩
    have hst := recordStores_of_ok (q := { q with ins := ms }) hgen habsent hls
    have hbundle := bundleStores_singleton (l := l) hst
    rw [← hlanes] at hbundle
    rw [State.writeStep_data (q := { q with ins := ms }) _ p.task hstopped hbundle hfits]
    rfl

end Sys2Proof.Machine
end

section
/-! PROOFS. Arithmetic of the control core: the values of R89 to R95, which the model computes on words, over the integers. -/

namespace Sys2Proof.Machine
open Sys2Proof.Machine.Claims

/-! ## Words and the numbers they keep (R89) -/

@[simp] theorem keepI_toInt (x : W64) : keepI x.toInt = x := BitVec.ofInt_toInt

@[simp] theorem keepN_toNat (x : W64) : keepN x.toNat = x := by simp [keepN]

theorem toNat_keepN (n : Nat) : (keepN n).toNat = n % 2 ^ 64 := BitVec.toNat_ofNat ..

theorem keepI_add (v w : Int) : keepI (v + w) = keepI v + keepI w := BitVec.ofInt_add ..

theorem keepI_mul (v w : Int) : keepI (v * w) = keepI v * keepI w := BitVec.ofInt_mul ..

theorem keepI_natCast (n : Nat) : keepI n = keepN n := BitVec.ofInt_natCast ..

/-- A word that is the number n. -/
theorem eq_keepN {x : W64} {n : Nat} (h : x.toNat = n) : x = keepN n := by rw [← h, keepN_toNat]

/-! ## Integer group (R90, R91) -/

theorem add_eq_keepI (x y : W64) : x + y = keepI (x.toInt + y.toInt) := by simp [keepI_add]

theorem sub_eq_keepI (x y : W64) : x - y = keepI (x.toInt - y.toInt) := by
  rw [← keepI_toInt (x - y), BitVec.toInt_sub]
  exact BitVec.eq_of_toInt_eq (by simp [keepI])

theorem mul_eq_keepI (x y : W64) : x * y = keepI (x.toInt * y.toInt) := by simp [keepI_mul]

theorem shiftLeft_eq_keepN (x : W64) (n : Nat) : x <<< n = keepN (x.toNat * 2 ^ n) := by
  apply BitVec.eq_of_toNat_eq
  rw [BitVec.toNat_shiftLeft, Nat.shiftLeft_eq, toNat_keepN]

theorem ushiftRight_eq_keepN (x : W64) (n : Nat) : x >>> n = keepN (x.toNat / 2 ^ n) :=
  eq_keepN (by rw [BitVec.toNat_ushiftRight, Nat.shiftRight_eq_div_pow])

theorem sshiftRight_eq_keepI (x : W64) (n : Nat) : x.sshiftRight n = keepI (x.toInt / 2 ^ n) := by
  rw [BitVec.sshiftRight_eq, Int.shiftRight_eq_div_pow]
  norm_cast

theorem flagWord_ltS (x y : W64) : flagWord (ltS x y) = if x.toInt < y.toInt then 1#64 else 0#64 := by
  simp [flagWord, ltS]

theorem flagWord_ltU (x y : W64) : flagWord (ltU x y) = if x.toNat < y.toNat then 1#64 else 0#64 := by
  simp [flagWord, ltU]

theorem minS_eq_keepI (x y : W64) : (if ltS x y then x else y) = keepI (min x.toInt y.toInt) := by
  by_cases h : x.toInt < y.toInt
  · simp [ltS, h, min_eq_left h.le]
  · simp [ltS, h, min_eq_right (not_lt.mp h)]

theorem maxS_eq_keepI (x y : W64) : (if ltS x y then y else x) = keepI (max x.toInt y.toInt) := by
  by_cases h : x.toInt < y.toInt
  · simp [ltS, h, max_eq_right h.le]
  · simp [ltS, h, max_eq_left (not_lt.mp h)]

theorem minU_eq_keepN (x y : W64) : (if ltU x y then x else y) = keepN (min x.toNat y.toNat) := by
  by_cases h : x.toNat < y.toNat
  · simp [ltU, h, min_eq_left h.le]
  · simp [ltU, h, min_eq_right (not_lt.mp h)]

theorem maxU_eq_keepN (x y : W64) : (if ltU x y then y else x) = keepN (max x.toNat y.toNat) := by
  by_cases h : x.toNat < y.toNat
  · simp [ltU, h, max_eq_right h.le]
  · simp [ltU, h, max_eq_left (not_lt.mp h)]

theorem sext64_eq_keepI {n : Nat} (i : BitVec n) : sext64 i = keepI i.toInt := rfl

theorem toInt_sext64 {n : Nat} (h : n ≤ 64) (i : BitVec n) : (sext64 i).toInt = i.toInt := BitVec.toInt_signExtend_of_le h

theorem add_sext64_eq_keepI (x : W64) (i : BitVec 15) : x + sext64 i = keepI (x.toInt + i.toInt) := by
  rw [add_eq_keepI, toInt_sext64 (by decide)]

theorem flagWord_ltS_sext64 (x : W64) (i : BitVec 15) :
    flagWord (ltS x (sext64 i)) = if x.toInt < i.toInt then 1#64 else 0#64 := by
  rw [flagWord_ltS, toInt_sext64 (by decide)]

/-! ## Multiply and divide group (R92) -/

/-- Bits [127:64] of a number kept modulo 2^128. -/
theorem extractLsb'_ofInt (v : Int) : (BitVec.ofInt 128 v).extractLsb' 64 64 = keepI (v / 2 ^ 64) := by
  apply BitVec.eq_of_toNat_eq
  rw [BitVec.extractLsb'_toNat, Nat.shiftRight_eq_div_pow, keepI, BitVec.toNat_ofInt, BitVec.toNat_ofInt]
  omega

theorem mulHighS_eq_keepI (x y : W64) : mulHighS x y = keepI (x.toInt * y.toInt / 2 ^ 64) := by
  rw [← extractLsb'_ofInt, BitVec.ofInt_mul]
  rfl

theorem mulHighU_eq_keepN (x y : W64) : mulHighU x y = keepN (x.toNat * y.toNat / 2 ^ 64) := by
  have hprod : (x.setWidth 128) * (y.setWidth 128) = BitVec.ofInt 128 (x.toNat * y.toNat : Nat) := by
    rw [BitVec.ofInt_natCast, BitVec.ofNat_mul, BitVec.ofNat_toNat, BitVec.ofNat_toNat]
  rw [mulHighU, hprod, extractLsb'_ofInt, ← keepI_natCast]
  norm_cast

theorem divS_eq_quotS (x y : W64) : divS x y = quotS x y := by
  have hdiv : x.sdiv y = keepI (x.toInt.tdiv y.toInt) :=
    BitVec.eq_of_toInt_eq (by rw [BitVec.toInt_sdiv, keepI, BitVec.toInt_ofInt])
  rw [divS, quotS, hdiv]

theorem divU_eq_quotU (x y : W64) : divU x y = quotU x y := by
  rw [divU, quotU, eq_keepN (x := x.udiv y) BitVec.toNat_udiv]

theorem remS_eq_remainS (x y : W64) : remS x y = remainS x y := by
  rw [remS, remainS, ← BitVec.toInt_srem, keepI_toInt]

theorem remU_eq_remainU (x y : W64) : remU x y = remainU x y := by
  rw [remU, remainU, eq_keepN (x := x.umod y) BitVec.toNat_umod]

/-! ## Bit counts (R93) -/

theorem leadZeros_spec (x : W64) (n : Nat) :
    leadZeros x n ≤ n ∧ (∀ i, i < leadZeros x n → x.getLsbD (n - 1 - i) = false) ∧
      (leadZeros x n < n → x.getLsbD (n - 1 - leadZeros x n) = true) := by
  induction n with
  | zero => simp [leadZeros]
  | succ n ih =>
    obtain ⟨hle, hzero, hone⟩ := ih
    cases hx : x.getLsbD n with
    | true => simp [leadZeros, hx]
    | false =>
      have hstep : leadZeros x (n + 1) = leadZeros x n + 1 := by simp [leadZeros, hx]
      rw [hstep]
      refine ⟨by omega, fun i hi => ?_, fun hlt => ?_⟩
      · cases i with
        | zero => exact hx
        | succ i => rw [← hzero i (by omega)]; congr 1; omega
      · rw [← hone (by omega)]; congr 1; omega

theorem isLeading_leadZeros (x : W64) : IsLeading x (leadZeros x 64) := by
  obtain ⟨hle, hzero, hone⟩ := leadZeros_spec x 64
  refine ⟨hle, fun i hi => ?_, fun hlt => ?_⟩
  · rw [BitVec.getMsbD_eq_getLsbD, hzero i hi, Bool.and_false]
  · rw [BitVec.getMsbD_eq_getLsbD, hone hlt, decide_eq_true hlt, Bool.and_true]

theorem trailZeros_spec (x : W64) (i n : Nat) :
    trailZeros x i n ≤ n ∧ (∀ j, j < trailZeros x i n → x.getLsbD (i + j) = false) ∧
      (trailZeros x i n < n → x.getLsbD (i + trailZeros x i n) = true) := by
  induction n generalizing i with
  | zero => simp [trailZeros]
  | succ n ih =>
    obtain ⟨hle, hzero, hone⟩ := ih (i + 1)
    cases hx : x.getLsbD i with
    | true => simp [trailZeros, hx]
    | false =>
      have hstep : trailZeros x i (n + 1) = trailZeros x (i + 1) n + 1 := by simp [trailZeros, hx]
      rw [hstep]
      refine ⟨by omega, fun j hj => ?_, fun hlt => ?_⟩
      · cases j with
        | zero => exact hx
        | succ j => rw [← hzero j (by omega)]; congr 1; omega
      · rw [← hone (by omega)]; congr 1; omega

theorem isTrailing_trailZeros (x : W64) : IsTrailing x (trailZeros x 0 64) := by
  simpa [IsTrailing] using trailZeros_spec x 0 64

theorem onesCount_eq_length (x : W64) (n : Nat) : onesCount x n = ((List.range n).filter fun i => x.getLsbD i).length := by
  induction n with
  | zero => rfl
  | succ n ih => cases hx : x.getLsbD n <;> simp [onesCount, List.range_succ, hx, ih]

theorem isOnes_onesCount (x : W64) : IsOnes x (onesCount x 64) := onesCount_eq_length x 64

/-! ## Extensions and fields (R93, R94) -/

theorem sextSize_eq_signExtend {z : BitVec 2} (hz : z.toNat ≤ 2) (x : W64) :
    sextSize z x = (x.setWidth (extBits z)).signExtend 64 := by
  unfold sextSize extBits
  generalize z.toNat = n at hz
  match n, hz with
  | 0, _ | 1, _ | 2, _ => rfl

theorem zextSize_eq_setWidth {z : BitVec 2} (hz : z.toNat ≤ 2) (x : W64) :
    zextSize z x = (x.setWidth (extBits z)).setWidth 64 := by
  unfold zextSize extBits
  generalize z.toNat = n at hz
  match n, hz with
  | 0, _ | 1, _ | 2, _ => rfl

theorem sextSize_eq_keepI {z : BitVec 2} (hz : z.toNat ≤ 2) (x : W64) :
    sextSize z x = keepI ((x.toNat : Int).bmod (2 ^ extBits z)) := by
  rw [sextSize_eq_signExtend hz, ← BitVec.toInt_setWidth]
  rfl

theorem zextSize_eq_keepN {z : BitVec 2} (hz : z.toNat ≤ 2) (x : W64) :
    zextSize z x = keepN (x.toNat % 2 ^ extBits z) := by
  rw [zextSize_eq_setWidth hz, ← BitVec.toNat_setWidth, keepN, BitVec.ofNat_toNat]

theorem toNat_fieldMask {n : Nat} (h : n ≤ 64) : (fieldMask n).toNat = 2 ^ n - 1 := by
  have : 2 ^ n ≤ 2 ^ 64 := Nat.pow_le_pow_right (by decide) h
  rw [fieldMask, BitVec.toNat_ofNat, Nat.mod_eq_of_lt (by omega)]

theorem getLsbD_fieldMask {n : Nat} (h : n ≤ 64) (j : Nat) : (fieldMask n).getLsbD j = decide (j < n) := by
  rw [BitVec.getLsbD, toNat_fieldMask h, Nat.testBit_two_pow_sub_one]

theorem bfxVal_eq_keepN (w p : BitVec 6) (x : W64) :
    bfxVal w p x = keepN (x.toNat / 2 ^ p.toNat % 2 ^ (w.toNat + 1)) := by
  apply eq_keepN
  rw [bfxVal, BitVec.toNat_and, toNat_fieldMask (by omega), Nat.and_two_pow_sub_one_eq_mod, BitVec.toNat_ushiftRight,
    Nat.shiftRight_eq_div_pow]

theorem getLsbD_bfiVal (w p : BitVec 6) (old x : W64) {j : Nat} (hj : j < 64) :
    (bfiVal w p old x).getLsbD j =
      if p.toNat ≤ j ∧ j ≤ p.toNat + w.toNat then x.getLsbD (j - p.toNat) else old.getLsbD j := by
  have hmask : (fieldMask (w.toNat + 1) <<< p.toNat).getLsbD j = decide (p.toNat ≤ j ∧ j ≤ p.toNat + w.toNat) := by
    rw [BitVec.getLsbD_shiftLeft, getLsbD_fieldMask (by omega)]
    simp only [hj, decide_true, Bool.true_and, ← Bool.decide_and, ← decide_not]
    congr 1
    rw [eq_iff_iff]
    omega
  simp only [bfiVal, BitVec.getLsbD_or, BitVec.getLsbD_and, BitVec.getLsbD_not, BitVec.getLsbD_shiftLeft (x := x), hmask, hj,
    decide_true, Bool.true_and]
  by_cases hin : p.toNat ≤ j ∧ j ≤ p.toNat + w.toNat
  · simp [hin, Nat.not_lt.mpr hin.1]
  · simp [hin]

/-! ## Constants (R95) -/

theorem upper_eq_keepI (i : BitVec 21) : upper i = keepI (i.toInt * 2 ^ 15) := by
  have htwo : BitVec.twoPow 64 15 = keepI (2 ^ 15) := by decide
  rw [upper, BitVec.shiftLeft_eq_mul_twoPow, htwo, sext64_eq_keepI, ← keepI_mul]

theorem add_upper_eq_keepI (x : W64) (i : BitVec 21) : x + upper i = keepI (x.toNat + i.toInt * 2 ^ 15) := by
  rw [upper_eq_keepI, keepI_add, keepI_natCast, keepN_toNat]

end Sys2Proof.Machine
end

section
/-! PROOFS. Arithmetic of the control core: every instruction of a family runs one of the shapes of the operand laws with the value
its rule states, so each shape is followed once; settles O1 to O4 and O6. -/

namespace Sys2Proof.Machine
open Sys2Proof.Machine.Claims

/-! ## What the instructions compute (R89 to R95) -/

/-- An instruction with two sources that writes f of them into rd. -/
def RunsRegReg (mk : Reg → Reg → Reg → Bool → Bool → Instr) (f : W64 → W64 → W64) : Prop :=
  ∀ d a b ta tb s, exec (mk d a b ta tb) s = regReg f d a b ta tb s

/-- An instruction with one source that writes f of it into rd. -/
def RunsRegOne (mk : Reg → Reg → Bool → Instr) (f : W64 → W64) : Prop :=
  ∀ d a ta s, exec (mk d a ta) s = regOne f d a ta s

theorem RunsRegReg.of_values {mk : Reg → Reg → Reg → Bool → Bool → Instr} {f g : W64 → W64 → W64} (h : ∀ x y, f x y = g x y)
    (hf : RunsRegReg mk f) : RunsRegReg mk g :=
  (funext fun x => funext (h x) : f = g) ▸ hf

theorem RunsRegOne.of_values {mk : Reg → Reg → Bool → Instr} {f g : W64 → W64} (h : ∀ x, f x = g x) (hf : RunsRegOne mk f) :
    RunsRegOne mk g :=
  (funext h : f = g) ▸ hf

/-- R90, R92: the instructions with two sources, in the order of the table: what the model computes is the stated value, and the
arm of `exec` is the shape. -/
theorem runsRegReg_of_mem_twoSource : ∀ p ∈ twoSource, RunsRegReg p.1 p.2 := by
  simp only [twoSource, List.forall_mem_cons]
  exact ⟨.of_values add_eq_keepI fun _ _ _ _ _ _ => rfl,
    .of_values sub_eq_keepI fun _ _ _ _ _ _ => rfl,
    .of_values (fun _ _ => rfl) fun _ _ _ _ _ _ => rfl,
    .of_values (fun _ _ => rfl) fun _ _ _ _ _ _ => rfl,
    .of_values (fun _ _ => rfl) fun _ _ _ _ _ _ => rfl,
    .of_values (fun x y => shiftLeft_eq_keepN x (y.toNat % 64)) fun _ _ _ _ _ _ => rfl,
    .of_values (fun x y => ushiftRight_eq_keepN x (y.toNat % 64)) fun _ _ _ _ _ _ => rfl,
    .of_values (fun x y => sshiftRight_eq_keepI x (y.toNat % 64)) fun _ _ _ _ _ _ => rfl,
    .of_values flagWord_ltS fun _ _ _ _ _ _ => rfl,
    .of_values flagWord_ltU fun _ _ _ _ _ _ => rfl,
    .of_values minS_eq_keepI fun _ _ _ _ _ _ => rfl,
    .of_values maxS_eq_keepI fun _ _ _ _ _ _ => rfl,
    .of_values minU_eq_keepN fun _ _ _ _ _ _ => rfl,
    .of_values maxU_eq_keepN fun _ _ _ _ _ _ => rfl,
    .of_values mul_eq_keepI fun _ _ _ _ _ _ => rfl,
    .of_values mulHighS_eq_keepI fun _ _ _ _ _ _ => rfl,
    .of_values mulHighU_eq_keepN fun _ _ _ _ _ _ => rfl,
    .of_values divS_eq_quotS fun _ _ _ _ _ _ => rfl,
    .of_values divU_eq_quotU fun _ _ _ _ _ _ => rfl,
    .of_values remS_eq_remainS fun _ _ _ _ _ _ => rfl,
    .of_values remU_eq_remainU fun _ _ _ _ _ _ => rfl, nofun⟩

/-- R91: the immediate operations, in the order of the table. -/
theorem runsRegOne_of_mem_oneImmediate :
    ∀ p ∈ oneImmediate, ∀ i, RunsRegOne (fun d a ta => p.1 d a ta i) fun x => p.2 x i := by
  simp only [oneImmediate, List.forall_mem_cons]
  exact ⟨fun i => .of_values (fun x => add_sext64_eq_keepI x i) fun _ _ _ _ => rfl,
    fun i => .of_values (fun _ => rfl) fun _ _ _ _ => rfl,
    fun i => .of_values (fun _ => rfl) fun _ _ _ _ => rfl,
    fun i => .of_values (fun _ => rfl) fun _ _ _ _ => rfl,
    fun i => .of_values (fun x => flagWord_ltS_sext64 x i) fun _ _ _ _ => rfl,
    fun i => .of_values (fun x => flagWord_ltU x (sext64 i)) fun _ _ _ _ => rfl, nofun⟩

/-- R91: the shifts by an immediate, in the order of the table. -/
theorem runsRegOne_of_mem_oneShift :
    ∀ p ∈ oneShift, ∀ h, RunsRegOne (fun d a ta => p.1 d a ta h) fun x => p.2 x h := by
  simp only [oneShift, List.forall_mem_cons]
  exact ⟨fun h => .of_values (fun x => shiftLeft_eq_keepN x h.toNat) fun _ _ _ _ => rfl,
    fun h => .of_values (fun x => ushiftRight_eq_keepN x h.toNat) fun _ _ _ _ => rfl,
    fun h => .of_values (fun x => sshiftRight_eq_keepI x h.toNat) fun _ _ _ _ => rfl, nofun⟩

/-- R93, R94: an instruction of one source computes a value that passes the test of its rule. -/
theorem exec_of_oneSource {d a : Reg} {ta : Bool} {i : Instr} {ok : W64 → W64 → Prop} (h : OneSource d a ta i ok) :
    ∃ f : W64 → W64, (∀ s, exec i s = regOne f d a ta s) ∧ ∀ x, ok x (f x) := by
  cases h with
  | clz => exact ⟨_, fun _ => rfl, fun x => ⟨_, isLeading_leadZeros x, rfl⟩⟩
  | ctz => exact ⟨_, fun _ => rfl, fun x => ⟨_, isTrailing_trailZeros x, rfl⟩⟩
  | popc => exact ⟨_, fun _ => rfl, fun x => ⟨_, isOnes_onesCount x, rfl⟩⟩
  | sext z hz => exact ⟨_, fun _ => rfl, sextSize_eq_keepI hz⟩
  | zext z hz => exact ⟨_, fun _ => rfl, zextSize_eq_keepN hz⟩
  | bfx w p _ => exact ⟨_, fun _ => rfl, bfxVal_eq_keepN w p⟩

/-! ## Full sources and a free destination -/

/-- What writing rd and going on does, all of it. -/
theorem writes_setReg_retire (d : Reg) (v : W64) (s : State) : Writes s (s.setReg d v).retire d v :=
  writes_finish goesOn_retire_self d v s

theorem regReg_writes (f : W64 → W64 → W64) {d a b : Reg} (ta tb : Bool) {s : State} (hsrc : Ready s [a, b]) (hd : Free s d) :
    ∃ t, regReg f d a b ta tb s = .next t ∧ Writes s t d (f (s.reg a) (s.reg b)) :=
  ⟨_, regReg_ready f ta tb (hsrc a (by simp)) (hsrc b (by simp)) hd, writes_setReg_retire ..⟩

theorem regOne_writes (f : W64 → W64) {d a : Reg} (ta : Bool) {s : State} (hsrc : Ready s [a]) (hd : Free s d) :
    ∃ t, regOne f d a ta s = .next t ∧ Writes s t d (f (s.reg a)) :=
  ⟨_, regOne_ready f ta (hsrc a (by simp)) hd, writes_setReg_retire ..⟩

theorem exec_bfi {d a : Reg} (ta : Bool) (w p : BitVec 6) {s : State} (hsrc : Ready s [a, d]) :
    exec (.bfi d a ta w p) s = .next (s.setReg d (bfiVal w p (s.reg d) (s.reg a))).retire := by
  show execBfi d a ta w p s = _
  rw [execBfi, withSrcs_ready (by simpa [Ready] using hsrc)]
  rfl

theorem exec_lih {d : Reg} (i : BitVec 21) {s : State} (hd : Free s d) :
    exec (.lih d i) s = .next (s.setReg d (keepI (i.toInt * 2 ^ 15))).retire := by
  rw [← upper_eq_keepI]
  exact regConst_ready (fun _ => upper i) hd

theorem exec_addpc {d : Reg} (i : BitVec 21) {s : State} (hd : Free s d) :
    exec (.addpc d i) s = .next (s.setReg d (keepI (s.cc.pc.toNat + i.toInt * 2 ^ 15))).retire := by
  rw [← add_upper_eq_keepI]
  exact regConst_ready (fun s => s.cc.pc + upper i) hd

theorem exec_full {d : Reg} (a : Reg) {s : State} (hd : Free s d) :
    exec (.full d a) s = .next (s.setReg d (if s.cc.full a then 1#64 else 0#64)).retire :=
  withDest_ready hd _

/-- Settles O1: each instruction is the shape of two sources with its stated value. -/
theorem twoSourceArithmeticWritesItsResult : Obligations.TwoSourceArithmeticWritesItsResult := by
  unfold Obligations.TwoSourceArithmeticWritesItsResult
  intro p hp d a b ta tb s hsrc hd
  rw [runsRegReg_of_mem_twoSource p hp]
  exact regReg_writes p.2 ta tb hsrc hd

/-- Settles O2: each instruction is the shape of one source with its stated value. -/
theorem immediateArithmeticWritesItsResult : Obligations.ImmediateArithmeticWritesItsResult := by
  unfold Obligations.ImmediateArithmeticWritesItsResult
  refine ⟨fun p hp d a ta i s hsrc hd => ?immediate, fun p hp d a ta h s hsrc hd => ?shift⟩
  case immediate =>
    rw [runsRegOne_of_mem_oneImmediate p hp i d a ta s]
    exact regOne_writes (fun x => p.2 x i) ta hsrc hd
  case shift =>
    rw [runsRegOne_of_mem_oneShift p hp h d a ta s]
    exact regOne_writes (fun x => p.2 x h) ta hsrc hd

/-- Settles O3: each instruction is the shape of one source with a value that passes its test. -/
theorem oneSourceArithmeticWritesItsResult : Obligations.OneSourceArithmeticWritesItsResult := by
  unfold Obligations.OneSourceArithmeticWritesItsResult
  intro d a ta i ok hi s hsrc hd
  obtain ⟨f, hexec, hok⟩ := exec_of_oneSource hi
  obtain ⟨t, ht, hw⟩ := regOne_writes f ta hsrc hd
  exact ⟨t, _, (hexec s).trans ht, hok _, hw⟩

/-- Settles O4: the four instructions one by one. -/
theorem fieldsConstantsAndFullWriteTheirResult : Obligations.FieldsConstantsAndFullWriteTheirResult := by
  unfold Obligations.FieldsConstantsAndFullWriteTheirResult
  refine fun s => ⟨fun d a ta w p _ hsrc => ?bfi, fun d i hd => ⟨?lih, ?addpc⟩, fun d a hd => ?full⟩
  case bfi => exact ⟨_, _, exec_bfi ta w p hsrc, writes_setReg_retire .., fun j hj => getLsbD_bfiVal w p _ _ hj⟩
  case lih => exact ⟨_, exec_lih i hd, writes_setReg_retire ..⟩
  case addpc => exact ⟨_, exec_addpc i hd, writes_setReg_retire ..⟩
  case full => exact ⟨_, exec_full a hd, writes_setReg_retire ..⟩

/-! ## Empty sources and awaited destinations (R83, R84, R86) -/

theorem Run.not_full_of_awaited {r : Run} {k : Reg} (h : r.awaited k = true) : r.full k = false := by
  simp only [Run.awaited, Bool.and_eq_true, Bool.not_eq_true'] at h
  exact h.1

theorem Run.not_orphan_of_awaited {r : Run} {k : Reg} (h : r.awaited k = true) : r.orphan k = false := by
  simp only [Run.awaited, Bool.and_eq_true] at h
  simp [Run.orphan, h.2]

/-- R83: a source that does not trap: it is full, or it waits and is awaited. -/
def GoesOrWaits (r : Run) (x : Src) : Prop := r.full x.1 = true ∨ (x.2 = false ∧ r.awaited x.1 = true)

/-- R83: with no source that traps, an awaited one holds the instruction. -/
theorem withSrcs_awaited {l : List Src} {s : State} {x : Src} (hx : x ∈ l) (hawaited : s.cc.awaited x.1 = true)
    (hl : ∀ y ∈ l, GoesOrWaits s.cc y) (k : State → Result) : withSrcs l s k = .next s.stall := by
  refine withSrcs_wait hx (Run.not_full_of_awaited hawaited) (fun y hy hempty => ?_) k
  rcases hl y hy with hfull | ⟨hwaits, haw⟩
  · simp [hempty] at hfull
  · exact ⟨hwaits, Run.not_orphan_of_awaited haw⟩

theorem regReg_awaitedSource (f : W64 → W64 → W64) (d : Reg) {a b : Reg} {ta tb : Bool} {s : State}
    (hsome : s.cc.awaited a = true ∨ s.cc.awaited b = true) (ha : GoesOrWaits s.cc (a, ta)) (hb : GoesOrWaits s.cc (b, tb)) :
    regReg f d a b ta tb s = .next s.stall := by
  have hl : ∀ y ∈ [(a, ta), (b, tb)], GoesOrWaits s.cc y := by simp [ha, hb]
  rcases hsome with h | h
  · exact withSrcs_awaited (x := (a, ta)) (by simp) h hl _
  · exact withSrcs_awaited (x := (b, tb)) (by simp) h hl _

theorem regReg_awaitedDest (f : W64 → W64 → W64) {d a b : Reg} (ta tb : Bool) {s : State} (hsrc : Ready s [a, b])
    (hd : s.cc.awaited d = true) : regReg f d a b ta tb s = .next s.stall := by
  rw [regReg, withSrcs_ready (by simpa [Ready] using hsrc), withDest_wait hd]

theorem regOne_awaitedDest (f : W64 → W64) {d a : Reg} (ta : Bool) {s : State} (hsrc : Ready s [a])
    (hd : s.cc.awaited d = true) : regOne f d a ta s = .next s.stall := by
  rw [regOne, withSrcs_ready (by simpa [Ready] using hsrc), withDest_wait hd]

/-- R83, R84: the trap names the first source where that one is empty, and the second otherwise. -/
theorem regReg_traps (f : W64 → W64 → W64) (d : Reg) {a b : Reg} {ta tb : Bool} {s : State}
    (h : (s.cc.full a = false ∧ (ta = true ∨ s.cc.orphan a = true)) ∨
      (s.cc.full b = false ∧ (tb = true ∨ s.cc.orphan b = true))) :
    regReg f d a b ta tb s = .next (s.trap 0x02 0 (if s.cc.full a then b else a).toNat 0#64 false) := by
  have hfirst : firstEmpty s.cc [(a, ta), (b, tb)] = if s.cc.full a then b else a := by
    cases ha : s.cc.full a with
    | false => simp [firstEmpty, ha]
    | true =>
      have hb : s.cc.full b = false := (h.resolve_left fun h => by simp [ha] at h).1
      simp [firstEmpty, ha, hb]
  rw [← hfirst]
  rcases h with ⟨hempty, htrap⟩ | ⟨hempty, htrap⟩
  · exact withSrcs_trap (x := (a, ta)) (by simp) hempty htrap _
  · exact withSrcs_trap (x := (b, tb)) (by simp) hempty htrap _

theorem regOne_traps (f : W64 → W64) (d : Reg) {a : Reg} {ta : Bool} {s : State} (hempty : s.cc.full a = false)
    (htrap : ta = true ∨ s.cc.orphan a = true) : regOne f d a ta s = .next (s.trap 0x02 0 a.toNat 0#64 false) := by
  rw [regOne, withSrcs_trap (x := (a, ta)) (by simp) hempty htrap]
  simp [firstEmpty, hempty]

theorem waits_of_stall {s : State} {o : Result} (h : o = .next s.stall) : ∃ t, o = .next t ∧ Waits s t := ⟨_, h, waits_stall s⟩

/-- Settles O6: each instruction is a shape of one or two sources, and each shape traps, waits for a source or waits for its
destination. -/
theorem emptySourcesTrapAndAwaitedRegistersHold : Obligations.EmptySourcesTrapAndAwaitedRegistersHold := by
  unfold Obligations.EmptySourcesTrapAndAwaitedRegistersHold
  have two := runsRegReg_of_mem_twoSource
  have one := runsRegOne_of_mem_oneImmediate
  refine ⟨fun s henter => ⟨?trapTwo, ?trapOne⟩, fun s => ⟨?first, ?second, ?both, ?only, ?destTwo, ?destOne⟩⟩
  case trapTwo =>
    intro p hp d a b ta tb h
    exact ⟨_, (two p hp ..).trans (regReg_traps p.2 d h), enters_trap henter ..⟩
  case trapOne =>
    intro p hp d a ta i hempty htrap
    exact ⟨_, (one p hp i d a ta s).trans (regOne_traps _ d hempty htrap), enters_trap henter ..⟩
  case first =>
    intro p hp d a b tb ha hb
    exact waits_of_stall ((two p hp ..).trans (regReg_awaitedSource p.2 d (.inl ha) (.inr ⟨rfl, ha⟩) (.inl hb)))
  case second =>
    intro p hp d a b ta ha hb
    exact waits_of_stall ((two p hp ..).trans (regReg_awaitedSource p.2 d (.inr hb) (.inl ha) (.inr ⟨rfl, hb⟩)))
  case both =>
    intro p hp d a b ha hb
    exact waits_of_stall ((two p hp ..).trans (regReg_awaitedSource p.2 d (.inl ha) (.inr ⟨rfl, ha⟩) (.inr ⟨rfl, hb⟩)))
  case only =>
    intro p hp d a i ha
    have hl : ∀ y ∈ [(a, false)], GoesOrWaits s.cc y := by simp [GoesOrWaits, ha]
    exact waits_of_stall ((one p hp i d a false s).trans (withSrcs_awaited (List.mem_singleton_self _) ha hl _))
  case destTwo =>
    intro p hp d a b ta tb hsrc hd
    exact waits_of_stall ((two p hp ..).trans (regReg_awaitedDest p.2 ta tb hsrc hd))
  case destOne =>
    intro p hp d a ta i hsrc hd
    exact waits_of_stall ((one p hp i d a ta s).trans (regOne_awaitedDest _ ta hsrc hd))

end Sys2Proof.Machine
end

section
/-! PROOFS. Register states: MKE (R87) and the deliveries of late producers (R85, R86); settles O5 and O17. -/

namespace Sys2Proof.Machine
open Sys2Proof.Machine.Claims

/-! ## MKE (R87) -/

theorem Run.cell_orphanReg_other (r : Run) {j k : Reg} (h : j ≠ k) : (r.orphanReg k).cell j = r.cell j :=
  Run.cell_putCell_other r _ h

/-- R87: the context after MKE, before control goes on: rd is empty and orphaned, and the deliveries to it are cancelled. -/
def Run.mke (r : Run) (d : Reg) : Run :=
  { r.orphanReg d with flights := r.flights.map fun f => if f.rd = d ∧ d ≠ 0#5 then { f with live := false } else f }

theorem exec_mke (d : Reg) (s : State) : exec (.mke d) s = .next (s.modCc fun r => r.mke d).retire := by
  have hflights : (s.modCc fun r => r.mke d) = s.modCc fun r => { r.orphanReg d with
      flights := if d = 0#5 then r.flights else r.flights.map fun f => if f.rd = d then { f with live := false } else f } := by
    by_cases hd : d = 0#5 <;> simp [State.modCc, Run.mke, hd]
  rw [hflights]
  rfl

theorem Run.mke_eq (r : Run) (d : Reg) : r.mke d = { r with regs := (r.mke d).regs, flights := (r.mke d).flights } := by
  unfold Run.mke
  rw [Run.orphanReg_eq]

theorem Run.orphan_iff {r : Run} {k : Reg} : r.orphan k = true ↔ r.full k = false ∧ (r.cell k).pend = false := by
  simp [Run.orphan]

/-- Settles O5: what MKE makes of its register, its context and the rest. -/
theorem mkeEmptiesItsRegister : Obligations.MkeEmptiesItsRegister := by
  unfold Obligations.MkeEmptiesItsRegister
  intro d s
  refine ⟨_, exec_mke d s, fun hd => ?empty, rfl, fun k hk => ?others, fun hd k => ?zero, ⟨rfl, fun _ => rfl⟩, ?frame, ?goes⟩
  case empty =>
    have horphan := Run.orphan_orphanReg_self s.cc hd
    exact ⟨(Run.orphan_iff.mp horphan).1, horphan⟩
  case others => exact Run.cell_orphanReg_other s.cc hk
  case zero => rw [hd]; rfl
  case frame =>
    simp only [State.retire, State.modCc, Run.retire]
    rw [Run.mke_eq]
  case goes =>
    have hpc : (s.cc.mke d).pc = s.cc.pc := Run.orphanReg_pc ..
    have hloops : (s.cc.mke d).loops = s.cc.loops := Run.orphanReg_loops ..
    exact goesOn_retire (goesOn_retire_self _) hpc hloops

/-! ## A delivery lands (R85, R86) -/

theorem landFlight_frame (n : Nat) (r : Run) : landFlight n r = { r with
    regs := (landFlight n r).regs, stall := (landFlight n r).stall, flights := (landFlight n r).flights } := by
  unfold landFlight
  repeat' split
  · rw [Run.setReg_eq]
  all_goals rfl

theorem landFlight_task (n : Nat) (r : Run) : (landFlight n r).task = r.task := by rw [landFlight_frame]
theorem landFlight_ending (n : Nat) (r : Run) : (landFlight n r).ending = r.ending := by rw [landFlight_frame]
theorem landFlight_accs (n : Nat) (r : Run) : (landFlight n r).accs = r.accs := by rw [landFlight_frame]

theorem landFlight_live {r : Run} {f : Flight} {v : W64} (hf : (r.flights.find? fun g => decide (g.id = f.id)) = some f)
    (hv : f.val = some v) (hlive : f.live = true) : landFlight f.id r =
      ({ r with flights := r.flights.filter fun g => !decide (g.id = f.id), stall := 0 } : Run).setReg f.rd v := by
  simp only [landFlight, hf, hv, hlive, if_true]

theorem landFlight_cancelled {r : Run} {f : Flight} {v : W64} (hf : (r.flights.find? fun g => decide (g.id = f.id)) = some f)
    (hv : f.val = some v) (hlive : f.live = false) :
    landFlight f.id r = { r with flights := r.flights.filter fun g => !decide (g.id = f.id), stall := 0 } := by
  simp only [landFlight, hf, hv, hlive, Bool.false_eq_true, if_false]

/-- What a delivery does to its context, whether MKE cancelled it or not. -/
theorem landFlight_spec {r : Run} {f : Flight} {v : W64} (hf : (r.flights.find? fun g => decide (g.id = f.id)) = some f)
    (hv : f.val = some v) :
    let u := landFlight f.id r
    (u.flights = r.flights.filter fun g => !decide (g.id = f.id)) ∧
    (f.live = true → u.full f.rd = true ∧ u.reg f.rd = (if f.rd = 0#5 then 0#64 else v)) ∧
    (∀ k, k ≠ f.rd → u.cell k = r.cell k) ∧ (f.live = false → u.regs = r.regs) := by
  cases hlive : f.live with
  | true =>
    rw [landFlight_live hf hv hlive]
    exact ⟨Run.setReg_flights .., fun _ => ⟨Run.full_setReg_self .., Run.reg_setReg_self ..⟩,
      fun k hk => Run.cell_setReg_other _ _ hk, nofun⟩
  | false =>
    rw [landFlight_cancelled hf hv hlive]
    exact ⟨rfl, nofun, fun _ _ => rfl, fun _ => rfl⟩

theorem State.ne_zero_of_run? {s : State} {h : W64} {r : Run} (hr : s.run? h = some r) : h ≠ 0#64 := by
  rintro rfl
  simp [State.run?] at hr

/-- Of the contexts that hold a task the first one changes, in turn or not. -/
theorem State.run?_modCtx {s : State} {h : W64} {r : Run} {f : Run → Run} (hr : s.run? h = some r)
    (hf : ∀ q, (f q).task = q.task) : (s.modCtx h f).run? h = some (f r) := by
  have h0 := State.ne_zero_of_run? hr
  by_cases hcc : s.cc.task = h
  · rw [State.run?_cc h0 hcc, Option.some_inj] at hr
    rw [State.modCtx_cc h0 hcc, State.run?_cc h0 ((hf _).trans hcc), hr]
  · have hmod : s.modCtx h f = { s with runs := s.runs.map fun q => if q.task = h then f q else q } := by
      rw [State.modCtx, hr, State.modRun, if_neg h0, if_neg hcc]
    rw [State.run?, if_neg h0, if_neg hcc] at hr
    have hkeeps : ((fun q : Run => q.task == h) ∘ fun q => if q.task = h then f q else q) = fun q => q.task == h := by
      funext q
      simp only [Function.comp_apply]
      split <;> simp [hf]
    have htask : r.task = h := by simpa using List.find?_some hr
    rw [hmod, State.run?, if_neg h0, if_neg hcc, List.find?_map, hkeeps, hr, Option.map_some, if_pos htask]

/-- R165, R409: no access of a context is performed next when its window ends, or when it has none or its oldest is on its
way. -/
theorem State.drain_of_idle {s : State} {h : W64} {r : Run} (hr : s.run? h = some r)
    (hidle : r.ending ≠ none ∨ ∀ a, r.accs.head? = some a → a.sent = true) : s.drain h = s := by
  rw [State.drain, hr]
  cases hend : r.ending with
  | some e => simp only [hend]
  | none =>
    cases haccs : r.accs with
    | nil => simp only [hend, haccs]
    | cons a l =>
      have hsent : a.sent = true := (hidle.resolve_left fun h => h hend) a (by rw [haccs]; rfl)
      simp only [hend, haccs, hsent, if_true]

theorem exec_lateDelivery {s : State} {r : Run} {n : Nat} (hr : s.run? r.task = some r)
    (hidle : r.ending ≠ none ∨ ∀ a, r.accs.head? = some a → a.sent = true) :
    exec (.lateDelivery ⟨r.task, n⟩) s = .next (s.modCtx r.task (landFlight n)) := by
  have hdrain := State.drain_of_idle (State.run?_modCtx hr (landFlight_task n))
    (by rwa [landFlight_ending, landFlight_accs])
  exact congrArg Host.Outcome.next hdrain

/-- Settles O17: the delivery lands in the context of its task, and no access follows it. -/
theorem lateDeliveryFillsItsRegister : Obligations.LateDeliveryFillsItsRegister := by
  unfold Obligations.LateDeliveryFillsItsRegister
  intro s r f v hrun hfind hval hidle
  obtain ⟨hflights, hland⟩ := landFlight_spec hfind hval
  refine ⟨_, _, exec_lateDelivery hrun hidle, SameBytes.of_mem (State.modCtx_mem ..),
    State.run?_modCtx hrun (landFlight_task f.id), ?_, hland⟩
  rw [← hflights]
  exact landFlight_frame f.id r

end Sys2Proof.Machine
end

section
/-! PROOFS. Flow sites (R305 to R307, R310): what each word does with the bundles it takes; settles O49. -/

namespace Sys2Proof.Machine
open Sys2Proof.Machine.Claims

/-! ## The word of a site acts on what stands at its inputs -/

section
variable {s : State} {i : Instr} {a : SiteRef} {x : SiteArgs} {r : Run} {st st0 : Site} {ls : List (Nat × Rec)}

theorem withEvent_of_siteAt (h : SiteAt s i a r st) (f : Run → Site → State → State) :
    withEvent i a s f = .next ((f r st s).wakeSite a.task (siteKey a.row a.col)) := by
  obtain ⟨hlive, hsite, -, hevent⟩ := h
  simp [withEvent, withSite, hlive, hsite, hevent]

theorem flow_of_takes (h : FlTakes s i a r st st0 ls) (f : Run → Site → List (Nat × Rec) → State → State) :
    flow i a s f = .next ((f r st0 ls s).wakeSite a.task (siteKey a.row a.col)) := by
  obtain ⟨hsite, -, rfl, rfl⟩ := h
  exact withEvent_of_siteAt hsite _

theorem siteArgs_of_decodeSite {q : SiteRef} {w : W64} (h : decodeSite q w = some i) : i.siteArgs = some (q, unpackSite w) := by
  obtain ⟨-, hinstr⟩ : siteWordOk (kindSite w) (opSite w) (unpackSite w) = true ∧
      siteInstr (kindSite w) (opSite w) q (unpackSite w) = some i := by
    simpa [decodeSite] using h
  exact (siteRow_of_siteInstr hinstr).args

/-- The next event of a site with no AL work in hand is the site's word, or an event that is no word. -/
theorem decodeSite_or_of_siteEvent (hal : st.al = none) (hevent : r.siteEvent st = some i) :
    decodeSite (st.at r.task) st.word = some i ∨ i.siteArgs = none := by
  simp only [Run.siteEvent, hal] at hevent
  have hnoWord {j : Instr} (hj : j.siteArgs = none) (h : some j = some i) : i.siteArgs = none := Option.some.inj h ▸ hj
  split_ifs at hevent
  · exact .inl hevent
  · exact .inr (hnoWord rfl hevent)
  · exact .inl hevent
  · exact .inr (hnoWord rfl hevent)
  · exact .inr (hnoWord rfl hevent)
  · exact .inr (hnoWord rfl hevent)
  · exact .inl hevent

theorem args_of_siteEvent (hal : st.al = none) (hevent : r.siteEvent st = some i) (hx : i.siteArgs = some (a, x)) :
    st.args = x := by
  rcases decodeSite_or_of_siteEvent hal hevent with hword | hnone
  · exact congrArg Prod.snd (Option.some.inj ((siteArgs_of_decodeSite hword).symm.trans hx))
  · rw [hnone] at hx
    exact nomatch hx

theorem takeHeads_words (st : Site) : st.takeHeads.2.words = st.words := by
  have hset (got : List (Nat × Bundle)) (t : Site) :
      (got.foldl (fun t e => t.setQ e.1 (popBody (t.q e.1))) t).words = t.words := by
    induction got generalizing t with
    | nil => rfl
    | cons e got ih => exact ih _
  exact hset _ st

theorem args_of_takes (h : FlTakes s i a r st st0 ls) (hx : i.siteArgs = some (a, x)) : st0.args = x := by
  obtain ⟨⟨-, -, -, hevent⟩, hal, rfl, -⟩ := h
  rw [← args_of_siteEvent hal hevent hx, Site.args, Site.args, Site.word, Site.word, takeHeads_words]

end

/-! ## Records leave in their lanes (R305, R306) -/

/-- What a bundle sends when every record goes on the outputs that a rule names. -/
def sentBy (goes : Nat × Rec → List Nat) (ls : List (Nat × Rec)) : List Sent :=
  ls.flatMap fun e => (goes e).map fun o => (o, e.1, e.2)

/-- R306: the outputs of a record, of a rule for those that do not go to late. -/
def lateOr (r : Run) (st : Site) (rule : Nat × Rec → List Nat) (e : Nat × Rec) : List Nat :=
  if isLate r st e then [3] else rule e

theorem sentOn_sentBy {goes : Nat × Rec → List Nat} (hgoes : ∀ e, (goes e).Nodup) (ls : List (Nat × Rec)) (o : Nat) :
    ((sentBy goes ls).filter fun e => decide (e.1 = o)).map (·.2) = ls.filter fun e => (goes e).contains o := by
  induction ls with
  | nil => rfl
  | cons e ls ih =>
    have hone : (((goes e).map fun k => (k, e.1, e.2)).filter fun k => decide (k.1 = o)).map (·.2) =
        List.replicate ((goes e).count o) e := by
      rw [List.filter_map, List.map_map, List.count_eq_length_filter, ← List.map_const']
      rfl
    rw [sentBy, List.flatMap_cons, List.filter_append, List.map_append, hone, List.filter_cons]
    rw [sentBy] at ih
    rw [ih, (hgoes e).count]
    by_cases ho : o ∈ goes e <;> simp [ho]

/-- Records listed once for each of some outputs go on all of these. -/
theorem sentOn_flatMap {outs : List Nat} (houts : outs.Nodup) (ls : List (Nat × Rec)) (o : Nat) :
    ((outs.flatMap fun k => ls.map fun e => (k, e.1, e.2)).filter fun e => decide (e.1 = o)).map (·.2) =
      ls.filter fun _ => outs.contains o := by
  induction outs with
  | nil => simp
  | cons k outs ih =>
    obtain ⟨hk, hrest⟩ := List.nodup_cons.mp houts
    rw [List.flatMap_cons, List.filter_append, List.map_append, ih hrest]
    by_cases hko : k = o
    · subst hko
      simp [List.filter_map, Function.comp_def, hk]
    · simp [List.filter_map, Function.comp_def, hko, Ne.symm hko]

theorem placed_filter (p : Nat × Rec → Bool) (ls : List (Nat × Rec)) :
    placed (ls.filter p) = (List.range 16).map fun l => (ls.find? fun e => decide (e.1 = l) && p e).map (·.2) := by
  simp only [placed, List.find?_filter, Bool.decide_and, Bool.decide_eq_true, Bool.and_comm]

/-- Records listed output by output leave as the same records do lane by lane. -/
theorem emitSent_eq_sendsLanes {l : List Sent} {goes : Nat × Rec → List Nat} {ls : List (Nat × Rec)}
    (hl : ∀ o, (l.filter fun e => decide (e.1 = o)).map (·.2) = ls.filter fun e => (goes e).contains o)
    (s : State) (h : W64) (st : Site) (always : List Nat) :
    s.emitSent h st always l = SendsLanes s h st always goes ls := by
  unfold State.emitSent SendsLanes
  congr 1
  funext t o
  have hany : (ls.filter fun e => (goes e).contains o).isEmpty = !ls.any fun e => (goes e).contains o := by
    rw [Bool.eq_iff_iff]
    simp
  simp only [hl, placed_filter, hany]
  cases always.contains o <;> cases ls.any fun e => (goes e).contains o <;> rfl

theorem emitSent_sentBy {goes : Nat × Rec → List Nat} (hgoes : ∀ e, (goes e).Nodup) (ls : List (Nat × Rec)) (s : State)
    (h : W64) (st : Site) (always : List Nat) :
    s.emitSent h st always (sentBy goes ls) = SendsLanes s h st always goes ls :=
  emitSent_eq_sendsLanes (sentOn_sentBy hgoes ls) s h st always

theorem withLate_eq_sentBy {r : Run} {st : Site} {f : Nat × Rec → List Sent} {rule : Nat × Rec → List Nat}
    (hf : ∀ e, f e = (rule e).map fun o => (o, e.1, e.2)) (ls : List (Nat × Rec)) :
    withLate ((r.outs st).contains 3) f ls = sentBy (lateOr r st rule) ls := by
  unfold withLate sentBy
  congr 1
  funext e
  rw [hf, lateOr, isLate, apply_ite (List.map _)]
  rfl

theorem nodup_lateOr {r : Run} {st : Site} {rule : Nat × Rec → List Nat} (hrule : ∀ e, (rule e).Nodup) (e : Nat × Rec) :
    (lateOr r st rule e).Nodup := by
  unfold lateOr
  split
  · exact List.nodup_singleton 3
  · exact hrule e

/-- R306: what a rule sends, late records aside, leaves as `SendsLanes` says. -/
theorem emitSent_withLate {r : Run} {st : Site} {f : Nat × Rec → List Sent} {rule : Nat × Rec → List Nat}
    (hf : ∀ e, f e = (rule e).map fun o => (o, e.1, e.2)) (hrule : ∀ e, (rule e).Nodup) (ls : List (Nat × Rec)) (s : State)
    (h : W64) (st1 : Site) (always : List Nat) :
    s.emitSent h st1 always (withLate ((r.outs st).contains 3) f ls) = SendsLanes s h st1 always (lateOr r st rule) ls := by
  rw [withLate_eq_sentBy hf, emitSent_sentBy (nodup_lateOr hrule)]

theorem flowBy_of_takes {s : State} {i : Instr} {a : SiteRef} {x : SiteArgs} {r : Run} {st st0 : Site} {ls : List (Nat × Rec)}
    {f : Run → Site → Nat × Rec → List Sent} {rule : Nat × Rec → List Nat} (h : FlTakes s i a r st st0 ls)
    (hx : i.siteArgs = some (a, x)) (hf : ∀ e, f r st0 e = (rule e).map fun o => (o, e.1, e.2)) (hrule : ∀ e, (rule e).Nodup) :
    flowBy i a s f = .next ((SendsLanes (s.putSite a.task st0) a.task st0 [x.dstN] (lateOr r st0 rule) ls).wakeSite a.task
      (siteKey a.row a.col)) := by
  rw [flowBy, flow_of_takes h, args_of_takes h hx, emitSent_withLate hf hrule]

/-! ## FORK, RETIRE, FILTER, STEER, DUSK, GATE and MARK (R306) -/

/-- R306: a record leaves on one output, when a condition holds, and otherwise as another rule says. -/
theorem map_ite_singleton {p : Prop} [Decidable p] (o : Nat) (os : List Nat) (e : Nat × Rec) {rest : List Sent}
    (hrest : rest = os.map fun k => (k, e.1, e.2)) :
    (if p then [(o, e.1, e.2)] else rest) = (if p then [o] else os).map fun k => (k, e.1, e.2) := by
  rw [hrest, apply_ite (List.map _)]
  rfl

/-- R306: FILTER passes the values other than 0, or with INV those that are 0. -/
theorem filterPasses_iff (x : SiteArgs) (v : W32) :
    ((v != 0#32) != (x.m 0 0 == 1)) = true ↔ (v ≠ 0#32 ∧ x.m 0 0 = 0) ∨ (v = 0#32 ∧ x.m 0 0 = 1) := by
  have hbit := m_lt x 0 0
  by_cases hv : v = 0#32
  · simp [hv]
  · have hinv : x.m 0 0 ≠ 1 ↔ x.m 0 0 = 0 := by omega
    rw [bne_iff_ne.mpr hv]
    simpa [hv] using hinv

theorem gateCond_iff (c j k : Nat) : gateCond c j k = true ↔
    (c = 0 ∧ j = k) ∨ (c = 1 ∧ j ≠ k) ∨ (c = 2 ∧ j < k) ∨ (c = 3 ∧ j ≤ k) ∨ (c = 4 ∧ k < j) ∨ (5 ≤ c ∧ k ≤ j) := by
  rcases c with _ | _ | _ | _ | _ | c <;> simp [gateCond]

section
variable {s : State} {a : SiteRef} {x : SiteArgs} {r : Run} {st st0 : Site} {ls : List (Nat × Rec)}

theorem exec_fork_of_takes (h : FlTakes s (.fork a x) a r st st0 ls) :
    exec (.fork a x) s = .next ((SendsLanes (s.putSite a.task st0) a.task st0 ((List.range 4).filter (x.m 3 0).testBit)
      (fun _ => (List.range 4).filter (x.m 3 0).testBit) ls).wakeSite a.task (siteKey a.row a.col)) := by
  show execFork a x s = _
  rw [execFork, flow_of_takes h]
  exact congrArg (fun u : State => Host.Outcome.next (u.wakeSite _ _))
    (emitSent_eq_sendsLanes (sentOn_flatMap (List.nodup_range.filter _) ls) ..)

theorem exec_retire_of_takes (h : FlTakes s (.retire a x) a r st st0 ls) :
    exec (.retire a x) s = .next ((SendsLanes (s.putSite a.task st0) a.task st0 [] (fun _ => []) ls).wakeSite a.task
      (siteKey a.row a.col)) := by
  have hnothing (u : State) : SendsLanes u a.task st0 [] (fun _ => []) ls = u := by simp [SendsLanes]
  rw [hnothing]
  show execRetire a x s = _
  rw [execRetire, flow_of_takes h]

/-- R305, R306: each word of `flowForms` sends the records of its bundle by the rule stated there. -/
theorem exec_flowForms_of_takes : ∀ e ∈ flowForms, FlTakes s (e.1 a x) a r st st0 ls →
    exec (e.1 a x) s = .next ((SendsLanes (s.putSite a.task st0) a.task st0 (e.2.1 x) (e.2.2 r st0 x) ls).wakeSite a.task
      (siteKey a.row a.col)) := by
  simp only [flowForms, List.forall_mem_cons]
  refine ⟨exec_fork_of_takes, exec_retire_of_takes, ?filter, ?steer, ?dusk, ?gate, nofun⟩
  case filter =>
    intro h
    show execFilter a x s = _
    unfold execFilter
    refine flowBy_of_takes h rfl (fun e => ?_) (fun e => ?_)
    · simp only [filterPasses_iff]
      exact map_ite_singleton _ _ _ (map_ite_singleton _ [] _ rfl)
    · split_ifs <;> simp
  case steer =>
    intro h
    show execSteer a x s = _
    unfold execSteer
    exact flowBy_of_takes h rfl (fun e => map_ite_singleton _ [] _ rfl) (fun e => by split_ifs <;> simp)
  case dusk =>
    intro h
    show execDusk a x s = _
    unfold execDusk
    exact flowBy_of_takes h rfl (fun e => rfl) (fun e => List.nodup_singleton _)
  case gate =>
    intro h
    show execGate a x s = _
    unfold execGate
    refine flowBy_of_takes h rfl (fun e => ?_) (fun e => ?_)
    · simp only [gateCond_iff]
      exact map_ite_singleton _ [] _ rfl
    · split_ifs <;> simp

theorem exec_mark_of_takes (h : FlTakes s (.mark a x) a r st st0 ls) :
    let st1 := withFl st0 { st0.core.fl with count := st0.core.fl.count + if ls = [] then 0 else 1 }
    exec (.mark a x) s = .next ((SendsLanes (s.putSite a.task st1) a.task st1 [x.dstN]
      (lateOr r st0 fun _ => [x.dstN]) ls).wakeSite a.task (siteKey a.row a.col)) := by
  show execMark a x s = _
  rw [execMark, flow_of_takes h]
  simp only [List.isEmpty_iff]
  exact congrArg (fun u : State => Host.Outcome.next (u.wakeSite _ _))
    (emitSent_withLate (fun _ => rfl) (fun _ => List.nodup_singleton _) ..)

end

/-! ## TAGSET (R306) -/

/-- R306: the tag that TAGSET gives a record of a bundle, by its place there, where the counter stands at c. -/
def tagAt (r : Run) (st : Site) (x : SiteArgs) (c : BitVec 16) (ls : List (Nat × Rec)) (e : (Nat × Rec) × Nat) : BitVec 16 :=
  if x.m 0 0 = 1 then c + BitVec.ofNat 16 ((ls.take e.2).filter fun k => !isLate r st k).length
  else (flSource st x e.1.2).setWidth 16

/-- R306: the records of a bundle with TAGSET's tags; those that go to late keep theirs. -/
def retagged (r : Run) (st : Site) (x : SiteArgs) (c : BitVec 16) (ls : List (Nat × Rec)) : List (Nat × Rec) :=
  ls.zipIdx.map fun e => if isLate r st e.1 then e.1 else (e.1.1, { e.1.2 with tag := tagAt r st x c ls e })

section
variable {r : Run} {st : Site} {x : SiteArgs} {c : BitVec 16} {e : Nat × Rec} {es : List (Nat × Rec)}

theorem tagAt_cons_late (he : isLate r st e = true) (k : Nat × Rec) (n : Nat) :
    tagAt r st x c (e :: es) (k, n + 1) = tagAt r st x c es (k, n) := by
  simp [tagAt, he]

theorem tagAt_cons_stay (he : isLate r st e = false) (k : Nat × Rec) (n : Nat) :
    tagAt r st x c (e :: es) (k, n + 1) = tagAt r st x (if x.m 0 0 = 1 then c + 1#16 else c) es (k, n) := by
  have hnext (n : Nat) : c + BitVec.ofNat 16 (n + 1) = c + 1#16 + BitVec.ofNat 16 n := by
    rw [BitVec.add_assoc, Nat.add_comm, BitVec.ofNat_add]
  rw [tagAt, tagAt]
  by_cases hm : x.m 0 0 = 1
  · rw [if_pos hm, if_pos hm, if_pos hm, List.take_succ_cons, List.filter_cons_of_pos (by simp [he]), List.length_cons, hnext]
  · rw [if_neg hm, if_neg hm]

theorem retagged_cons_late (he : isLate r st e = true) : retagged r st x c (e :: es) = e :: retagged r st x c es := by
  rw [retagged, List.zipIdx_cons', List.map_cons, List.map_map, if_pos he]
  simp only [Function.comp_def, Prod.map, id, tagAt_cons_late he]
  rfl

theorem retagged_cons_stay (he : isLate r st e = false) : retagged r st x c (e :: es) =
    (e.1, { e.2 with tag := tagAt r st x c (e :: es) (e, 0) }) ::
      retagged r st x (if x.m 0 0 = 1 then c + 1#16 else c) es := by
  rw [retagged, List.zipIdx_cons', List.map_cons, List.map_map, if_neg (by simp [he])]
  simp only [Function.comp_def, Prod.map, id, tagAt_cons_stay he]
  rfl

theorem tagAt_zero : tagAt r st x c es (e, 0) = if x.m 0 0 = 1 then c else (flVal st e.2 x.selA).setWidth 16 := by
  rw [tagAt, List.take_zero, List.filter_nil, List.length_nil, BitVec.add_zero]
  rfl

/-- R306: what TAGSET sends are the retagged records, late ones on o3, and its counter has passed those that stay. -/
theorem retag_eq (r : Run) (st : Site) (x : SiteArgs) (c : BitVec 16) (ls : List (Nat × Rec)) :
    retag x st ((r.outs st).contains 3) c ls =
      (withLate ((r.outs st).contains 3) (fun e => [(x.dstN, e.1, e.2)]) (retagged r st x c ls),
        if x.m 0 0 = 1 then c + BitVec.ofNat 16 (ls.filter fun e => !isLate r st e).length else c) := by
  induction ls generalizing c with
  | nil => simp [retag, retagged, withLate]
  | cons e es ih =>
    cases he : isLate r st e with
    | true =>
      have hlate : ((r.outs st).contains 3 && e.2.absent.isSome) = true := he
      rw [retagged_cons_late he, retag, if_pos hlate, ih, List.filter_cons_of_neg (by simp [he]), withLate, withLate,
        List.flatMap_cons, if_pos hlate]
      rfl
    | false =>
      have hstay : ¬ ((r.outs st).contains 3 && e.2.absent.isSome) = true := Bool.eq_false_iff.mp he
      rw [retagged_cons_stay he, retag, if_neg hstay, ih, List.filter_cons_of_pos (by simp [he]), withLate, withLate,
        List.flatMap_cons, if_neg hstay, tagAt_zero, List.length_cons, Nat.add_comm, BitVec.ofNat_add, ← BitVec.add_assoc]
      by_cases hm : x.m 0 0 = 1 <;> simp [hm]

end

section
variable {s : State} {a : SiteRef} {x : SiteArgs} {r : Run} {st st0 : Site} {ls : List (Nat × Rec)}

theorem exec_tagset_of_takes (h : FlTakes s (.tagset a x) a r st st0 ls) :
    let fl := st0.core.fl
    let ctr := if x.m 0 0 = 1 then fl.ctr + BitVec.ofNat 16 (ls.filter fun e => !isLate r st0 e).length else fl.ctr
    let st1 := withFl st0 { fl with ctr := ctr }
    exec (.tagset a x) s = .next ((SendsLanes (s.putSite a.task st1) a.task st1 [x.dstN] (lateOr r st0 fun _ => [x.dstN])
      (retagged r st0 x fl.ctr ls)).wakeSite a.task (siteKey a.row a.col)) := by
  show execTagset a x s = _
  rw [execTagset, flow_of_takes h]
  simp only [retag_eq]
  exact congrArg (fun u : State => Host.Outcome.next (u.wakeSite _ _))
    (emitSent_withLate (fun _ => rfl) (fun _ => List.nodup_singleton _) ..)

/-! ## COMPACT and ORDER (R310) -/

/-- R310: COMPACT sends what fills bundles, in order, and keeps less than a bundle. -/
theorem fullBundles_spec (recs : List Rec) : (fullBundles recs).1 ++ (fullBundles recs).2 = recs ∧
    (fullBundles recs).2.length < 16 ∧ (fullBundles recs).1.length % 16 = 0 := by
  refine ⟨List.take_append_drop _ recs, ?_, ?_⟩
  · rw [fullBundles, List.length_drop]
    omega
  · rw [fullBundles, List.length_take]
    omega

theorem exec_compact_of_takes (h : FlTakes s (.compact a x) a r st st0 ls) :
    let q := fullBundles (st0.core.fl.compact ++ (ls.filter fun e => !isLate r st0 e).map (·.2))
    let st1 := withFl st0 { st0.core.fl with compact := q.2 }
    exec (.compact a x) s = .next ((((s.putSite a.task st1).emitPacked a.task st1 x.dstN q.1).emitPlaced a.task st1 3
      (ls.filter (isLate r st0))).wakeSite a.task (siteKey a.row a.col)) := by
  show execCompact a x s = _
  rw [execCompact, flow_of_takes h]
  rfl

/-- R310: the records of a list released from tag t on: they carry the tags that follow one another, none of those kept
carries the next one, and nothing is lost. -/
structure Released (t : BitVec 16) (held : List Rec) (q : List Rec × BitVec 16 × List Rec) : Prop where
  tags : q.1.map (·.tag) = (List.range q.1.length).map fun j => t + BitVec.ofNat 16 j
  next : q.2.1 = t + BitVec.ofNat 16 q.1.length
  perm : (q.1 ++ q.2.2).Perm held
  kept : ∀ p ∈ q.2.2, p.tag ≠ q.2.1

theorem released_releaseTags (n : Nat) (t : BitVec 16) (held : List Rec) (hn : held.length ≤ n) :
    Released t held (releaseTags n t held) := by
  induction n generalizing t held with
  | zero =>
    obtain rfl := List.length_eq_zero_iff.mp (Nat.le_zero.mp hn)
    exact ⟨rfl, (BitVec.add_zero t).symm, .refl _, nofun⟩
  | succ n ih =>
    rw [releaseTags]
    cases hfind : held.find? fun q => q.tag == t with
    | none =>
      refine ⟨rfl, (BitVec.add_zero t).symm, .refl _, fun p hp => ?_⟩
      simpa using List.find?_eq_none.mp hfind p hp
    | some q =>
      have hmem := List.mem_of_find?_eq_some hfind
      have htag : q.tag = t := by simpa using List.find?_some hfind
      have hlen : (held.erase q).length ≤ n := by
        rw [List.length_erase_of_mem hmem]
        omega
      have hnext (j : Nat) : t + 1#16 + BitVec.ofNat 16 j = t + BitVec.ofNat 16 (j + 1) := by
        rw [BitVec.add_assoc, Nat.add_comm j, BitVec.ofNat_add]
      obtain ⟨tags, next, perm, kept⟩ := ih (t + 1#16) (held.erase q) hlen
      refine ⟨?_, ?_, ?_, kept⟩
      · simp only [List.map_cons, List.length_cons, List.range_succ_eq_map, List.map_map, tags, htag, Function.comp_def, hnext]
        simp
      · rw [next, hnext, List.length_cons]
      · exact (perm.cons q).trans (List.perm_cons_erase hmem).symm

theorem orderAll_single {r : Run} {st : Site} {l : Nat} {q : Rec} (hq : isLate r st (l, q) = false) (t : BitVec 16)
    (held : List Rec) :
    orderAll ((r.outs st).contains 3) t held [(l, q)] =
      (((orderOne t held q).1.toList).map fun p => (l, p), (orderOne t held q).2) := by
  have hstay : ¬ ((r.outs st).contains 3 && q.absent.isSome) = true := Bool.eq_false_iff.mp hq
  rw [orderAll, if_neg hstay]
  cases h : (orderOne t held q).1 <;> simp [orderAll, h]

theorem orderOne_of_late {t : BitVec 16} {held : List Rec} {q : Rec} (h : 256 ≤ (q.tag - t).toNat ∨ 256 ≤ held.length) :
    orderOne t held q = (some q, [], t, held) := if_pos h

theorem orderOne_of_held {t : BitVec 16} {held : List Rec} {q : Rec} (htag : (q.tag - t).toNat < 256) (hlen : held.length < 256) :
    orderOne t held q = (none, releaseTags (held.length + 1) t (held ++ [q])) := if_neg (by omega)

theorem exec_order_of_late {l : Nat} {q : Rec} (h : FlTakes s (.order a x) a r st st0 [(l, q)])
    (hq : isLate r st0 (l, q) = false)
    (hlate : 256 ≤ (q.tag - st0.core.fl.nextTag).toNat ∨ 256 ≤ st0.core.fl.order.length) :
    exec (.order a x) s = .next (((s.putSite a.task st0).emitPlaced a.task st0 (r.lateOut st0 x.dstN) [(l, q)]).wakeSite a.task
      (siteKey a.row a.col)) := by
  show execOrder a x s = _
  rw [execOrder, flow_of_takes h, orderAll_single hq, orderOne_of_late hlate]
  rfl

theorem exec_order_of_held {l : Nat} {q : Rec} (h : FlTakes s (.order a x) a r st st0 [(l, q)])
    (hq : isLate r st0 (l, q) = false) (htag : (q.tag - st0.core.fl.nextTag).toNat < 256)
    (hlen : st0.core.fl.order.length < 256) :
    let fl := st0.core.fl
    let p := releaseTags (fl.order.length + 1) fl.nextTag (fl.order ++ [q])
    let st1 := withFl st0 { fl with nextTag := p.2.1, order := p.2.2 }
    exec (.order a x) s = .next (((s.putSite a.task st1).emitPacked a.task st1 x.dstN p.1).wakeSite a.task
      (siteKey a.row a.col)) := by
  show execOrder a x s = _
  rw [execOrder, flow_of_takes h, orderAll_single hq, orderOne_of_held htag hlen]
  rfl

/-! ## MERGE and RECIRC (R307) -/

theorem exec_merge_of_takes (h : FlTakes s (.merge a x) a r st st0 ls) :
    let recs := evenFields (ls.map (·.2))
    exec (.merge a x) s = .next ((((s.putSite a.task st0).emit a.task st0 x.dstN
      (.data (st0.bundle ((List.range 16).map fun l => recs[l]?)))).emitPacked a.task st0 (x.m 1 0) (recs.drop 16)).wakeSite a.task
      (siteKey a.row a.col)) := by
  obtain ⟨hsite, -, rfl, rfl⟩ := h
  show execMerge a x s = _
  rw [execMerge, withEvent_of_siteAt hsite, List.flatMap_map]

theorem fillRec_of_present (p : Port) (k : Nat) {q : Rec} (hq : q.absent = none) : fillRec p k q = (q, none) := by
  rw [fillRec, hq]

/-- R215: the port has nothing to fill in records that are present. -/
theorem map_fillRec_of_present {α β : Type} (p : Port) (k : Nat) {l : List α} {f : α → Rec} (hf : ∀ e ∈ l, (f e).absent = none)
    (g : α → Rec → β) : (l.map fun e => g e (fillRec p k (f e)).1) = l.map fun e => g e (f e) :=
  List.map_congr_left fun e he => by rw [fillRec_of_present p k (hf e he)]

theorem filterMap_fillRec_of_present (p : Port) (k : Nat) {qs : List Rec} (hqs : ∀ q ∈ qs, q.absent = none) :
    (qs.filterMap fun q => (fillRec p k q).2) = [] :=
  List.filterMap_eq_nil_iff.mpr fun q hq => by rw [fillRec_of_present p k (hqs q hq)]

theorem overflowTo_nil (pv ovf : Bool) (n : Nat) (hold : List Rec) : overflowTo pv ovf n hold [] = .ok (hold, []) := rfl

theorem emitPacked_nil (s : State) (h : W64) (st : Site) (out : Nat) : s.emitPacked h st out [] = s := rfl

/-- R307: the records that a RECIRC finds at an input. -/
def recircIn (st : Site) (i : Nat) : List (Nat × Rec) := ((headData (st.q i)).map lanesOf).getD []

theorem getD_map_lanesOf (st : Site) (i : Nat) : ((headData (st.q i)).map lanesOf).getD [] = recircIn st i := rfl

/-- R307: those a RECIRC sends, i1's first, then held ones, then i0's. -/
def recircOut (st : Site) (hold : List Rec) : List Rec := (recircIn st 1).map (·.2) ++ hold ++ (recircIn st 0).map (·.2)

/-- R307: a RECIRC that holds nothing any more; the snapshots of the rounds it captures for have changed with it. -/
def recircDone (st st0 : Site) : Site :=
  { withFl st0 { st0.core.fl with hold := [], clean := st0.core.fl.clean && (recircIn st 1).isEmpty } with
    snaps := match headData (st.q 1) with
      | some b => captureLoop st0.core.fl.capture b st0.snaps
      | none => st0.snaps }

/-- R307: with room for all in one bundle, and nothing absent to fill, a RECIRC sends all it has and holds nothing. -/
theorem recircStep_of_present (h : W64) (hst0 : st0 = st.takeHeads.2)
    (hpresent : ∀ q ∈ recircOut st st0.core.fl.hold, q.absent = none) (hroom : (recircOut st st0.core.fl.hold).length ≤ 16) :
    let st1 := recircDone st st0
    let s1 := s.modRun h fun u => ((u.putSite st1).putPort (x.m 3 0) ((r.port (x.m 3 0)).consumed [])).trimWindow (x.m 3 0)
    let u := s1.emit h st1 x.dstN (.data (st1.bundle ((List.range 16).map fun l =>
      (evenFields (recircOut st st0.core.fl.hold))[l]?)))
    s.recircStep h r st x = if st0.core.fl.hold = [] then u else u.pushNew (.portRunAhead ⟨h, x.m 3 0⟩) := by
  intro st1 s1 u
  subst hst0
  have hused := filterMap_fillRec_of_present (r.port (x.m 3 0)) (x.m 3 0) hpresent
  simp only [recircOut, List.forall_mem_append, List.forall_mem_map] at hpresent
  obtain ⟨⟨hpresent1, hpresentHeld⟩, hpresent0⟩ := hpresent
  have hin1 := map_fillRec_of_present (r.port (x.m 3 0)) (x.m 3 0) hpresent1 fun _ q => q
  have hheld := map_fillRec_of_present (r.port (x.m 3 0)) (x.m 3 0) (f := id) hpresentHeld fun _ q => q
  have hin0 := map_fillRec_of_present (r.port (x.m 3 0)) (x.m 3 0) hpresent0 fun e q => (e.1, q)
  have hlen : ((recircIn st 1).map (·.2) ++ st.takeHeads.2.core.fl.hold).length + (recircIn st 0).length ≤ 16 := by
    simpa [recircOut, Nat.add_assoc] using hroom
  have hlead : ((recircIn st 1).map (·.2) ++ st.takeHeads.2.core.fl.hold).length ≤ 16 := by omega
  simp only [id, List.map_id'] at hheld hin0
  unfold State.recircStep
  unfold recircOut at hused
  simp only [getD_map_lanesOf, hin1, hheld, hin0, hused, List.take_of_length_le hlead, List.drop_eq_nil_of_le hlead,
    List.take_of_length_le (Nat.le_sub_of_add_le' hlen), List.drop_eq_nil_of_le (Nat.le_sub_of_add_le' hlen), overflowTo_nil,
    emitPacked_nil]
  have hquiet : (([] : List Nat).isEmpty && ([] : List Rec).length == st.takeHeads.2.core.fl.hold.length) = true ↔
      st.takeHeads.2.core.fl.hold = [] := by
    rw [List.isEmpty_nil, Bool.true_and, beq_iff_eq, eq_comm]
    exact List.length_eq_zero_iff
  exact if_congr hquiet rfl rfl

theorem exec_recirc_of_takes (h : FlTakes s (.recirc a x) a r st st0 ls) :
    exec (.recirc a x) s = .next ((s.recircStep a.task r st x).wakeSite a.task (siteKey a.row a.col)) := by
  obtain ⟨hsite, -⟩ := h
  exact withEvent_of_siteAt hsite _

end

/-- Settles O49, operation by operation: what each sends, and what stays with the site. -/
theorem flowSitesRouteHoldAndMerge : Obligations.FlowSitesRouteHoldAndMerge := by
  unfold Obligations.FlowSitesRouteHoldAndMerge
  intro a x s r st st0 ls h key fl pass stay
  refine ⟨fun e he htakes => ⟨_, exec_flowForms_of_takes e he htakes, rfl⟩, fun htakes => ⟨_, exec_mark_of_takes htakes, rfl⟩,
    fun htakes => ⟨_, exec_tagset_of_takes htakes, rfl⟩, fun htakes => ?compact, fun htakes l q hls hq => ⟨fun hlate => ?late,
      fun htag hlen => ?held⟩, fun htakes => ⟨_, exec_merge_of_takes htakes, ?merge⟩, fun htakes => ?recirc⟩
  case compact =>
    obtain ⟨hall, hkeep, hfull⟩ := fullBundles_spec (fl.compact ++ stay.map (·.2))
    exact ⟨_, _, _, _, exec_compact_of_takes htakes, hall, hkeep, hfull, rfl, rfl⟩
  case late =>
    subst hls
    exact ⟨_, exec_order_of_late htakes hq hlate, rfl⟩
  case held =>
    subst hls
    obtain ⟨htags, hnext, hperm, hkept⟩ := released_releaseTags (fl.order.length + 1) fl.nextTag (fl.order ++ [q]) (by simp)
    refine ⟨_, _, _, _, _, exec_order_of_held htakes hq htag hlen, htags, hperm, ?_, ?_, rfl⟩
    · rwa [← hnext]
    · rw [← hnext]
  case merge =>
    rw [evenFields, List.map_map, List.map_map]
    rfl
  case recirc =>
    intro of_ all n hpresent hroom
    have hst0 : st0 = st.takeHeads.2 := by
      obtain ⟨-, -, hst0, -⟩ := htakes
      exact hst0
    have hexec := exec_recirc_of_takes htakes
    rw [recircStep_of_present a.task hst0 hpresent hroom] at hexec
    refine ⟨_, recircDone st st0, _, hexec, rfl, rfl, ?_⟩
    simp only [evenFields, List.getElem?_map]
    rfl

end Sys2Proof.Machine
end

section
/-! PROOFS. Sparse sites (R123 to R129): what each mode does with the bundle it takes; settles O48. -/

namespace Sys2Proof.Machine
open Sys2Proof.Machine.Claims

/-! ## Keys that follow one another (R128) -/

/-- A list that goes on from an earlier entry, if there was one, goes on in order when its first entry does and the rest goes
on from that. -/
theorem pairwise_toList_append_cons {α : Type} {R : α → α → Prop} (htrans : ∀ a b c, R a b → R b c → R a c) (p : Option α)
    (k : α) (ks : List α) :
    List.Pairwise R (p.toList ++ k :: ks) ↔ (∀ q ∈ p, R q k) ∧ List.Pairwise R ((some k).toList ++ ks) := by
  cases p with
  | none => simp
  | some q =>
    simp only [Option.toList_some, List.singleton_append, List.pairwise_cons, List.forall_mem_cons, Option.mem_some_iff,
      forall_eq']
    exact ⟨fun ⟨⟨hqk, _⟩, hks⟩ => ⟨hqk, hks⟩, fun ⟨hqk, hk, hks⟩ => ⟨⟨hqk, fun e he => htrans _ _ _ hqk (hk e he)⟩, hk, hks⟩⟩

theorem getLast?_map_cons_or {α β : Type} (f : α → β) (a : α) (l : List α) (p : Option β) :
    ((a :: l).getLast?.map f).or p = (l.getLast?.map f).or (some (f a)) := by
  rw [List.getLast?_cons]
  cases l.getLast? <;> rfl

/-! ## A bundle is taken, and what it comes to leaves (R124, R297) -/

section
variable {s : State} {i : Instr} {a : SiteRef} {x : SiteArgs} {r : Run} {st st0 : Site} {ls : List SpLane}
  {gone : List (Nat × Rec)}

theorem spJoin_of_takes (h : SpTakes s i a r st st0 ls gone) (whole : Bool) (f : Run → Site → SpCore → List SpLane → SpRes) :
    spJoin i a whole s f =
      .next ((s.spDone a.task st0 [gone] whole (f r st0 st0.core.sp ls)).wakeSite a.task (siteKey a.row a.col)) := by
  obtain ⟨hsite, -, hready, rfl, rfl, rfl⟩ := h
  have hgo : ¬ (!st.joined && !r.quietFor st.key) = true := by simpa using fun hj => hready.resolve_left (by simp [hj])
  rw [spJoin, withEvent_of_siteAt hsite, if_neg hgo]

/-- Each lane of a joined bundle is taken once. -/
theorem nodup_lanes_of_takes (h : SpTakes s i a r st st0 ls gone) : (ls.map (·.1)).Nodup := by
  obtain ⟨-, -, -, -, rfl, -⟩ := h
  have hlanes : ((joinedLanes st0 st.takeHeads.1).map (·.1)).Nodup := by
    rw [joinedLanes, List.map_filterMap]
    refine List.Nodup.filterMap (fun l k b hl hk => ?_) List.nodup_range
    simp only [Option.map_map, Option.mem_def, Option.map_eq_some_iff, Function.comp_apply] at hl hk
    obtain ⟨-, -, rfl⟩ := hl
    obtain ⟨-, -, rfl⟩ := hk
    rfl
  exact (List.filter_sublist.map _).nodup hlanes

/-- Lists of records without the empty ones leave as they would with them: an empty one sends nothing. -/
theorem foldl_emitPlaced_filter (t : State) (h : W64) (st : Site) (out : Nat) (ls : List (List (Nat × Rec))) :
    (ls.filter fun l => !l.isEmpty).foldl (fun t l => t.emitPlaced h st out l) t =
      ls.foldl (fun t l => t.emitPlaced h st out l) t := by
  induction ls generalizing t with
  | nil => rfl
  | cons l ls ih =>
    cases l with
    | nil => exact ih t
    | cons e l => exact ih _

theorem spSends_spDone (s : State) (a : SiteRef) (st0 : Site) (gone : List (Nat × Rec)) (core : SpCore) (out : List Rec)
    (late : List (Nat × Rec)) :
    SpSends s ((s.spDone a.task st0 [gone] false ⟨core, out, late, none⟩).wakeSite a.task (siteKey a.row a.col)) a st0 gone core
      out late :=
  congrArg (fun u : State => u.wakeSite _ _) (foldl_emitPlaced_filter ..)

theorem spFaults_spDone (s : State) (a : SiteRef) (st0 : Site) (gone : List (Nat × Rec)) (whole : Bool) {q : SpRes}
    {cause reason lane : Nat} {tval : W64} {extra : Nat} (hq : q.fault = some (cause, reason, lane, tval, extra)) :
    SpFaults s ((s.spDone a.task st0 [gone] whole q).wakeSite a.task (siteKey a.row a.col)) a st0 cause reason lane tval
      extra := by
  rw [SpFaults, State.spDone, hq]

theorem sends_of_takes (h : SpTakes s i a r st st0 ls gone) {f : Run → Site → SpCore → List SpLane → SpRes}
    (hexec : exec i s = spJoin i a false s f) {core : SpCore} {out : List Rec} {late : List (Nat × Rec)}
    (hf : f r st0 st0.core.sp ls = ⟨core, out, late, none⟩) :
    ∃ t, exec i s = .next t ∧ SpSends s t a st0 gone core out late := by
  refine ⟨_, hexec.trans (spJoin_of_takes h false f), ?_⟩
  rw [hf]
  exact spSends_spDone ..

theorem faults_of_takes (h : SpTakes s i a r st st0 ls gone) {whole : Bool} {f : Run → Site → SpCore → List SpLane → SpRes}
    (hexec : exec i s = spJoin i a whole s f) {cause reason lane : Nat} {tval : W64} {extra : Nat}
    (hf : (f r st0 st0.core.sp ls).fault = some (cause, reason, lane, tval, extra)) :
    ∃ t, exec i s = .next t ∧ SpFaults s t a st0 cause reason lane tval extra :=
  ⟨_, hexec.trans (spJoin_of_takes h whole f), spFaults_spDone _ _ _ _ _ hf⟩

/-- R125: SPVAL sends sixteen bundles, and the absent records. -/
theorem sendsWhole_of_takes (h : SpTakes s i a r st st0 ls gone) {f : Run → Site → SpCore → List SpLane → SpRes}
    (hexec : exec i s = spJoin i a true s f) {core : SpCore} {out : List Rec}
    (hf : f r st0 st0.core.sp ls = ⟨core, out, [], none⟩) :
    let st1 := { st0 with core := { st0.core with sp := core } }
    exec i s = .next ((((s.putSite a.task st1).emitExact a.task st1 st1.args.dstN 16 out).emitPlaced a.task st1 3 gone).wakeSite
      a.task (siteKey a.row a.col)) := by
  rw [hexec, spJoin_of_takes h, hf]
  exact congrArg (fun u : State => Host.Outcome.next (u.wakeSite _ _)) (foldl_emitPlaced_filter ..)

end

/-! ## SCAN and REPEAT (R126, R127) -/

/-- R127: what a lane gives of its n results, of which 16 in all fit, when `before` of those were given before the lanes ls. -/
def servedAfter (before : Nat) (ls : List SpLane) (n : SpLane → Nat) (l : SpLane) : Nat :=
  min (n l) (16 - (before + ((ls.takeWhile fun k => k.1 != l.1).map n).sum))

theorem servedAfter_head (before : Nat) (l : SpLane) (ls : List SpLane) (n : SpLane → Nat) :
    servedAfter before (l :: ls) n l = min (n l) (16 - before) := by
  simp [servedAfter]

theorem servedAfter_tail {l k : SpLane} (hk : l.1 ≠ k.1) (before : Nat) (ls : List SpLane) (n : SpLane → Nat) :
    servedAfter before (l :: ls) n k = servedAfter (before + n l) ls n k := by
  simp [servedAfter, hk, Nat.add_assoc]

theorem servedAfter_zero (ls : List SpLane) (n : SpLane → Nat) (l : SpLane) : servedAfter 0 ls n l = servedOf ls n l := by
  rw [servedAfter, servedOf, Nat.zero_add]

/-- R127: the results that lanes would give one after another, of which those that fit leave. -/
def resultsOf (n : SpLane → Nat) (result : SpLane → Nat → Rec) (ls : List SpLane) : List Rec :=
  ls.flatMap fun l => (List.range (n l)).map (result l)

/-- R127: what goes on of the lanes that were not served whole, each served as often as `served` says. -/
def restBy (n served : SpLane → Nat) (rest : SpLane → Nat → Option Rec) (ls : List SpLane) : List (Nat × Rec) :=
  ls.filterMap fun l => if served l < n l then (rest l (served l)).map fun q => (l.1, q) else none

theorem restBy_cons (n served : SpLane → Nat) (rest : SpLane → Nat → Option Rec) (l : SpLane) (ls : List SpLane) :
    restBy n served rest (l :: ls) =
      (if served l < n l then ((rest l (served l)).map fun q => (l.1, q)).toList else []) ++ restBy n served rest ls := by
  rw [restBy, List.filterMap_cons]
  split_ifs
  · cases rest l (served l) <;> rfl
  · rfl

theorem restBy_congr {n served served' : SpLane → Nat} {rest rest' : SpLane → Nat → Option Rec} {ls : List SpLane}
    (hserved : ∀ l ∈ ls, served l = served' l) (hrest : ∀ l t, t < n l → rest l t = rest' l t) :
    restBy n served rest ls = restBy n served' rest' ls :=
  List.filterMap_congr fun l hl => by
    rw [hserved l hl]
    split_ifs with ht
    · rw [hrest l _ ht]
    · rfl

/-- R127: lanes are served in order until 16 results have left. -/
theorem serveLanes_eq_of_length (n : SpLane → Nat) (result : SpLane → Nat → Rec) (rest : SpLane → Nat → Option Rec)
    {ls : List SpLane} (hls : (ls.map (·.1)).Nodup) {out : List Rec} {before : Nat} (hout : out.length = min before 16) :
    serveLanes n result rest ls out =
      (out ++ (resultsOf n result ls).take (16 - before), restBy n (servedAfter before ls n) rest ls) := by
  induction ls generalizing out before with
  | nil => simp [serveLanes, resultsOf, restBy]
  | cons l ls ih =>
    obtain ⟨hl, hls⟩ := List.nodup_cons.mp hls
    have hroom : 16 - out.length = 16 - before := by omega
    have hgiven : (List.range (min (n l) (16 - before))).map (result l) = ((List.range (n l)).map (result l)).take (16 - before) := by
      rw [← List.map_take, List.take_range, Nat.min_comm]
    have hrest : restBy n (servedAfter (before + n l) ls n) rest ls = restBy n (servedAfter before (l :: ls) n) rest ls :=
      restBy_congr (fun k hk => (servedAfter_tail (fun he => hl (List.mem_map.mpr ⟨k, hk, he.symm⟩)) before ls n).symm)
        fun _ _ _ => rfl
    have hnext := ih hls (out := out ++ (List.range (min (n l) (16 - before))).map (result l)) (before := before + n l)
      (by simp; omega)
    have hout' : out ++ (List.range (min (n l) (16 - before))).map (result l) ++ (resultsOf n result ls).take (16 - (before + n l)) =
        out ++ (resultsOf n result (l :: ls)).take (16 - before) := by
      rw [hgiven, List.append_assoc, resultsOf, resultsOf, List.flatMap_cons, List.take_append, List.length_map, List.length_range,
        Nat.sub_sub]
    rw [restBy_cons, servedAfter_head, ← hrest, ← hout', serveLanes]
    simp only [hroom, hnext]
    split_ifs
    · cases rest l (min (n l) (16 - before)) <;> rfl
    · rfl

/-- R127: the results of lanes served in order, and the records that go on, by values that hold as far as the counts go. -/
theorem serveLanes_eq {n : SpLane → Nat} {result result' : SpLane → Nat → Rec} {v v' : SpLane → Nat → W32} (sel : Sel)
    {ls : List SpLane} (hls : (ls.map (·.1)).Nodup) (hresult : ∀ l j, j < n l → result l j = result' l j)
    (hv : ∀ l t, t < n l → v l t = v' l t) :
    serveLanes n result (fun l t => withSource l.2 sel (v l t)) ls [] =
      ((ls.flatMap fun l => (List.range (n l)).map (result' l)).take 16, restOf ls n sel v') := by
  have hout : resultsOf n result ls = ls.flatMap fun l => (List.range (n l)).map (result' l) :=
    List.flatMap_congr fun l _ => List.map_congr_left fun j hj => hresult l j (List.mem_range.mp hj)
  have hlate : restBy n (servedAfter 0 ls n) (fun l t => withSource l.2 sel (v l t)) ls = restOf ls n sel v' :=
    restBy_congr (rest' := fun l t => withSource l.2 sel (v' l t)) (fun l _ => servedAfter_zero ls n l) fun l t ht => by
      rw [hv l t ht]
  rw [serveLanes_eq_of_length n result _ hls (before := 0) rfl, hout, hlate]
  rfl

theorem ofNat_toNat_add (v : W32) (j : Nat) : BitVec.ofNat 32 (v.toNat + j) = v + BitVec.ofNat 32 j := by
  rw [BitVec.ofNat_add, BitVec.ofNat_toNat, BitVec.setWidth_eq]

theorem ofNat_toNat_sub {v : W32} {j : Nat} (h : j < v.toNat) : BitVec.ofNat 32 (v.toNat - j) = v - BitVec.ofNat 32 j := by
  bv_omega

theorem ofNat_toNat_sub_add {v w : W32} {j : Nat} (h : j < w.toNat - v.toNat) :
    BitVec.ofNat 32 (w.toNat - (v.toNat + j)) = w - v - BitVec.ofNat 32 j := by
  bv_omega

/-- R126: SCAN's results are the positions of each lane with their distance from its end. -/
theorem spScan_eq (x : SiteArgs) (c : SpCore) {ls : List SpLane} (hls : (ls.map (·.1)).Nodup) :
    let A (l : SpLane) := linkVal l.2 x.selA
    let B (l : SpLane) := linkVal l.2 x.selB
    let n (l : SpLane) := (B l).toNat - (A l).toNat
    spScan x c ls = ⟨c, (ls.flatMap fun l => (List.range (n l)).map fun j =>
        spRec [A l + BitVec.ofNat 32 j, linkVal l.2 x.selC, B l - A l - BitVec.ofNat 32 j]).take 16,
      restOf ls n x.selA fun l j => A l + BitVec.ofNat 32 j, none⟩ := by
  intro A B n
  rw [spScan, serveLanes_eq x.selA hls (fun l j hj => ?results) fun l t _ => ofNat_toNat_add _ t]
  case results => rw [ofNat_toNat_add, ofNat_toNat_sub_add hj]

/-- R126: REPEAT's results are the copies of each lane with how many are left. -/
theorem spRepeat_eq (x : SiteArgs) (c : SpCore) {ls : List SpLane} (hls : (ls.map (·.1)).Nodup) :
    let B (l : SpLane) := linkVal l.2 x.selB
    let n (l : SpLane) := (B l).toNat
    spRepeat x c ls = ⟨c, (ls.flatMap fun l => (List.range (n l)).map fun j =>
        spRec [linkVal l.2 x.selA, B l - BitVec.ofNat 32 j, linkVal l.2 x.selC]).take 16,
      restOf ls n x.selB fun l j => B l - BitVec.ofNat 32 j, none⟩ := by
  intro B n
  rw [spRepeat, serveLanes_eq x.selB hls (fun l j hj => ?results) fun l _ ht => ofNat_toNat_sub (v := B l) ht]
  case results => rw [ofNat_toNat_sub hj]

/-! ## COORD (R126, R128, R129) -/

theorem pairLt_trans (p q t : W32 × W32) (hpq : pairLt p q = true) (hqt : pairLt q t = true) : pairLt p t = true := by
  simp only [pairLt, decide_eq_true_eq, ← BitVec.toNat_inj] at *
  omega

/-- R126: the pair of coordinates of a lane. -/
def pairOf (x : SiteArgs) (l : SpLane) : W32 × W32 := (linkVal l.2 x.selA, linkVal l.2 x.selB)

/-- R128: with ord the pairs of the lanes rise, from the pair before on. -/
def PairsRise (x : SiteArgs) (prev : Option (W32 × W32)) (ls : List SpLane) : Prop :=
  x.m 0 0 = 0 ∨ List.Pairwise (fun p q => pairLt p q = true) (prev.toList ++ ls.map (pairOf x))

/-- R129: with ord the pair of a lane does not exceed the one before. -/
def PairUnordered (x : SiteArgs) (prev : Option (W32 × W32)) (l : SpLane) : Prop :=
  x.m 0 0 = 1 ∧ (prev.any fun p => !pairLt p (pairOf x l)) = true

/-- R128: with bnd the coordinates of a lane are not both below their bounds. -/
def PairOutside (x : SiteArgs) (consts : List W32) (l : SpLane) : Prop :=
  x.m 1 1 = 1 ∧
    ((consts.getD (x.m 4 2) 0#32).toNat ≤ (pairOf x l).1.toNat ∨ (consts.getD (x.m 7 5) 0#32).toNat ≤ (pairOf x l).2.toNat)

/-- R128: the pair that the next one has to exceed. -/
def prevAfter (x : SiteArgs) (prev : Option (W32 × W32)) (l : SpLane) : Option (W32 × W32) :=
  if x.m 0 0 = 1 then some (pairOf x l) else prev

/-- R126: the record of a lane. -/
def pairOut (x : SiteArgs) (consts : List W32) (l : SpLane) : Rec :=
  spRec [linkVal l.2 x.selA, linkVal l.2 x.selB,
    if x.m 8 8 = 1 then linkVal l.2 x.selA * consts.getD (x.m 7 5) 0#32 + linkVal l.2 x.selB else linkVal l.2 x.selC]

section
variable {x : SiteArgs} {consts : List W32} {c : SpCore} {l : SpLane}

theorem m_zero_or_one (x : SiteArgs) (k : Nat) : x.m k k = 0 ∨ x.m k k = 1 := by
  have hbit := m_lt x k k
  rw [Nat.add_sub_cancel_left] at hbit
  omega

theorem pairsRise_cons (x : SiteArgs) (prev : Option (W32 × W32)) (l : SpLane) (ls : List SpLane) :
    PairsRise x prev (l :: ls) ↔
      ¬ PairUnordered x prev l ∧ PairsRise x (prevAfter x prev l) ls := by
  rcases m_zero_or_one x 0 with hord | hord
  · simp [PairsRise, PairUnordered, hord]
  · rw [PairsRise, PairsRise, PairUnordered, List.map_cons, pairwise_toList_append_cons pairLt_trans, prevAfter, if_pos hord]
    cases prev <;> simp [hord]

theorem spCoord_of_unordered (h : PairUnordered x c.prev l) (ls : List SpLane) :
    (spCoord x consts c (l :: ls)).fault =
      some (0x11, 1, l.1, keepN ((pairOf x l).1.toNat * 2 ^ 32 + (pairOf x l).2.toNat), 0) := by
  rw [spCoord]
  exact congrArg SpRes.fault (if_pos h)

theorem spCoord_of_outside (h : ¬ PairUnordered x c.prev l)
    (hout : PairOutside x consts l) (ls : List SpLane) :
    (spCoord x consts c (l :: ls)).fault =
      some (0x11, 2, l.1, keepN ((pairOf x l).1.toNat * 2 ^ 32 + (pairOf x l).2.toNat), 0) := by
  rw [spCoord]
  exact congrArg SpRes.fault ((if_neg h).trans (if_pos hout))

theorem spCoord_cons (h : ¬ PairUnordered x c.prev l)
    (hout : ¬ PairOutside x consts l) (ls : List SpLane) :
    spCoord x consts c (l :: ls) =
      { spCoord x consts { c with prev := prevAfter x c.prev l } ls with
        out := pairOut x consts l :: (spCoord x consts { c with prev := prevAfter x c.prev l } ls).out } := by
  rw [spCoord]
  exact (if_neg h).trans (if_neg hout)

/-- R126, R128: pairs in order and in bounds all leave. -/
theorem spCoord_eq {ls : List SpLane} (hrise : PairsRise x c.prev ls) (hin : ∀ l ∈ ls, ¬ PairOutside x consts l) :
    spCoord x consts c ls =
      ⟨{ c with prev := if x.m 0 0 = 1 then (ls.getLast?.map (pairOf x)).or c.prev else c.prev }, ls.map (pairOut x consts), [],
        none⟩ := by
  induction ls generalizing c with
  | nil => simp [spCoord]
  | cons l ls ih =>
    obtain ⟨hfirst, hrest⟩ := (pairsRise_cons x c.prev l ls).mp hrise
    obtain ⟨hl, hls⟩ := List.forall_mem_cons.mp hin
    rw [spCoord_cons hfirst hl, ih (c := { c with prev := prevAfter x c.prev l }) hrest hls, getLast?_map_cons_or]
    by_cases hord : x.m 0 0 = 1 <;> simp [prevAfter, hord]

/-- R129: lanes in order and in bounds before one that fails change nothing about its fault. -/
theorem spCoord_append_fault {pre : List SpLane} (hrise : PairsRise x c.prev pre) (hin : ∀ l ∈ pre, ¬ PairOutside x consts l)
    (ls : List SpLane) : ∃ prev, (spCoord x consts c (pre ++ ls)).fault = (spCoord x consts { c with prev := prev } ls).fault ∧
      ∀ ls', PairsRise x c.prev (pre ++ ls') ↔ PairsRise x prev ls' := by
  induction pre generalizing c with
  | nil => exact ⟨c.prev, rfl, fun _ => .rfl⟩
  | cons l pre ih =>
    obtain ⟨hfirst, hrest⟩ := (pairsRise_cons x c.prev l pre).mp hrise
    obtain ⟨hl, hpre⟩ := List.forall_mem_cons.mp hin
    obtain ⟨prev, hfault, hiff⟩ := ih (c := { c with prev := prevAfter x c.prev l }) hrest hpre
    refine ⟨prev, ?_, fun ls' => ?_⟩
    · rw [List.cons_append, spCoord_cons hfirst hl]
      exact hfault
    · rw [List.cons_append, pairsRise_cons, and_iff_right hfirst]
      exact hiff ls'

/-- R129: the first lane that is out of order, or that is in order and out of bounds, gives the fault. -/
theorem spCoord_fault {pre : List SpLane} (hrise : PairsRise x c.prev pre) (hin : ∀ l ∈ pre, ¬ PairOutside x consts l)
    (l : SpLane) (post : List SpLane) :
    let tval := keepN ((pairOf x l).1.toNat * 2 ^ 32 + (pairOf x l).2.toNat)
    (¬ PairsRise x c.prev (pre ++ [l]) → (spCoord x consts c (pre ++ l :: post)).fault = some (0x11, 1, l.1, tval, 0)) ∧
    (PairsRise x c.prev (pre ++ [l]) → PairOutside x consts l →
      (spCoord x consts c (pre ++ l :: post)).fault = some (0x11, 2, l.1, tval, 0)) := by
  obtain ⟨prev, hfault, hiff⟩ := spCoord_append_fault hrise hin (l :: post)
  have hnil (prev : Option (W32 × W32)) : PairsRise x prev [] := by cases prev <;> simp [PairsRise]
  have hone := pairsRise_cons x prev l []
  rw [and_iff_left (hnil _)] at hone
  rw [hfault, hiff, hone, not_not]
  exact ⟨fun h => spCoord_of_unordered h post, fun h hout => spCoord_of_outside h hout post⟩

end

/-! ## REDUCE (R126, R128, R129) -/

/-- R128: the key and the value of a lane. -/
def keyValue (x : SiteArgs) (l : SpLane) : W32 × W32 := (linkVal l.2 x.selA, linkVal l.2 x.selB)

/-- R128: the keys of the lanes do not fall, from the key before on. -/
def KeysKeepUp (x : SiteArgs) (last : Option W32) (ls : List SpLane) : Prop :=
  List.Pairwise (fun p q : W32 => p.toNat ≤ q.toNat) (last.toList ++ ls.map fun l => linkVal l.2 x.selA)

/-- R129: the key of a lane is below the one before. -/
def KeyFalls (x : SiteArgs) (last : Option W32) (l : SpLane) : Prop :=
  (last.any fun p => decide ((linkVal l.2 x.selA).toNat < p.toNat)) = true

/-- R126: the record of a run that is over. -/
def overRec (e : W32 × W32 × Nat) : Rec := spRec [e.1, e.2.1, BitVec.ofNat 32 e.2.2]

/-- R128: the runs that are over are listed in order, whatever was listed before. -/
theorem foldl_foldRun_append (x : SiteArgs) (fz : Bool) (es : List (W32 × W32)) (ended : List (W32 × W32 × Nat))
    (run : Option (W32 × W32 × Nat)) :
    es.foldl (foldRun x fz) (ended, run) =
      (ended ++ (es.foldl (foldRun x fz) ([], run)).1, (es.foldl (foldRun x fz) ([], run)).2) := by
  have hone (ended : List (W32 × W32 × Nat)) (run : Option (W32 × W32 × Nat)) (e : W32 × W32) :
      foldRun x fz (ended, run) e = (ended ++ (foldRun x fz ([], run) e).1, (foldRun x fz ([], run) e).2) := by
    cases run with
    | none => simp [foldRun]
    | some q =>
      simp only [foldRun]
      split_ifs <;> simp
  induction es generalizing ended run with
  | nil => simp
  | cons e es ih =>
    rw [List.foldl_cons, List.foldl_cons, ih, hone, ih (foldRun x fz ([], run) e).1, List.append_assoc]

section
variable {x : SiteArgs} {fz : Bool} {c : SpCore} {l : SpLane}

theorem keysKeepUp_cons (x : SiteArgs) (last : Option W32) (l : SpLane) (ls : List SpLane) :
    KeysKeepUp x last (l :: ls) ↔ ¬ KeyFalls x last l ∧ KeysKeepUp x (some (linkVal l.2 x.selA)) ls := by
  have hcons := pairwise_toList_append_cons (R := fun p q : W32 => p.toNat ≤ q.toNat) fun _ _ _ => Nat.le_trans
  rw [KeysKeepUp, KeysKeepUp, KeyFalls, List.map_cons, hcons]
  cases last <;> simp

theorem spReduce_of_falls (h : KeyFalls x c.lastK l) (ls : List SpLane) :
    (spReduce x fz c (l :: ls)).fault = some (0x11, 1, l.1, (linkVal l.2 x.selA).setWidth 64, 0) := by
  rw [KeyFalls] at h
  rw [spReduce, if_pos h]

/-- R128: a key that does not fall goes into the open run, or ends it. -/
theorem spReduce_cons (h : ¬ KeyFalls x c.lastK l) (ls : List SpLane) :
    let f := foldRun x fz ([], c.run) (keyValue x l)
    let q := spReduce x fz { c with run := f.2, lastK := some (linkVal l.2 x.selA) } ls
    spReduce x fz c (l :: ls) = { q with out := f.1.map overRec ++ q.out } := by
  rw [KeyFalls] at h
  rw [spReduce, if_neg h]
  cases hrun : c.run with
  | none => rfl
  | some e =>
    obtain ⟨k, v, n⟩ := e
    by_cases hk : k = linkVal l.2 x.selA
    · simp [foldRun, keyValue, hk]
    · simp [foldRun, keyValue, hk, overRec, runRec, readAs, asRead]

/-- R126, R128: with keys that do not fall the runs that are over leave and the open one stays. -/
theorem spReduce_eq {ls : List SpLane} (h : KeysKeepUp x c.lastK ls) :
    let f := (ls.map (keyValue x)).foldl (foldRun x fz) ([], c.run)
    spReduce x fz c ls =
      ⟨{ c with run := f.2, lastK := (ls.getLast?.map fun l => linkVal l.2 x.selA).or c.lastK }, f.1.map overRec, [], none⟩ := by
  induction ls generalizing c with
  | nil => simp [spReduce]
  | cons l ls ih =>
    obtain ⟨hfirst, hrest⟩ := (keysKeepUp_cons x c.lastK l ls).mp h
    rw [List.map_cons, List.foldl_cons, foldl_foldRun_append, getLast?_map_cons_or, spReduce_cons hfirst,
      ih (c := { c with run := (foldRun x fz ([], c.run) (keyValue x l)).2, lastK := some (linkVal l.2 x.selA) }) hrest]
    simp only [List.map_append]

/-- R129: the first key that falls gives the fault. -/
theorem spReduce_fault {pre : List SpLane} (hpre : KeysKeepUp x c.lastK pre) {l : SpLane}
    (hl : ¬ KeysKeepUp x c.lastK (pre ++ [l])) (post : List SpLane) :
    (spReduce x fz c (pre ++ l :: post)).fault = some (0x11, 1, l.1, (linkVal l.2 x.selA).setWidth 64, 0) := by
  induction pre generalizing c with
  | nil =>
    have hnil : KeysKeepUp x (some (linkVal l.2 x.selA)) [] := by simp [KeysKeepUp]
    rw [List.nil_append, keysKeepUp_cons, and_iff_left hnil, not_not] at hl
    exact spReduce_of_falls hl post
  | cons k pre ih =>
    obtain ⟨hfirst, hrest⟩ := (keysKeepUp_cons x c.lastK k pre).mp hpre
    rw [List.cons_append, keysKeepUp_cons, and_iff_right hfirst] at hl
    rw [List.cons_append, spReduce_cons hfirst]
    exact ih (c := { c with run := (foldRun x fz ([], c.run) (keyValue x k)).2, lastK := some (linkVal k.2 x.selA) }) hrest hl

end

/-! ## TOPK (R126, R128) -/

/-- R128: the place of a score in the ranking, the least first: numbers before NaNs. -/
def scoreRank (ty : Nat) (asc : Bool) (v : W32) : Bool ×ₗ Int :=
  let p := scoreKey ty v
  toLex (if p.1 then (true, 0) else (false, if asc then p.2 else -p.2))

/-- R128: the entry p may stand before q. -/
def topLe (ty : Nat) (asc : Bool) (p q : W32 × W32) : Bool := !ahead ty asc q.1 p.1

theorem ahead_iff (ty : Nat) (asc : Bool) (v w : W32) : ahead ty asc v w = true ↔ scoreRank ty asc v < scoreRank ty asc w := by
  unfold ahead scoreRank
  rcases scoreKey ty v with ⟨nanV, keyV⟩
  rcases scoreKey ty w with ⟨nanW, keyW⟩
  cases nanV <;> cases nanW <;> cases asc <;> simp [Prod.Lex.toLex_lt_toLex]

theorem topLe_iff (ty : Nat) (asc : Bool) (p q : W32 × W32) :
    topLe ty asc p q = true ↔ scoreRank ty asc p.1 ≤ scoreRank ty asc q.1 := by
  rw [topLe, Bool.not_eq_true', ← Bool.not_eq_true, ahead_iff, not_lt]

section
variable {α : Type} {le : α → α → Bool}

theorem orderedInsert_append {a : α} {before after : List α} (hbefore : ∀ b ∈ before, ¬ le a b = true)
    (hafter : ∀ b ∈ after, le a b = true) :
    (before ++ after).orderedInsert (fun p q => le p q = true) a = before ++ a :: after := by
  induction before with
  | nil =>
    cases after with
    | nil => rfl
    | cons b after => exact if_pos (hafter b List.mem_cons_self)
  | cons b before ih =>
    obtain ⟨hb, hbefore⟩ := List.forall_mem_cons.mp hbefore
    exact (if_neg hb).trans (congrArg (List.cons b) (ih hbefore))

/-- A merge sort puts the first entry before the first of the others that it may stand before. -/
theorem mergeSort_cons_eq_orderedInsert (htrans : ∀ a b c, le a b = true → le b c = true → le a c = true)
    (htotal : ∀ a b, (le a b || le b a) = true) (a : α) (l : List α) :
    (a :: l).mergeSort le = (l.mergeSort le).orderedInsert (fun p q => le p q = true) a := by
  obtain ⟨before, after, hcons, hl, hbefore⟩ := List.mergeSort_cons htrans htotal a l
  have hsorted := List.pairwise_mergeSort htrans htotal (a :: l)
  rw [hcons, List.pairwise_append, List.pairwise_cons] at hsorted
  obtain ⟨-, ⟨hafter, -⟩, -⟩ := hsorted
  rw [hcons, hl, orderedInsert_append (fun b hb => by simpa using hbefore b hb) hafter]

end

section
variable (ty : Nat) (asc : Bool)

/-- R128: an entry goes before its equals, as `topInsert` puts one behind them. -/
def topPut (p : W32 × W32) (t : List (W32 × W32)) : List (W32 × W32) :=
  t.orderedInsert (fun p q => topLe ty asc p q = true) p

theorem topPut_cons (p q : W32 × W32) (t : List (W32 × W32)) :
    topPut ty asc p (q :: t) =
      if scoreRank ty asc p.1 ≤ scoreRank ty asc q.1 then p :: q :: t else q :: topPut ty asc p t := by
  rw [topPut, List.orderedInsert, topPut]
  exact if_congr (topLe_iff ..) rfl rfl

theorem topInsert_cons (e q : W32 × W32) (t : List (W32 × W32)) :
    topInsert ty asc e (q :: t) =
      if scoreRank ty asc e.1 < scoreRank ty asc q.1 then e :: q :: t else q :: topInsert ty asc e t :=
  if_congr (ahead_iff ..) rfl rfl

/-- R128: two entries, one put behind its equals and one before them, find their places in either order. -/
theorem topInsert_topPut (e p : W32 × W32) (t : List (W32 × W32)) :
    topInsert ty asc e (topPut ty asc p t) = topPut ty asc p (topInsert ty asc e t) := by
  have hput : topPut ty asc p [] = [p] := rfl
  have hinsert : topInsert ty asc e [] = [e] := rfl
  induction t with
  | nil =>
    rw [hput, hinsert, topInsert_cons, topPut_cons, hput, hinsert]
    by_cases hep : scoreRank ty asc e.1 < scoreRank ty asc p.1
    · rw [if_pos hep, if_neg (not_le.mpr hep)]
    · rw [if_neg hep, if_pos (not_lt.mp hep)]
  | cons q t ih =>
    rw [topPut_cons, topInsert_cons]
    by_cases hpq : scoreRank ty asc p.1 ≤ scoreRank ty asc q.1 <;> by_cases heq : scoreRank ty asc e.1 < scoreRank ty asc q.1
    · by_cases hep : scoreRank ty asc e.1 < scoreRank ty asc p.1
      · simp [topPut_cons, topInsert_cons, hpq, heq, hep]
      · simp [topPut_cons, topInsert_cons, hpq, heq, hep, not_lt.mp hep]
    · have hpe := hpq.trans (not_lt.mp heq)
      simp [topPut_cons, topInsert_cons, hpq, heq, not_lt.mpr hpe]
    · have hep := heq.trans (not_le.mp hpq)
      simp [topPut_cons, topInsert_cons, hpq, heq, not_le.mpr hep]
    · simp [topPut_cons, topInsert_cons, hpq, heq, ih]

theorem topLe_trans (p q t : W32 × W32) (hpq : topLe ty asc p q = true) (hqt : topLe ty asc q t = true) :
    topLe ty asc p t = true := by
  rw [topLe_iff] at *
  exact hpq.trans hqt

theorem topLe_total (p q : W32 × W32) : (topLe ty asc p q || topLe ty asc q p) = true := by
  rw [Bool.or_eq_true, topLe_iff, topLe_iff]
  exact le_total _ _

/-- R128: an entry put behind its equals is an entry that came last. -/
theorem topInsert_mergeSort (l : List (W32 × W32)) (e : W32 × W32) :
    topInsert ty asc e (l.mergeSort (topLe ty asc)) = (l ++ [e]).mergeSort (topLe ty asc) := by
  have hcons := mergeSort_cons_eq_orderedInsert (topLe_trans ty asc) (topLe_total ty asc)
  induction l with
  | nil => simp [topInsert]
  | cons p l ih =>
    rw [hcons, List.cons_append, hcons, ← ih]
    exact topInsert_topPut ty asc e p _

/-- R128: what is beyond the best k stays beyond them. -/
theorem take_topInsert_take (e : W32 × W32) (t : List (W32 × W32)) (k : Nat) :
    (topInsert ty asc e (t.take k)).take k = (topInsert ty asc e t).take k := by
  induction t generalizing k with
  | nil => simp
  | cons q t ih =>
    cases k with
    | zero => rfl
    | succ k =>
      rw [List.take_succ_cons, topInsert, topInsert]
      split_ifs
      · simp [List.take_take, ← List.take_succ_cons]
      · rw [List.take_succ_cons, List.take_succ_cons, ih]

/-- R128: entries that come one by one, of which the best k are kept, leave the best k of them all. -/
theorem foldl_topInsert_take (k : Nat) (es l : List (W32 × W32)) :
    es.foldl (fun t e => (topInsert ty asc e t).take k) ((l.mergeSort (topLe ty asc)).take k) =
      ((l ++ es).mergeSort (topLe ty asc)).take k := by
  induction es generalizing l with
  | nil => rw [List.append_nil, List.foldl_nil]
  | cons e es ih =>
    rw [List.foldl_cons, take_topInsert_take, topInsert_mergeSort, ih, List.append_assoc, List.singleton_append]

end

/-- R126, R128: the list of TOPK stays the best of all that have come. -/
theorem spTopk_eq (x : SiteArgs) (fz : Bool) {c : SpCore} (ls : List SpLane)
    (hsorted : List.Pairwise (fun p q => topLe x.tyN (x.m 6 6 == 1) p q = true) c.top) (hlen : c.top.length ≤ x.m 5 0 + 1) :
    spTopk x fz c ls = ⟨{ c with top := ((c.top ++ ls.map fun l => (readAs x fz (linkVal l.2 x.selA), linkVal l.2 x.selB)).mergeSort
      (topLe x.tyN (x.m 6 6 == 1))).take (x.m 5 0 + 1) }, [], [], none⟩ := by
  have htop := foldl_topInsert_take x.tyN (x.m 6 6 == 1) (x.m 5 0 + 1)
    (ls.map fun l => (readAs x fz (linkVal l.2 x.selA), linkVal l.2 x.selB)) c.top
  rw [List.mergeSort_of_pairwise hsorted, List.take_of_length_le hlen, List.foldl_map] at htop
  rw [← htop]
  rfl

/-! ## SPVAL (R126, R128, R129) -/

/-- R126: the elements of a tile: each place that a row mask names, with the field that its lane carries. -/
def tileElems (x : SiteArgs) (ls : List SpLane) : List (Nat × W32) :=
  ls.flatMap fun l => ((List.range 16).filter (linkVal l.2 x.selA).getLsbD).map fun j => (16 * l.1 + j, linkVal l.2 x.selC)

theorem filterMap_range_getElem? {α β : Type} (l : List α) (f : Nat → α → β) :
    ((List.range l.length).filterMap fun j => (l[j]?).map (f j)) = l.zipIdx.map fun e => f e.2 e.1 := by
  induction l using List.reverseRecOn with
  | nil => rfl
  | append_singleton l a ih =>
    have hinit : ((List.range l.length).filterMap fun j => ((l ++ [a])[j]?).map (f j)) = l.zipIdx.map fun e => f e.2 e.1 := by
      rw [← ih]
      exact List.filterMap_congr fun j hj => by rw [List.getElem?_append_left (List.mem_range.mp hj)]
    rw [List.length_append, List.length_singleton, List.range_succ, List.filterMap_append, hinit, List.zipIdx_append]
    simp

section
variable {x : SiteArgs} {c : SpCore} {l0 : SpLane} {rest : List SpLane}

/-- R128: the row masks of a tile add up to its stated length, which all lanes state alike. -/
theorem spSpval_cond_iff : (((l0 :: rest).all fun l => linkVal l.2 x.selB == linkVal l0.2 x.selB) &&
      decide ((tileElems x (l0 :: rest)).length = (linkVal l0.2 x.selB).toNat ∧ (linkVal l0.2 x.selB).toNat ≤ 256)) = true ↔
    (tileElems x (l0 :: rest)).length = (linkVal l0.2 x.selB).toNat ∧ (tileElems x (l0 :: rest)).length ≤ 256 ∧
      ∀ l ∈ rest, linkVal l.2 x.selB = linkVal l0.2 x.selB := by
  simp only [List.all_cons, beq_self_eq_true, Bool.true_and, Bool.and_eq_true, List.all_eq_true, beq_iff_eq, decide_eq_true_eq]
  constructor
  · rintro ⟨hsame, hlen, hmax⟩
    exact ⟨hlen, hlen ▸ hmax, hsame⟩
  · rintro ⟨hlen, hmax, hsame⟩
    exact ⟨hsame, hlen, hlen ▸ hmax⟩

theorem spSpval_eq (hlen : (tileElems x (l0 :: rest)).length = (linkVal l0.2 x.selB).toNat)
    (hmax : (tileElems x (l0 :: rest)).length ≤ 256) (hsame : ∀ l ∈ rest, linkVal l.2 x.selB = linkVal l0.2 x.selB) :
    spSpval x c (l0 :: rest) =
      ⟨c, (tileElems x (l0 :: rest)).zipIdx.map fun e => spRec [BitVec.ofNat 32 e.1.1, BitVec.ofNat 32 e.2, e.1.2], [], none⟩ := by
  rw [← filterMap_range_getElem? _ fun j (e : Nat × W32) => spRec [BitVec.ofNat 32 e.1, BitVec.ofNat 32 j, e.2]]
  exact if_pos (spSpval_cond_iff.mpr ⟨hlen, hmax, hsame⟩)

theorem spSpval_fault (h : (tileElems x (l0 :: rest)).length ≠ (linkVal l0.2 x.selB).toNat ∨
      256 < (tileElems x (l0 :: rest)).length ∨ ∃ l ∈ rest, linkVal l.2 x.selB ≠ linkVal l0.2 x.selB) :
    (spSpval x c (l0 :: rest)).fault = some (0x10, 0, l0.1, (linkVal l0.2 x.selB).setWidth 64, (linkVal l0.2 x.selC).toNat) := by
  refine congrArg SpRes.fault (if_neg fun hcond => ?_)
  obtain ⟨hlen, hmax, hsame⟩ := spSpval_cond_iff.mp hcond
  rcases h with h | h | ⟨l, hl, hdiff⟩
  · exact h hlen
  · exact absurd hmax (Nat.not_le.mpr h)
  · exact hdiff (hsame l hl)

end

/-! ## ISECT and UNION (R126, R128) -/

theorem sideKeys_eq_keysOf (got : List (Nat × Bundle)) (i : Nat) (key : Sel) (pay : Rec → W32) :
    sideKeys got i key pay = keysOf ((got.find? fun e => decide (e.1 = i)).map (·.2)) (selField key) pay := by
  unfold sideKeys keysOf
  cases got.find? fun e => decide (e.1 = i) <;> rfl

/-- R128: keys that rise come into the window. -/
theorem spArrive_of_rises {last : Option W32} {es : List (Nat × W32 × W32)} (h : RisesAfter last (es.map fun e => e.2.1)) :
    spArrive last es = .ok (es.map fun e => spHeld e.2.1 e.2.2, ((es.map fun e => e.2.1).getLast?).or last) := by
  induction es generalizing last with
  | nil => rfl
  | cons e es ih =>
    obtain ⟨lane, key, pay⟩ := e
    have hcons := pairwise_toList_append_cons (R := fun p q : W32 => p.toNat < q.toNat) fun _ _ _ => Nat.lt_trans
    obtain ⟨hfirst, hrest⟩ := (hcons ..).mp h
    have hrises : ¬ (last.any fun p => decide (key.toNat ≤ p.toNat)) = true := by
      simpa [Option.any_eq_true] using hfirst
    have hlast := getLast?_map_cons_or id key (es.map fun e => e.2.1) last
    simp only [Option.map_id_fun, id] at hlast
    rw [spArrive, if_neg hrises, ih hrest, List.map_cons, List.map_cons, hlast]

/-- R128: a decided key leaves, and the others follow. -/
def keyLeaves (union : Bool) (a b : Option Rec) (q : List Rec × List Rec × List Rec) : List Rec × List Rec × List Rec :=
  ((pairRec union a b).toList ++ q.1, q.2)

section
variable (union : Bool) (la lb : Option W32) (da db : Bool) (n : Nat) (a b : Rec) (wa wb : List Rec)

theorem decide2_cons_nil : decide2 union la lb da db (n + 1) (a :: wa) [] =
    if keyDecided a lb db then keyLeaves union (some a) none (decide2 union la lb da db n wa []) else ([], a :: wa, []) := rfl

theorem decide2_nil_cons : decide2 union la lb da db (n + 1) [] (b :: wb) =
    if keyDecided b la da then keyLeaves union none (some b) (decide2 union la lb da db n [] wb) else ([], [], b :: wb) := rfl

theorem decide2_cons_cons : decide2 union la lb da db (n + 1) (a :: wa) (b :: wb) =
    if (heldKey a).toNat < (heldKey b).toNat then keyLeaves union (some a) none (decide2 union la lb da db n wa (b :: wb))
    else if (heldKey b).toNat < (heldKey a).toNat then keyLeaves union none (some b) (decide2 union la lb da db n (a :: wa) wb)
    else keyLeaves union (some a) (some b) (decide2 union la lb da db n wa wb) := rfl

theorem pairRec_onlyA : (pairRec union (some a) none).toList =
    if union then [spRec [heldKey a, heldPay a, 0xFFFFFFFF#32, 1#32]] else [] := by cases union <;> rfl

theorem pairRec_onlyB : (pairRec union none (some b)).toList =
    if union then [spRec [heldKey b, 0xFFFFFFFF#32, heldPay b, 2#32]] else [] := by cases union <;> rfl

theorem pairRec_both : (pairRec union (some a) (some b)).toList =
    [if union then spRec [heldKey a, heldPay a, heldPay b, 3#32] else spRec [heldKey a, heldPay a, heldPay b]] := by
  cases union <;> rfl

end

/-- R128: what `Decides` says of the windows is what the model makes of them, given enough steps. -/
theorem decide2_of_decides {union : Bool} {la lb : Option W32} {da db : Bool} {wa wb out ka kb : List Rec}
    (h : Decides union la lb da db wa wb out ka kb) {n : Nat} (hn : wa.length + wb.length ≤ n) :
    decide2 union la lb da db n wa wb = (out, ka, kb) := by
  induction h generalizing n with
  | none => cases n <;> rfl
  | waitA a wa k =>
    obtain ⟨n, rfl⟩ := Nat.exists_eq_add_one.mpr (show 0 < n by grind)
    rw [decide2_cons_nil, k]
    rfl
  | waitB b wb k =>
    obtain ⟨n, rfl⟩ := Nat.exists_eq_add_one.mpr (show 0 < n by grind)
    rw [decide2_nil_cons, k]
    rfl
  | onlyA a wa wb out ka kb hfirst k _ ih =>
    obtain ⟨n, rfl⟩ := Nat.exists_eq_add_one.mpr (show 0 < n by grind)
    rw [← pairRec_onlyA]
    cases wb with
    | nil => rw [decide2_cons_nil, if_pos (k rfl), ih (by grind), keyLeaves]
    | cons b wb => rw [decide2_cons_cons, if_pos (hfirst b rfl), ih (by grind), keyLeaves]
  | onlyB b wa wb out ka kb hfirst k _ ih =>
    obtain ⟨n, rfl⟩ := Nat.exists_eq_add_one.mpr (show 0 < n by grind)
    rw [← pairRec_onlyB]
    cases wa with
    | nil => rw [decide2_nil_cons, if_pos (k rfl), ih (by grind), keyLeaves]
    | cons a wa => rw [decide2_cons_cons, if_neg (hfirst a rfl).not_gt, if_pos (hfirst a rfl), ih (by grind), keyLeaves]
  | both a b wa wb out ka kb hkey _ ih =>
    obtain ⟨n, rfl⟩ := Nat.exists_eq_add_one.mpr (show 0 < n by grind)
    rw [decide2_cons_cons, hkey, if_neg (lt_irrefl _), if_neg (lt_irrefl _), ih (by grind), keyLeaves, pairRec_both, hkey]
    rfl

theorem spPair_eq {union da db : Bool} {c : SpCore} {as bs : List (Nat × W32 × W32)}
    (has : RisesAfter c.lastA (as.map fun e => e.2.1)) (hbs : RisesAfter c.lastB (bs.map fun e => e.2.1)) {out ka kb : List Rec}
    (hdec : Decides union (((as.map fun e => e.2.1).getLast?).or c.lastA) (((bs.map fun e => e.2.1).getLast?).or c.lastB) da db
      (c.winA ++ as.map fun e => spHeld e.2.1 e.2.2) (c.winB ++ bs.map fun e => spHeld e.2.1 e.2.2) out ka kb)
    (hka : ka.length ≤ 64) (hkb : kb.length ≤ 64) :
    spPair union da db c as bs = ⟨{ c with
      winA := ka
      winB := kb
      lastA := ((as.map fun e => e.2.1).getLast?).or c.lastA
      lastB := ((bs.map fun e => e.2.1).getLast?).or c.lastB }, out, [], none⟩ := by
  simp only [spPair, spArrive_of_rises has, spArrive_of_rises hbs, decide2_of_decides hdec le_rfl,
    List.getElem?_eq_none hka, List.getElem?_eq_none hkb, Option.map_none]

theorem takeHeads_core (st : Site) : st.takeHeads.2.core = st.core := by
  have hset (got : List (Nat × Bundle)) (t : Site) :
      (got.foldl (fun t e => t.setQ e.1 (popBody (t.q e.1))) t).core = t.core := by
    induction got generalizing t with
    | nil => rfl
    | cons e got ih => exact ih _
  exact hset _ st

theorem spBoth_of_siteAt {s : State} {i : Instr} {a : SiteRef} {x : SiteArgs} {r : Run} {st : Site} (h : SiteAt s i a r st)
    (hready : st.joined = true ∨ st.pairWork = true ∨ r.quietFor st.key = true) (union : Bool) :
    spBoth i union a x s = .next ((s.spDone a.task st.takeHeads.2 (sideAbsent st.takeHeads.1) false
      ((pairStep union x st.takeHeads.2 st.takeHeads.1).twoBundles st.takeHeads.2.core.sp.todo)).wakeSite a.task
        (siteKey a.row a.col)) := by
  have hgo : ¬ (!st.joined && !st.pairWork && !r.quietFor st.key) = true := by
    rcases hready with hj | hp | hq <;> simp [*]
  rw [spBoth, withEvent_of_siteAt h, if_neg hgo, takeHeads_core]

/-- R126: the payload of an i0 record. -/
def pairPayA (x : SiteArgs) (q : Rec) : W32 := match x.selC with | .link _ f => q.flds.getD f 0#32 | _ => 0#32

/-- R126: the payload of an i1 record. -/
def pairPayB (x : SiteArgs) (q : Rec) : W32 := if x.m 3 3 = 1 then q.flds.getD (x.m 2 0) 0#32 else 0#32

theorem pairStep_eq (union : Bool) (x : SiteArgs) (st : Site) (got : List (Nat × Bundle)) :
    pairStep union x st got = spPair union (hasDusk (st.q 0)) (hasDusk (st.q 1)) st.core.sp
      (keysOf ((got.find? fun e => decide (e.1 = 0)).map (·.2)) (selField x.selA) (pairPayA x))
      (keysOf ((got.find? fun e => decide (e.1 = 1)).map (·.2)) (selField x.selB) (pairPayB x)) := by
  rw [← sideKeys_eq_keysOf, ← sideKeys_eq_keysOf]
  rfl

section
variable (a : SiteRef) (x : SiteArgs) (s : State)

theorem exec_scan_eq : exec (.scan a x) s = spJoin (.scan a x) a false s fun _ _ c ls => spScan x c ls := rfl

theorem exec_repeat_eq : exec (.repeat a x) s = spJoin (.repeat a x) a false s fun _ _ c ls => spRepeat x c ls := rfl

theorem exec_coord_eq : exec (.coord a x) s = spJoin (.coord a x) a false s fun _ st c ls => spCoord x st.consts c ls := rfl

theorem exec_reduce_eq : exec (.reduce a x) s = spJoin (.reduce a x) a false s fun r _ c ls => spReduce x r.fz c ls := rfl

theorem exec_topk_eq : exec (.topk a x) s = spJoin (.topk a x) a false s fun r _ c ls => spTopk x r.fz c ls := rfl

theorem exec_spval_eq : exec (.spval a x) s = spJoin (.spval a x) a true s fun _ _ c ls => spSpval x c ls := rfl

/-- The word of ISECT, or of UNION. -/
def pairWord (union : Bool) : Instr := if union then .union a x else .isect a x

theorem exec_pairWord_eq (union : Bool) : exec (pairWord a x union) s = spBoth (pairWord a x union) union a x s := by
  cases union <;> rfl

end

/-- Settles O48, operation by operation: what each sends, keeps or faults with, for the lanes it has taken. -/
theorem sparseSitesServeOrderAndReduce : Obligations.SparseSitesServeOrderAndReduce := by
  unfold Obligations.SparseSitesServeOrderAndReduce
  intro a x s r st st0 ls gone A B C c
  refine ⟨fun h => ?scan, fun h => ?repeats, fun h => ⟨fun hrise hin => ?coord, fun pre l post hls hrise hin => ?coordFault⟩,
    fun h => ⟨fun hrise => ?reduce, fun pre l post hls hpre hl => ?reduceFault⟩, fun h => ?topk, fun h hls => ?spvalEmpty,
    fun h l0 rest hls => ⟨fun hlen hmax hsame => ?spval, fun hbad => ?spvalFault⟩, fun union => ?pair⟩
  case scan => exact sends_of_takes h (exec_scan_eq a x s) (spScan_eq x c (nodup_lanes_of_takes h))
  case repeats => exact sends_of_takes h (exec_repeat_eq a x s) (spRepeat_eq x c (nodup_lanes_of_takes h))
  case coord => exact sends_of_takes h (exec_coord_eq a x s) (spCoord_eq hrise hin)
  case coordFault =>
    subst hls
    obtain ⟨hunordered, houtside⟩ := spCoord_fault hrise hin l post
    exact ⟨fun hl => faults_of_takes h (exec_coord_eq a x s) (hunordered hl),
      fun hl hout => faults_of_takes h (exec_coord_eq a x s) (houtside hl hout)⟩
  case reduce => exact sends_of_takes h (exec_reduce_eq a x s) (spReduce_eq hrise)
  case reduceFault =>
    subst hls
    exact faults_of_takes h (exec_reduce_eq a x s) (spReduce_fault hpre hl post)
  case topk =>
    intro le hsorted hlen
    exact sends_of_takes h (exec_topk_eq a x s) (spTopk_eq x r.fz ls hsorted hlen)
  case spvalEmpty =>
    subst hls
    exact ⟨_, sendsWhole_of_takes h (exec_spval_eq a x s) rfl, rfl⟩
  case spval =>
    subst hls
    exact ⟨_, sendsWhole_of_takes h (exec_spval_eq a x s) (spSpval_eq hlen hmax hsame), rfl⟩
  case spvalFault =>
    subst hls
    exact faults_of_takes h (exec_spval_eq a x s) (spSpval_fault hbad)
  case pair =>
    intro i hsite hready hst0 got pay as bs key la lb has hbs out ka kb hdec hka hkb
    subst hst0
    have hstep : pairStep union x st.takeHeads.2 st.takeHeads.1 =
        ⟨{ c with winA := ka, winB := kb, lastA := la, lastB := lb }, out, [], none⟩ :=
      (pairStep_eq ..).trans (spPair_eq has hbs hdec hka hkb)
    refine ⟨_, (exec_pairWord_eq a x s union).trans (spBoth_of_siteAt hsite hready union), ?_⟩
    rw [hstep]
    rfl

end Sys2Proof.Machine
end

section
/-! PROOFS. Memory as data (O32): every step keeps physical memory in canonical form. A step carries out one plan; the
plan keeps the form (`plan_memoryOk`), and so does the meaning of each instruction and event (`exec_memoryOk`), each arm
of the dispatch by its own lemma of Laws/KeepsMemoryExec. -/

namespace Sys2Proof.Machine

/-! ## Every meaning keeps the form -/

theorem MemoryOk.of_mem_eq {s t : State} (hs : MemoryOk s) (h : t.mem = s.mem) : MemoryOk t := by
  rw [MemoryOk, h]
  exact hs

/-- A meaning that leaves memory as it is keeps its form. -/
theorem memoryOk_of_mem_eq {s : State} {r : Result} (hs : MemoryOk s) (hr : ∀ t, r = .next t → t.mem = s.mem) :
    ∀ t, r = .next t → MemoryOk t :=
  fun t ht => hs.of_mem_eq (hr t ht)

/-- One arm per instruction, as the dispatch has them. -/
theorem exec_memoryOk (i : Instr) {s : State} (hw : MemoryOk s) : ∀ t, exec i s = .next t → MemoryOk t :=
  match i with
  | .add d a b ta tb => execAdd_wf d a b ta tb s hw
  | .sub d a b ta tb => execSub_wf d a b ta tb s hw
  | .and d a b ta tb => execAnd_wf d a b ta tb s hw
  | .or d a b ta tb => execOr_wf d a b ta tb s hw
  | .xor d a b ta tb => execXor_wf d a b ta tb s hw
  | .sll d a b ta tb => execSll_wf d a b ta tb s hw
  | .srl d a b ta tb => execSrl_wf d a b ta tb s hw
  | .sra d a b ta tb => execSra_wf d a b ta tb s hw
  | .slt d a b ta tb => execSlt_wf d a b ta tb s hw
  | .sltu d a b ta tb => execSltu_wf d a b ta tb s hw
  | .min d a b ta tb => execMin_wf d a b ta tb s hw
  | .max d a b ta tb => execMax_wf d a b ta tb s hw
  | .minu d a b ta tb => execMinu_wf d a b ta tb s hw
  | .maxu d a b ta tb => execMaxu_wf d a b ta tb s hw
  | .mul d a b ta tb => execMul_wf d a b ta tb s hw
  | .mulh d a b ta tb => execMulh_wf d a b ta tb s hw
  | .mulhu d a b ta tb => execMulhu_wf d a b ta tb s hw
  | .div d a b ta tb => execDiv_wf d a b ta tb s hw
  | .divu d a b ta tb => execDivu_wf d a b ta tb s hw
  | .rem d a b ta tb => execRem_wf d a b ta tb s hw
  | .remu d a b ta tb => execRemu_wf d a b ta tb s hw
  | .clz d a ta => execClz_wf d a ta s hw
  | .ctz d a ta => execCtz_wf d a ta s hw
  | .popc d a ta => execPopc_wf d a ta s hw
  | .sext d a ta z => execSext_wf d a ta z s hw
  | .zext d a ta z => execZext_wf d a ta z s hw
  | .mke d => memoryOk_of_mem_eq hw (execMke_mem d s)
  | .full d a => memoryOk_of_mem_eq hw (execFull_mem d a s)
  | .addpc d imm => memoryOk_of_mem_eq hw (execAddpc_mem d imm s)
  | .addi d a ta imm => execAddi_wf d a ta imm s hw
  | .andi d a ta imm => execAndi_wf d a ta imm s hw
  | .ori d a ta imm => execOri_wf d a ta imm s hw
  | .xori d a ta imm => execXori_wf d a ta imm s hw
  | .slti d a ta imm => execSlti_wf d a ta imm s hw
  | .sltiu d a ta imm => execSltiu_wf d a ta imm s hw
  | .slli d a ta h => execSlli_wf d a ta h s hw
  | .srli d a ta h => execSrli_wf d a ta h s hw
  | .srai d a ta h => execSrai_wf d a ta h s hw
  | .bfx d a ta w p => execBfx_wf d a ta w p s hw
  | .bfi d a ta w p => execBfi_wf d a ta w p s hw
  | .lih d imm => memoryOk_of_mem_eq hw (execLih_mem d imm s)
  | .ld d a ta z o => execLd_wf d a ta z o s hw
  | .lda d a ta z o => execLda_wf d a ta z o s hw
  | .st b a ta tb z o => execSt_wf b a ta tb z o s hw
  | .str b a ta tb z o => execStr_wf b a ta tb z o s hw
  | .fence e f g h c => memoryOk_of_mem_eq hw (execFence_mem e f g h c s)
  | .flush a ta o => execFlush_wf a ta o s hw
  | .beq b a ta tb imm => execBeq_wf b a ta tb imm s hw
  | .bne b a ta tb imm => execBne_wf b a ta tb imm s hw
  | .blt b a ta tb imm => execBlt_wf b a ta tb imm s hw
  | .bge b a ta tb imm => execBge_wf b a ta tb imm s hw
  | .bltu b a ta tb imm => execBltu_wf b a ta tb imm s hw
  | .bgeu b a ta tb imm => execBgeu_wf b a ta tb imm s hw
  | .jal d imm => memoryOk_of_mem_eq hw (execJal_mem d imm s)
  | .jalr d a ta o => execJalr_wf d a ta o s hw
  | .loop a ta l => execLoop_wf a ta l s hw
  | .pause n => memoryOk_of_mem_eq hw (execPause_mem n s)
  | .atom d a b ta tb o z c => execAtom_wf d a b ta tb o z c s hw
  | .atomr d a b ta tb n c => execAtomr_wf d a b ta tb n c s hw
  | .red a b ta tb o z c => execRed_wf a b ta tb o z c s hw
  | .binit a b ta tb c => execBinit_wf a b ta tb c s hw
  | .binv a ta c => execBinv_wf a ta c s hw
  | .arrive d a ta c => execArrive_wf d a ta c s hw
  | .testph d a b ta tb c => execTestph_wf d a b ta tb c s hw
  | .waitph d a b ta tb c => execWaitph_wf d a b ta tb c s hw
  | .sigop d a b ta tb o z c => execSigop_wf d a b ta tb o z c s hw
  | .watch d a b ta tb m z c => execWatch_wf d a b ta tb m z c s hw
  | .futrd d a ta z c => execFutrd_wf d a ta z c s hw
  | .futwr a b ta tb z c => execFutwr_wf a b ta tb z c s hw
  | .spawn d a b ta tb p r => execSpawn_wf d a b ta tb p r s hw
  | .depadd a b ta tb => execDepadd_wf a b ta tb s hw
  | .depdec a b ta tb => execDepdec_wf a b ta tb s hw
  | .done a ta => execDone_wf a ta s hw
  | .suspend b tb => execSuspend_wf b tb s hw
  | .arm a b ta tb k => execArm_wf a b ta tb k s hw
  | .book d a b ta tb => execBook_wf d a b ta tb s hw
  | .extend d a ta => execExtend_wf d a ta s hw
  | .release a ta => execRelease_wf a ta s hw
  | .issue d a b n => execIssue_wf d a b n s hw
  | .srr d r => memoryOk_of_mem_eq hw (execSrr_mem d r s)
  | .srw a r => execSrw_wf a r s hw
  | .trap n => execTrap_wf n s hw
  | .lateDelivery k => execLateDelivery_wf k s hw
  | .cfg k x => execCfg_wf k x s hw
  | .pbind k x => memoryOk_of_mem_eq hw (execPbind_mem k x s)
  | .agaff k x => execAgaff_wf k x s hw
  | .agind k x => memoryOk_of_mem_eq hw (execAgind_mem k x s)
  | .pstart k x => memoryOk_of_mem_eq hw (execPstart_mem k x s)
  | .pstop k x => memoryOk_of_mem_eq hw (execPstop_mem k x s)
  | .pmark k x => memoryOk_of_mem_eq hw (execPmark_mem k x s)
  | .tidset k x => execTidset_wf k x s hw
  | .tidclr k x => memoryOk_of_mem_eq hw (execTidclr_mem k x s)
  | .cbar k x => memoryOk_of_mem_eq hw (execCbar_mem k x s)
  | .copy k x => execCopy_wf k x s hw
  | .copym k x => execCopym_wf k x s hw
  | .gather k x => execGather_wf k x s hw
  | .scatter k x => execScatter_wf k x s hw
  | .l2push k x => execL2push_wf k x s hw
  | .tfetch k x => execTfetch_wf k x s hw
  | .unpin k x => memoryOk_of_mem_eq hw (execUnpin_mem k x s)
  | .mmaE4m3 k x => memoryOk_of_mem_eq hw (execMmaE4m3_mem k x s)
  | .mmaE5m2 k x => memoryOk_of_mem_eq hw (execMmaE5m2_mem k x s)
  | .mmaBf16 k x => memoryOk_of_mem_eq hw (execMmaBf16_mem k x s)
  | .mmaF16 k x => memoryOk_of_mem_eq hw (execMmaF16_mem k x s)
  | .mmaE2m1 k x => memoryOk_of_mem_eq hw (execMmaE2m1_mem k x s)
  | .mmaL6 k x => memoryOk_of_mem_eq hw (execMmaL6_mem k x s)
  | .mmazE4m3 k x => memoryOk_of_mem_eq hw (execMmazE4m3_mem k x s)
  | .mmazE5m2 k x => memoryOk_of_mem_eq hw (execMmazE5m2_mem k x s)
  | .mmazBf16 k x => memoryOk_of_mem_eq hw (execMmazBf16_mem k x s)
  | .mmazF16 k x => memoryOk_of_mem_eq hw (execMmazF16_mem k x s)
  | .mmazE2m1 k x => memoryOk_of_mem_eq hw (execMmazE2m1_mem k x s)
  | .mmazL6 k x => memoryOk_of_mem_eq hw (execMmazL6_mem k x s)
  | .mload k x => execMload_wf k x s hw
  | .mstore k x => execMstore_wf k x s hw
  | .mscale k x => execMscale_wf k x s hw
  | .contrib k x => execContrib_wf k x s hw
  | .cred k x => execCred_wf k x s hw
  | .signal k x => execSignal_wf k x s hw
  | .arrivec k x => execArrivec_wf k x s hw
  | .waitc k x => execWaitc_wf k x s hw
  | .gqpost k x => execGqpost_wf k x s hw
  | .commandStart k => execCommandStart_wf k s hw
  | .commandComplete k => execCommandComplete_wf k s hw
  | .followOnIssue k => memoryOk_of_mem_eq hw (execFollowOnIssue_mem k s)
  | .fadd at_ x => memoryOk_of_mem_eq hw (execFadd_mem at_ x s)
  | .fsub at_ x => memoryOk_of_mem_eq hw (execFsub_mem at_ x s)
  | .fmul at_ x => memoryOk_of_mem_eq hw (execFmul_mem at_ x s)
  | .fma at_ x => memoryOk_of_mem_eq hw (execFma_mem at_ x s)
  | .fmin at_ x => memoryOk_of_mem_eq hw (execFmin_mem at_ x s)
  | .fmax at_ x => memoryOk_of_mem_eq hw (execFmax_mem at_ x s)
  | .fabs at_ x => memoryOk_of_mem_eq hw (execFabs_mem at_ x s)
  | .fneg at_ x => memoryOk_of_mem_eq hw (execFneg_mem at_ x s)
  | .frcp at_ x => memoryOk_of_mem_eq hw (execFrcp_mem at_ x s)
  | .frsq at_ x => memoryOk_of_mem_eq hw (execFrsq_mem at_ x s)
  | .fexp2 at_ x => memoryOk_of_mem_eq hw (execFexp2_mem at_ x s)
  | .flog2 at_ x => memoryOk_of_mem_eq hw (execFlog2_mem at_ x s)
  | .fcmp at_ x => memoryOk_of_mem_eq hw (execFcmp_mem at_ x s)
  | .fclass at_ x => memoryOk_of_mem_eq hw (execFclass_mem at_ x s)
  | .fcvt at_ x => memoryOk_of_mem_eq hw (execFcvt_mem at_ x s)
  | .hadd2 at_ x => memoryOk_of_mem_eq hw (execHadd2_mem at_ x s)
  | .hmul2 at_ x => memoryOk_of_mem_eq hw (execHmul2_mem at_ x s)
  | .hfma2 at_ x => memoryOk_of_mem_eq hw (execHfma2_mem at_ x s)
  | .hdot2 at_ x => memoryOk_of_mem_eq hw (execHdot2_mem at_ x s)
  | .q8dot4 at_ x => memoryOk_of_mem_eq hw (execQ8dot4_mem at_ x s)
  | .lmul at_ x => memoryOk_of_mem_eq hw (execLmul_mem at_ x s)
  | .lacc at_ x => memoryOk_of_mem_eq hw (execLacc_mem at_ x s)
  | .lcvt at_ x => memoryOk_of_mem_eq hw (execLcvt_mem at_ x s)
  | .iadd at_ x => memoryOk_of_mem_eq hw (execIadd_mem at_ x s)
  | .isub at_ x => memoryOk_of_mem_eq hw (execIsub_mem at_ x s)
  | .imul at_ x => memoryOk_of_mem_eq hw (execImul_mem at_ x s)
  | .imulh at_ x => memoryOk_of_mem_eq hw (execImulh_mem at_ x s)
  | .imad at_ x => memoryOk_of_mem_eq hw (execImad_mem at_ x s)
  | .imin at_ x => memoryOk_of_mem_eq hw (execImin_mem at_ x s)
  | .imax at_ x => memoryOk_of_mem_eq hw (execImax_mem at_ x s)
  | .iabs at_ x => memoryOk_of_mem_eq hw (execIabs_mem at_ x s)
  | .alAnd at_ x => memoryOk_of_mem_eq hw (execAlAnd_mem at_ x s)
  | .alOr at_ x => memoryOk_of_mem_eq hw (execAlOr_mem at_ x s)
  | .alXor at_ x => memoryOk_of_mem_eq hw (execAlXor_mem at_ x s)
  | .not at_ x => memoryOk_of_mem_eq hw (execNot_mem at_ x s)
  | .shl at_ x => memoryOk_of_mem_eq hw (execShl_mem at_ x s)
  | .shr at_ x => memoryOk_of_mem_eq hw (execShr_mem at_ x s)
  | .sar at_ x => memoryOk_of_mem_eq hw (execSar_mem at_ x s)
  | .icmp at_ x => memoryOk_of_mem_eq hw (execIcmp_mem at_ x s)
  | .sel at_ x => memoryOk_of_mem_eq hw (execSel_mem at_ x s)
  | .alPopc at_ x => memoryOk_of_mem_eq hw (execAlPopc_mem at_ x s)
  | .alClz at_ x => memoryOk_of_mem_eq hw (execAlClz_mem at_ x s)
  | .hash at_ x => memoryOk_of_mem_eq hw (execHash_mem at_ x s)
  | .rsum at_ x => memoryOk_of_mem_eq hw (execRsum_mem at_ x s)
  | .rmax at_ x => memoryOk_of_mem_eq hw (execRmax_mem at_ x s)
  | .scanl at_ x => memoryOk_of_mem_eq hw (execScanl_mem at_ x s)
  | .shuf at_ x => memoryOk_of_mem_eq hw (execShuf_mem at_ x s)
  | .bcast at_ x => memoryOk_of_mem_eq hw (execBcast_mem at_ x s)
  | .iota at_ x => memoryOk_of_mem_eq hw (execIota_mem at_ x s)
  | .const at_ x => memoryOk_of_mem_eq hw (execConst_mem at_ x s)
  | .spld at_ x => execSpld_wf at_ x s hw
  | .spst at_ x => execSpst_wf at_ x s hw
  | .spldi at_ x => execSpldi_wf at_ x s hw
  | .spatom at_ x => execSpatom_wf at_ x s hw
  | .l1ld at_ x => execL1ld_wf at_ x s hw
  | .l1st at_ x => execL1st_wf at_ x s hw
  | .tld at_ x => execTld_wf at_ x s hw
  | .tst at_ x => execTst_wf at_ x s hw
  | .park at_ x => execPark_wf at_ x s hw
  | .scan at_ x => execScan_wf at_ x s hw
  | .coord at_ x => execCoord_wf at_ x s hw
  | .isect at_ x => execIsect_wf at_ x s hw
  | .union at_ x => execUnion_wf at_ x s hw
  | .repeat at_ x => execRepeat_wf at_ x s hw
  | .reduce at_ x => execReduce_wf at_ x s hw
  | .topk at_ x => execTopk_wf at_ x s hw
  | .spval at_ x => execSpval_wf at_ x s hw
  | .fork at_ x => memoryOk_of_mem_eq hw (execFork_mem at_ x s)
  | .filter at_ x => memoryOk_of_mem_eq hw (execFilter_mem at_ x s)
  | .steer at_ x => memoryOk_of_mem_eq hw (execSteer_mem at_ x s)
  | .merge at_ x => memoryOk_of_mem_eq hw (execMerge_mem at_ x s)
  | .recirc at_ x => execRecirc_wf at_ x s hw
  | .compact at_ x => memoryOk_of_mem_eq hw (execCompact_mem at_ x s)
  | .order at_ x => memoryOk_of_mem_eq hw (execOrder_mem at_ x s)
  | .mark at_ x => memoryOk_of_mem_eq hw (execMark_mem at_ x s)
  | .dusk at_ x => memoryOk_of_mem_eq hw (execDusk_mem at_ x s)
  | .gate at_ x => memoryOk_of_mem_eq hw (execGate_mem at_ x s)
  | .retire at_ x => memoryOk_of_mem_eq hw (execRetire_mem at_ x s)
  | .tagset at_ x => memoryOk_of_mem_eq hw (execTagset_mem at_ x s)
  | .roundCountExpiry at_ => memoryOk_of_mem_eq hw (execRoundCountExpiry_mem at_ s)
  | .roundMarker at_ => memoryOk_of_mem_eq hw (execRoundMarker_mem at_ s)
  | .duskToken at_ => memoryOk_of_mem_eq hw (execDuskToken_mem at_ s)
  | .roundCommit task => execRoundCommit_wf task s hw
  | .portEmit p => execPortEmit_wf p s hw
  | .portRunAhead p => memoryOk_of_mem_eq hw (execPortRunAhead_mem p s)
  | .portElementLanded p j e => execPortElementLanded_wf p j e s hw
  | .portRecordWrite p => execPortRecordWrite_wf p s hw
  | .portIndexRecord p => execPortIndexRecord_wf p s hw
  | .mbServiceCycle at_ => memoryOk_of_mem_eq hw (execMbServiceCycle_mem at_ s)
  | .l1LineArrival at_ line => memoryOk_of_mem_eq hw (execL1LineArrival_mem at_ line s)
  | .preemption task => execPreemption_wf task s hw
  | .doorbellWrite q v => execDoorbellWrite_wf q v s hw
  | .lapRetry q => execLapRetry_wf q s hw
  | .packetFetch q => execPacketFetch_wf q s hw
  | .pktNop p => memoryOk_of_mem_eq hw (execPktNop_mem p s)
  | .pktLaunch p => execPktLaunch_wf p s hw
  | .pktCopy p => execPktCopy_wf p s hw
  | .pktBarrier p => execPktBarrier_wf p s hw
  | .pktSignal p => memoryOk_of_mem_eq hw (execPktSignal_mem p s)
  | .pktGuest p => memoryOk_of_mem_eq hw (execPktGuest_mem p s)
  | .packetComplete p => memoryOk_of_mem_eq hw (execPacketComplete_mem p s)
  | .mbcdbWrite v => memoryOk_of_mem_eq hw (execMbcdbWrite_mem v s)
  | .mbrdbWrite v => execMbrdbWrite_wf v s hw
  | .hostWrite pa bytes => execHostWrite_wf pa bytes s hw
  | .peerIngress m => execPeerIngress_wf m s hw
  | .importRefusal task va reason => execImportRefusal_wf task va reason s hw
  | .contribAck k status => execContribAck_wf k status s hw
  | .ringPartial group epoch dest first vals => execRingPartial_wf group epoch dest first vals s hw
  | .linkRetrain port => execLinkRetrain_wf port s hw
  | .guestAccess g => execGuestAccess_wf g s hw
  | .guestCompletion site tag => memoryOk_of_mem_eq hw (execGuestCompletion_mem site tag s)
  | .guestFaultMessage site tag => execGuestFaultMessage_wf site tag s hw
  | .invalidationAck site tag => memoryOk_of_mem_eq hw (execInvalidationAck_mem site tag s)
  | .guestPreemptAnswer site tag ans => execGuestPreemptAnswer_wf site tag ans s hw
  | .powerGood b => execPowerGood_wf b s hw
  | .linkenWrite v => execLinkenWrite_wf v s hw
  | .retryWrite v b => memoryOk_of_mem_eq hw (execRetryWrite_mem v b s)
  | .devinfoWrite f => memoryOk_of_mem_eq hw (execDevinfoWrite_mem f s)
  | .thermalStep cool => memoryOk_of_mem_eq hw (execThermalStep_mem cool s)
  | .illegalInstruction w => execIllegalInstruction_wf w s hw
  | .guestReauthentication site r => execGuestReauthentication_wf site r s hw
  | .yield => memoryOk_of_mem_eq hw (execYield_mem s)
  | .eret => execEret_wf s hw
  | .deferredTrapEntry => execDeferredTrapEntry_wf s hw
  | .contextSwitch => memoryOk_of_mem_eq hw (execContextSwitch_mem s)
  | .promiseMissed => memoryOk_of_mem_eq hw (execPromiseMissed_mem s)
  | .guestPromiseMissed => memoryOk_of_mem_eq hw (execGuestPromiseMissed_mem s)
  | .earlyEdge => memoryOk_of_mem_eq hw (execEarlyEdge_mem s)
  | .homeOperation => execHomeOperation_wf s hw
  | .homeRetry => execHomeRetry_wf s hw
  | .aging => memoryOk_of_mem_eq hw (execAging_mem s)
  | .leaseWalk => execLeaseWalk_wf s hw
  | .placementPass => memoryOk_of_mem_eq hw (execPlacementPass_mem s)
  | .dispatch => execDispatch_wf s hw
  | .windowEnd => memoryOk_of_mem_eq hw (execWindowEnd_mem s)
  | .reservationLapse => memoryOk_of_mem_eq hw (execReservationLapse_mem s)
  | .regq => execRegq_wf s hw
  | .unregq => execUnregq_wf s hw
  | .resetq => execResetq_wf s hw
  | .setw => execSetw_wf s hw
  | .pagein => execPagein_wf s hw
  | .recall => execRecall_wf s hw
  | .endtask => execEndtask_wf s hw
  | .loadrtn => execLoadrtn_wf s hw
  | .groupset => execGroupset_wf s hw
  | .readalm => execReadalm_wf s hw
  | .power => execPower_wf s hw
  | .attest => execAttest_wf s hw
  | .unknownCommand => execUnknownCommand_wf s hw
  | .cerr => execCerr_wf s hw
  | .invalidationDeadline => execInvalidationDeadline_wf s hw
  | .preemptDeadline => execPreemptDeadline_wf s hw
  | .thermalThrottle => memoryOk_of_mem_eq hw (execThermalThrottle_mem s)
  | .thermalTrip => memoryOk_of_mem_eq hw (execThermalTrip_mem s)

/-! ## The plan of a step keeps the form -/

/-- The state that a plan leaves, or in which its instruction runs. -/
def Plan.state : Plan → State
  | .idle s | .run _ s | .boundary _ _ s => s

/-- A fetch that fails ends the task, which writes its completion record; every other plan of a context leaves memory
as it is. -/
theorem ccPlan_memoryOk {s : State} (hs : MemoryOk s) : MemoryOk (ccPlan s).state := by
  unfold ccPlan
  split
  · exact hs
  · split
    · exact hs.of_mem_eq (State.giveWay_mem s)
    · cases fetchBytes s with
      | ok bs =>
        cases fetchBad s with
        | none => dsimp only; split <;> exact hs
        | some pa =>
          dsimp only
          split
          · exact hs
          · exact State.memFault_wf _ _ _ _ _ _ _ hs
      | error reason =>
        dsimp only
        split
        · exact hs
        · exact State.ccLeaseFault_wf _ _ _ _ _ hs

theorem MemoryOk.begin {s : State} (hs : MemoryOk s) : MemoryOk s.begin := hs.of_mem_eq (State.begin_mem s)

theorem MemoryOk.rotate {s : State} (hs : MemoryOk s) : MemoryOk s.rotate := hs.of_mem_eq (State.rotate_mem s)

theorem plan_memoryOk {s : State} (hs : MemoryOk s) : MemoryOk (plan s).state := by
  unfold plan
  split
  · exact State.bootStep_wf s hs
  · cases s.inputs with
    | nil =>
      dsimp only
      split
      · exact ccPlan_memoryOk hs.begin
      · split
        · exact ccPlan_memoryOk hs.begin.rotate
        · exact hs.begin.rotate
    | cons input rest =>
      have hrest : MemoryOk { s with inputs := rest } := hs
      cases input with
      | event i => exact hs
      | cycles n => exact hrest.of_mem_eq (State.tickBy_mem _ n)
      | softError pa => exact hrest.of_mem_eq (State.strike_mem _ pa)
      | context c w0 w1 => exact hrest.of_mem_eq (State.writeContext_mem _ c w0 w1)
      | peerReply id reason v => exact State.peerReply_wf _ id reason v hrest
      | hostTake pa z => exact hrest.of_mem_eq (State.hostTake_mem _ pa z)
      | hostAtomic pa z op v cmp => exact State.hostAtomic_wf _ pa z op v cmp hrest
      | dataError e => exact State.dataError_wf _ e hrest
      | saveDrained fc => exact hrest.of_mem_eq (State.saveDrained_mem _ fc)
      | barWrite a v => exact hs

/-! ## A step keeps the form -/

theorem step_of_stopped {s : State} (h4 : s.dev.st = 4) : step s = stopped s := if_pos h4

/-- R447: of a stopped package only power-good runs anything. -/
theorem stopped_memoryOk {s : State} (hs : MemoryOk s) : ∀ t, stopped s = .next t → MemoryOk t := by
  intro t ht
  unfold stopped at ht
  split at ht
  next b rest _ =>
    have hrest : MemoryOk { s with inputs := rest } := hs
    exact exec_memoryOk (.powerGood b) hrest t ht
  next => cases ht; exact hs
  next => cases ht

/-- Settles O32: the plan of the step keeps the form of memory, and what it runs keeps it again. -/
theorem everyStepKeepsTheFormOfMemory : Obligations.EveryStepKeepsTheFormOfMemory := by
  unfold Obligations.EveryStepKeepsTheFormOfMemory
  intro s t hs ht
  by_cases h4 : s.dev.st = 4
  · rw [step_of_stopped h4] at ht
    exact stopped_memoryOk hs t ht
  · have hplan : MemoryOk (plan s).state := plan_memoryOk hs
    cases hp : plan s with rw [hp] at hplan
    | idle u =>
      rw [step_of_plan_idle h4 hp] at ht
      cases ht
      exact hplan
    | run i u =>
      rw [step_of_plan_run h4 hp] at ht
      exact exec_memoryOk i hplan t ht
    | boundary d i u =>
      rw [step_of_plan_boundary h4 hp] at ht
      split at ht
      · exact exec_memoryOk i hplan t ht
      · exact exec_memoryOk d hplan t ht

end Sys2Proof.Machine
end

section
/-! PROOFS. Bring-up, links and temperature (R446 to R450): what power-good leaves, what authentication changes, and that a
response written to the mailbox touches nothing of the policy core but the ring; settles O60. -/

namespace Sys2Proof.Machine
open Sys2Proof.Machine.Claims

/-! ## A landing leaves the policy core alone

What a write does at its home reaches contexts, tasks, queues, barriers and messages, never the device information block or
the mailbox. -/

/-- The policy core's own part of the state: the device information block and the mailbox. -/
def State.policy (s : State) : DevInfo × Mailbox := (s.dev, s.mbox)

theorem State.policy_withMem (s : State) (m : List (Nat × Byte)) : State.policy { s with mem := m } = s.policy := rfl

theorem foldl_policy {α : Type} {f : State → α → State} (hf : ∀ s a, (f s a).policy = s.policy) (l : List α) (s : State) :
    (l.foldl f s).policy = s.policy := by
  induction l generalizing s with
  | nil => rfl
  | cons a l ih => rw [List.foldl_cons, ih, hf]

@[simp] theorem State.push_policy (s : State) (i : Instr) : (s.push i).policy = s.policy := rfl

@[simp] theorem State.pushAll_policy (s : State) (l : List Instr) : (s.pushAll l).policy = s.policy := rfl

@[simp] theorem State.putTask_policy (s : State) (t : TaskRec) : (s.putTask t).policy = s.policy := rfl

@[simp] theorem State.reply_policy (s : State) (src tag : Nat) (v : W64) : (s.reply src tag v).policy = s.policy := rfl

@[simp] theorem State.modRun_policy (s : State) (h : W64) (f : Run → Run) : (s.modRun h f).policy = s.policy := by
  unfold State.modRun
  split
  · rfl
  · split <;> rfl

@[simp] theorem State.modTask_policy (s : State) (h : W64) (f : TaskRec → TaskRec) : (s.modTask h f).policy = s.policy := by
  unfold State.modTask
  split <;> rfl

@[simp] theorem State.modCtx_policy (s : State) (h : W64) (f : Run → Run) : (s.modCtx h f).policy = s.policy := by
  unfold State.modCtx
  split <;> simp

@[simp] theorem State.modCmd_policy (s : State) (k : CmdRef) (f : Cmd → Cmd) : (s.modCmd k f).policy = s.policy :=
  State.modCtx_policy ..

@[simp] theorem State.cmdDone_policy (s : State) (k : CmdRef) (status : BitVec 2) : (s.cmdDone k status).policy = s.policy :=
  State.modCmd_policy ..

@[simp] theorem State.modPacket_policy (s : State) (p : PktRef) (f : Packet → Packet) : (s.modPacket p f).policy = s.policy := by
  unfold State.modPacket
  split <;> rfl

@[simp] theorem State.fireSlot_policy (s : State) (q : Nat) (u : BitVec 39) (slot : Nat) (v : Int) :
    (s.fireSlot q u slot v).policy = s.policy := by
  unfold State.fireSlot
  split <;> simp

@[simp] theorem State.unpark_policy (s : State) (h : W64) (site id : Nat) (v : W64) : (s.unpark h site id v).policy = s.policy :=
  State.modCtx_policy ..

@[simp] theorem State.countDown_policy (s : State) (h : W64) (n : Nat) : (s.countDown h n).policy = s.policy := by
  unfold State.countDown State.makeReady
  split
  · rfl
  · dsimp only
    split <;> simp

theorem State.armedEvent_policy (s : State) (h : W64) (kind : Nat) (hit : Arm → Bool) :
    (s.armedEvent h kind hit).2.policy = s.policy := by
  unfold State.armedEvent
  split
  · rfl
  · split
    · rfl
    · simp

@[simp] theorem State.vigilWake_policy (s : State) (h : W64) : (s.vigilWake h).policy = s.policy := by
  have harmed := s.armedEvent_policy h 3 fun _ => true
  unfold State.vigilWake
  split <;> next he => simpa [he] using harmed

@[simp] theorem State.kick_policy (s : State) (h : W64) : (s.kick h).policy = s.policy := by
  unfold State.kick
  split <;> rfl

@[simp] theorem State.deliver_policy (s : State) (h : W64) (flight : Nat) (v : W64) :
    (s.deliver h flight v).policy = s.policy := by
  unfold State.deliver
  dsimp only
  split <;> simp

@[simp] theorem State.wake_policy (s : State) (v : Vigil) : (s.wake v).policy = s.policy := by
  unfold State.wake
  cases v.waiter <;> simp

@[simp] theorem State.fireVigils_policy (s : State) (pa n : Nat) : (s.fireVigils pa n).policy = s.policy :=
  foldl_policy (fun t v => t.wake_policy v) ..

@[simp] theorem State.orStatus_policy (s : State) (pa : Nat) (x : W64) : (s.orStatus pa x).policy = s.policy :=
  (State.fireVigils_policy ..).trans (s.policy_withMem _)

@[simp] theorem State.putBar_policy (s : State) (pa : Nat) (phase : BitVec 16) (count ahead : Nat) :
    (s.putBar pa phase count ahead).policy = s.policy :=
  (State.fireVigils_policy ..).trans (s.policy_withMem _)

@[simp] theorem State.endWait_policy (s : State) (w : BarWait) (gone : Bool) : (s.endWait w gone).policy = s.policy := by
  unfold State.endWait
  cases w.owner <;> cases gone <;> simp

@[simp] theorem State.wakeBar_policy (s : State) (pa : Nat) (gone : Bool) (hit : BarWait → Bool) :
    (s.wakeBar pa gone hit).policy = s.policy :=
  foldl_policy (fun t w => t.endWait_policy w gone) ..

@[simp] theorem State.wakeLeft_policy (s : State) (pa : Nat) : (s.wakeLeft pa).policy = s.policy := State.wakeBar_policy ..

theorem State.destroyBar_policy (s : State) (pa : Nat) (status : W64) : (s.destroyBar pa status).policy = s.policy := by
  unfold State.destroyBar
  rw [State.wakeBar_policy, State.orStatus_policy]
  rfl

theorem State.countBytes_policy (s : State) (pa n : Nat) : (s.countBytes pa n).policy = s.policy := by
  unfold State.countBytes
  dsimp only
  split
  · simp
  · split <;> simp

theorem State.countLanding_policy (s : State) (pa n : Nat) : (s.countLanding pa n).policy = s.policy := by
  unfold State.countLanding
  refine foldl_policy (fun t b => ?_) _ s
  exact t.countBytes_policy ..

theorem State.land_policy (s : State) (pa : Nat) (bs : List Byte) : (s.land pa bs).policy = s.policy := by
  unfold State.land
  split
  · rfl
  · dsimp only
    rw [State.fireVigils_policy, State.countLanding_policy, foldl_policy fun t b => t.destroyBar_policy b _]
    rfl

@[simp] theorem State.land_dev (s : State) (pa : Nat) (bs : List Byte) : (s.land pa bs).dev = s.dev :=
  congrArg Prod.fst (s.land_policy pa bs)

@[simp] theorem State.land_mbox (s : State) (pa : Nat) (bs : List Byte) : (s.land pa bs).mbox = s.mbox :=
  congrArg Prod.snd (s.land_policy pa bs)

/-! ## The mailbox (R327) -/

@[simp] theorem State.writeResp_dev (s : State) (m : MbCmd) : (s.writeResp m).dev = s.dev := by
  simp [State.writeResp]

/-- R327: a response counts one more entry of the ring. -/
@[simp] theorem State.writeResp_mbox (s : State) (m : MbCmd) :
    (s.writeResp m).mbox = { s.mbox with resp := s.mbox.resp + 1 } := by
  simp [State.writeResp]

theorem State.drainEvents_of_nil {s : State} (h : s.mbox.events = []) (n : Nat) : s.drainEvents n = s := by
  cases n with
  | zero => rfl
  | succ n => simp [State.drainEvents, h]

/-- R327: with room for it, the only event that waits is written. -/
theorem State.drainEvents_of_one {s : State} {m : MbCmd} (h : s.mbox.events = [m]) (hroom : s.mailRoom = true) (n : Nat) :
    s.drainEvents (n + 1) = ({ s with mbox := { s.mbox with events := [], dropped := 0 } }).writeResp
      { m with w7 := BitVec.ofNat 64 s.mbox.dropped } := by
  simp only [State.drainEvents, h, hroom, if_true]
  exact State.drainEvents_of_nil (by simp) n

theorem State.mailNext_eq (s : State) : ∃ l, s.mailNext = { s with work := s.work ++ l } := by
  unfold State.mailNext
  split
  · exact ⟨_, rfl⟩
  · exact ⟨[], by simp⟩

/-- R327, R448: the EP answers nothing before bring-up has ended. -/
theorem State.mailRoom_of_bringUp {s : State} (h : s.dev.st ≠ 2) : s.mailRoom = false := by
  simp [State.mailRoom, State.mailUp, h]

/-- R327: without room for a response, an event waits or is dropped, and nothing but the mailbox knows of it. -/
theorem State.postEvent_of_noRoom {s : State} (h : s.mailRoom = false) (m : MbCmd) :
    s.postEvent m = { s with mbox := (s.postEvent m).mbox } := by
  simp only [State.postEvent, h, Bool.false_and, Bool.false_eq_true, if_false]
  split <;> rfl

/-! ## LINKEN (R448, R449) -/

/-- R449: LINKEN set. -/
def State.linked (s : State) : State := { s with dev := { s.dev with linken := true } }

theorem exec_linkenWrite_of_noEffect {s : State} {v : Bool} (h : v = false ∨ s.dev.linken = true) :
    exec (.linkenWrite v) s = .next s := by
  show execLinkenWrite v s = _
  rcases h with h | h <;> simp [execLinkenWrite, h]

theorem exec_linkenWrite_true {s : State} (h : s.dev.linken = false) :
    exec (.linkenWrite true) s = .next (s.linked.drainEvents 1024).mailNext := by
  show execLinkenWrite true s = _
  rw [execLinkenWrite, if_pos (by simp [h])]
  rfl

theorem exec_linkenWrite_of_noEvents {s : State} (h : s.dev.linken = false) (hev : s.mbox.events = []) :
    ∃ t l, exec (.linkenWrite true) s = .next t ∧ t = { s with dev := { s.dev with linken := true }, work := s.work ++ l } := by
  have hdrain : s.linked.drainEvents 1024 = s.linked := State.drainEvents_of_nil (s := s.linked) hev 1024
  obtain ⟨l, hl⟩ := s.linked.mailNext_eq
  exact ⟨_, l, exec_linkenWrite_true h, by rw [hdrain, hl]; rfl⟩

theorem exec_linkenWrite_of_event {s : State} {m : MbCmd} (h : s.dev.linken = false) (hev : s.mbox.events = [m])
    (hst : s.dev.st = 2) (hcmd : s.dev.mbcmd ≠ 0#64) (hidx : s.dev.mbidx ≠ 0#64) (hresp : s.mbox.resp < s.mbox.respRead + 256) :
    ∃ t, exec (.linkenWrite true) s = .next t ∧ t.dev = { s.dev with linken := true } ∧
      t.mbox = { s.mbox with events := [], dropped := 0, resp := s.mbox.resp + 1 } := by
  have hroom : s.linked.mailRoom = true := by
    simp [State.linked, State.mailRoom, State.mailUp, hst, hcmd, hidx, hresp]
  have hdrain := State.drainEvents_of_one (s := s.linked) hev hroom 1023
  obtain ⟨l, hl⟩ := (s.linked.drainEvents 1024).mailNext_eq
  exact ⟨_, exec_linkenWrite_true h, by rw [hl, hdrain, State.writeResp_dev]; rfl, by rw [hl, hdrain, State.writeResp_mbox]; rfl⟩

/-! ## Authentication (R389, R450) -/

theorem authenticate_accepted_iff (hash : BitVec 512) (i : BootImage) : authenticate hash i = .accepted ↔ Authentic hash i := by
  unfold authenticate Authentic digestBytes
  by_cases hkey : sha512 (leBytes 32 i.key.toNat) = hash
  · cases hsig : edVerifies i.key i.sig (leBytes 64 (sha512 i.body).toNat) <;> simp [hkey]
  · simp [hkey]

/-- What the authentication of a guest's image may change before bring-up has ended: the sites, their presence and digests in
the device information block, and the events that wait. -/
def SitesOnly (s t : State) : Prop :=
  t = { s with
    guests := t.guests
    dev := { s.dev with gsp := t.dev.gsp, gsDigest := t.dev.gsDigest }
    mbox := t.mbox }

theorem SitesOnly.refl (s : State) : SitesOnly s s := rfl

theorem SitesOnly.trans {s t u : State} (hst : SitesOnly s t) (htu : SitesOnly t u) : SitesOnly s u := by
  unfold SitesOnly at *
  rw [htu, hst]

theorem SitesOnly.postEvent {s t : State} (h : SitesOnly s t) (hst : t.dev.st ≠ 2) (m : MbCmd) : SitesOnly s (t.postEvent m) := by
  refine h.trans ?_
  rw [State.postEvent_of_noRoom (State.mailRoom_of_bringUp hst)]
  rfl

theorem State.present_sitesOnly (s : State) (site : Nat) (v : Bool) : SitesOnly s (s.present site v) := rfl

section Site
variable {s : State} (hst : s.dev.st ≠ 2) (site : Nat) (i : BootImage)
include hst

theorem State.guestAuth_sitesOnly : SitesOnly s (s.guestAuth site i) := by
  unfold State.guestAuth
  split
  · rfl
  · exact (s.present_sitesOnly site false).postEvent hst _
  · exact (s.present_sitesOnly site false).postEvent hst _

/-- R389: a site is present after its image has been authenticated exactly if the image was accepted. -/
theorem State.guestAuth_guests : (s.guestAuth site i).guests =
    SMap.ins s.guests site { s.guest site with present := decide (authenticate s.dev.gsHash i = .accepted) } := by
  have hroom : (s.present site false).mailRoom = false := State.mailRoom_of_bringUp hst
  unfold State.guestAuth
  split
  next ha => rw [ha]; rfl
  next ha => rw [ha, State.postEvent_of_noRoom hroom]; rfl
  next ha => rw [ha, State.postEvent_of_noRoom hroom]; rfl

theorem State.guestAuth_present :
    ((s.guestAuth site i).guest site).present = true ↔ Authentic s.dev.gsHash i := by
  rw [State.guest, State.guestAuth_guests hst, SMap.get_ins_self, decide_eq_true_iff, authenticate_accepted_iff]

theorem State.guestAuth_guest_other {j : Nat} (hj : j ≠ site) : (s.guestAuth site i).guest j = s.guest j := by
  rw [State.guest, State.guestAuth_guests hst, SMap.get_ins_other _ _ _ hj]
  rfl

end Site

/-! ## Reset and bring-up (R448) -/

/-- What a table holds under the keys that are kept. -/
theorem SMap.get_filter_key {α : Type} (d : α) (p : Nat → Bool) (m : SMap α) (i : Nat) :
    SMap.get d (m.filter fun e => p e.1) i = if p i then SMap.get d m i else d := by
  induction m with
  | nil => simp [SMap.get]
  | cons e m ih =>
    obtain ⟨k, v⟩ := e
    by_cases hi : i = k
    · subst hi
      cases hp : p i with
      | true => simp [SMap.get, hp]
      | false => simpa [hp] using ih
    · cases hp : p k <;> simp [SMap.get, hp, hi, ih]

/-- R448: of physical memory, what the host holds outside the package remains. -/
theorem memByte_filter_inFar (m : List (Nat × Byte)) (a : Nat) :
    memByte (m.filter fun e => inFar e.1) a = if farBase ≤ a ∧ a < farEnd then memByte m a else 0#8 := by
  rw [memByte, SMap.get_filter_key]
  simp [inFar, memByte, unwritten]

/-- R448 steps 4 and 5: HBM written to zero, the host link trained; the accepted firmware is loaded, its digest kept (R451). -/
def State.cleared (s : State) (b : BringUp) : State :=
  { s with
    mem := s.mem.filter fun e => inFar e.1
    err := { s.err with bad := s.err.bad.filter inFar }
    ep := { s.ep with tcm := b.firmware.body.take 262144 }
    dev := { s.dev with cxl := b.cxl, fwDigest := sha512 b.firmware.body } }

/-- R448 step 6, R389: the images of the wired sites authenticated, one after the other. -/
def State.guestsAuth (s : State) (b : BringUp) : State :=
  if s.dev.part.wired then (s.guestAuth 0 b.guest0).guestAuth 1 b.guest1 else s

theorem State.bringUp_eq (s : State) (b : BringUp) :
    s.bringUp b = { (s.cleared b).guestsAuth b with dev := { ((s.cleared b).guestsAuth b).dev with st := 2 } } := rfl

section Guests
variable {s : State} (hst : s.dev.st ≠ 2) (b : BringUp)
include hst

theorem State.guestsAuth_sitesOnly : SitesOnly s (s.guestsAuth b) := by
  have h0 : SitesOnly s (s.guestAuth 0 b.guest0) := State.guestAuth_sitesOnly hst 0 b.guest0
  have hst0 : (s.guestAuth 0 b.guest0).dev.st ≠ 2 := by rwa [h0]
  unfold State.guestsAuth
  split
  · exact h0.trans (State.guestAuth_sitesOnly hst0 1 b.guest1)
  · exact SitesOnly.refl s

theorem State.guestsAuth_present (hw : s.dev.part.wired = true) :
    (((s.guestsAuth b).guest 0).present = true ↔ Authentic s.dev.gsHash b.guest0) ∧
      (((s.guestsAuth b).guest 1).present = true ↔ Authentic s.dev.gsHash b.guest1) := by
  have h0 : SitesOnly s (s.guestAuth 0 b.guest0) := State.guestAuth_sitesOnly hst 0 b.guest0
  have hst0 : (s.guestAuth 0 b.guest0).dev.st ≠ 2 := by rwa [h0]
  have hhash : (s.guestAuth 0 b.guest0).dev.gsHash = s.dev.gsHash := by rw [h0]
  rw [State.guestsAuth, if_pos hw]
  constructor
  · rw [State.guestAuth_guest_other hst0 1 b.guest1 (by decide), State.guestAuth_present hst]
  · rw [State.guestAuth_present hst0, hhash]

end Guests

/-- R448: what bring-up with an accepted firmware leaves as it was, outside memory. -/
theorem State.bringUp_frame {s : State} (hst : s.dev.st ≠ 2) (b : BringUp) :
    let t := s.bringUp b
    t = { s.cleared b with
      guests := t.guests
      dev := { (s.cleared b).dev with gsp := t.dev.gsp, gsDigest := t.dev.gsDigest, st := 2 }
      mbox := t.mbox } := by
  have h : SitesOnly (s.cleared b) ((s.cleared b).guestsAuth b) := State.guestsAuth_sitesOnly (s := s.cleared b) hst b
  dsimp only
  rw [State.bringUp_eq]
  unfold SitesOnly at h
  rw [h]

section BringUp
variable {s : State} (hst : s.dev.st ≠ 2) (b : BringUp)
include hst

/-- R448 step 4: HBM reads 0, and host memory is as it was. -/
theorem State.bringUp_memByte (a : Nat) :
    memByte (s.bringUp b).mem a = if farBase ≤ a ∧ a < farEnd then memByte s.mem a else 0#8 := by
  rw [State.bringUp_frame hst]
  exact memByte_filter_inFar s.mem a

/-- R448 step 4: no sector of HBM holds an uncorrectable error. -/
theorem State.inFar_of_bringUp_bad {z : Nat} (hz : z ∈ (s.bringUp b).err.bad) : farBase ≤ z ∧ z < farEnd := by
  rw [State.bringUp_frame hst] at hz
  simpa [inFar] using (List.mem_filter.mp hz).2

theorem State.bringUp_present (hw : s.dev.part.wired = true) :
    (((s.bringUp b).guest 0).present = true ↔ Authentic s.dev.gsHash b.guest0) ∧
      (((s.bringUp b).guest 1).present = true ↔ Authentic s.dev.gsHash b.guest1) :=
  State.guestsAuth_present (s := s.cleared b) hst b hw

end BringUp

theorem State.bringUp_guests_of_not_wired {s : State} (b : BringUp) (hw : s.dev.part.wired = false) :
    (s.bringUp b).guests = s.guests := by
  have hskip : (s.cleared b).guestsAuth b = s.cleared b := if_neg (by simpa [State.cleared] using hw)
  rw [State.bringUp_eq, hskip]
  rfl

/-- R448 step 3: a firmware that is not authentic ends bring-up. -/
theorem State.bootStep_of_not_authentic {s : State} (h : ¬ Authentic s.dev.fwHash s.dev.flash.firmware) :
    s.bootStep = { s with dev := { s.dev with st := 3 } } :=
  if_neg (mt (authenticate_accepted_iff ..).mp h)

theorem State.bootStep_of_authentic {s : State} (h : Authentic s.dev.fwHash s.dev.flash.firmware) :
    s.bootStep = s.bringUp s.dev.flash :=
  if_pos ((authenticate_accepted_iff ..).mpr h)

theorem step_of_bringUp {s : State} (h : s.dev.st = 1) : step s = .next s.bootStep :=
  step_of_plan_idle (by simp [h]) (if_pos h)

/-- R449: RETRY is written; at STATE 3, 1 begins the authentication again. -/
theorem exec_retryWrite (v : Bool) (b : BringUp) (s : State) : exec (.retryWrite v b) s = .next
    (if v = true ∧ s.dev.st = 3 then { s with dev := { s.dev with retry := v, st := 1, flash := b } }
      else { s with dev := { s.dev with retry := v } }) := by
  show execRetryWrite v b s = _
  unfold execRetryWrite
  dsimp only
  split <;> rfl

/-! ## Temperature (R446, R447) -/

theorem exec_thermalThrottle_of_idle {s : State} (hhot : s.dev.hot = false) (hcut : s.dev.thermCut = 0) :
    exec .thermalThrottle s = .next { s with dev := { s.dev with hot := true, hotSlot := s.slot } } := by
  show execThermalThrottle s = _
  simp [execThermalThrottle, hhot, hcut]

theorem exec_thermalThrottle_of_under_way {s : State} (h : s.dev.hot = true ∨ s.dev.thermCut ≠ 0) :
    exec .thermalThrottle s = .next { s with dev := { adjustCap s.dev s.slot with hot := true } } := by
  show execThermalThrottle s = _
  rw [execThermalThrottle, if_pos (by simpa using h)]

/-- Settles O60: power-good rebuilds the state from reset, bring-up is authentication after the clearing of memory, the
links let the events out that wait, and the cap moves by `adjustCap`. -/
theorem bringUpLinksAndTemperature : Obligations.BringUpLinksAndTemperature := by
  unfold Obligations.BringUpLinksAndTemperature
  intro s
  refine ⟨fun b => ?powerGood, fun h1 => ?bringUp, fun v b => ?retry, fun v => ?linken, fun v => ?devno, fun v => ?rings,
    ?thermal, ⟨_, rfl, rfl⟩⟩
  case powerGood =>
    exact ⟨_, rfl, rfl, rfl, rfl, rfl, rfl, rfl, rfl, rfl, rfl, rfl, rfl, rfl, rfl, rfl, memByte_filter_inFar s.mem,
      rfl, rfl, rfl, rfl, rfl, rfl, rfl, rfl, rfl, rfl, rfl, rfl⟩
  case bringUp =>
    refine ⟨_, step_of_bringUp h1, ?_⟩
    by_cases ha : Authentic s.dev.fwHash s.dev.flash.firmware
    · have hst : s.dev.st ≠ 2 := by simp [h1]
      have hframe := State.bringUp_frame hst s.dev.flash
      rw [State.bootStep_of_authentic ha]
      refine ⟨(congrArg State.cc hframe :), (congrArg State.runs hframe :), (congrArg State.cyc hframe :),
        (congrArg State.inputs hframe :), iff_of_true rfl ha, absurd ha, fun _ => ⟨fun a hout => ⟨?_, ?_⟩, fun a hlo hhi => ?_,
        (congrArg (·.dev.cxl) hframe :), (congrArg (·.dev.fwDigest) hframe :), State.bringUp_present hst _,
        State.bringUp_guests_of_not_wired _⟩⟩
      · rw [State.bringUp_memByte hst, if_neg (by omega)]
      · rintro z hz rfl
        have hin := State.inFar_of_bringUp_bad hst s.dev.flash hz
        omega
      · rw [State.bringUp_memByte hst, if_pos ⟨hlo, hhi⟩]
    · rw [State.bootStep_of_not_authentic ha]
      exact ⟨rfl, rfl, rfl, rfl, iff_of_false (by simp) ha, fun _ => rfl, fun h => absurd h ha⟩
  case retry =>
    rw [exec_retryWrite]
    refine ⟨fun h => ⟨_, rfl, if_neg ?_⟩, fun hv h3 => ⟨_, rfl, ?_⟩⟩
    · rintro ⟨rfl, h3⟩
      simp [h3] at h
    · rw [if_pos ⟨hv, h3⟩, hv]
  case linken =>
    refine ⟨exec_linkenWrite_of_noEffect, ?_, fun m => ?_⟩
    · rintro rfl h hev
      exact exec_linkenWrite_of_noEvents h hev
    · rintro rfl h hev hst hcmd hidx hresp
      exact exec_linkenWrite_of_event h hev hst hcmd hidx hresp
  case devno =>
    refine ⟨_, rfl, ?_⟩
    split <;> rfl
  case rings => exact ⟨⟨_, rfl, rfl⟩, ⟨_, rfl, rfl⟩, ⟨_, rfl, rfl⟩⟩
  case thermal =>
    exact ⟨fun hhot hcut => ⟨_, exec_thermalThrottle_of_idle hhot hcut, rfl⟩,
      fun h => ⟨_, exec_thermalThrottle_of_under_way h, rfl⟩, fun cool => ⟨_, rfl, rfl⟩⟩

end Sys2Proof.Machine
end

section
/-! PROOFS. Landing (R155, R239, R242, R244): what a write leaves alone at its home, whatever barrier objects and vigil entries it
meets, and what it comes to where it meets none. -/

namespace Sys2Proof.Machine
open Sys2Proof.Machine.Claims

/-! ## Waking leaves registers and barrier objects alone -/

/-- The registers of the context in turn and the valid barrier objects. -/
def State.regsBars (s : State) : Vector RegCell 32 × List Bar := (s.cc.regs, s.bars)

theorem foldl_regsBars {α : Type} {f : State → α → State} (hf : ∀ s a, (f s a).regsBars = s.regsBars) (l : List α) (s : State) :
    (l.foldl f s).regsBars = s.regsBars := by
  induction l generalizing s with
  | nil => rfl
  | cons a l ih => rw [List.foldl_cons, ih, hf]

@[simp] theorem State.push_regsBars (s : State) (i : Instr) : (s.push i).regsBars = s.regsBars := rfl

@[simp] theorem State.pushAll_regsBars (s : State) (l : List Instr) : (s.pushAll l).regsBars = s.regsBars := rfl

@[simp] theorem State.putTask_regsBars (s : State) (t : TaskRec) : (s.putTask t).regsBars = s.regsBars := rfl

@[simp] theorem State.reply_regsBars (s : State) (src tag : Nat) (v : W64) : (s.reply src tag v).regsBars = s.regsBars := rfl

@[simp] theorem State.modTask_regsBars (s : State) (h : W64) (f : TaskRec → TaskRec) :
    (s.modTask h f).regsBars = s.regsBars := by
  unfold State.modTask
  split <;> rfl

theorem State.modCtx_regsBars {f : Run → Run} (hf : ∀ r, (f r).regs = r.regs) (s : State) (h : W64) :
    (s.modCtx h f).regsBars = s.regsBars := by
  unfold State.modCtx State.modRun
  split
  · split
    · rfl
    · split
      · exact congrArg (·, s.bars) (hf s.cc)
      · rfl
  · simp

@[simp] theorem State.modCmd_regsBars (s : State) (k : CmdRef) (f : Cmd → Cmd) : (s.modCmd k f).regsBars = s.regsBars :=
  State.modCtx_regsBars (fun _ => by rfl) ..

@[simp] theorem State.cmdDone_regsBars (s : State) (k : CmdRef) (status : BitVec 2) :
    (s.cmdDone k status).regsBars = s.regsBars := State.modCmd_regsBars ..

@[simp] theorem State.fireSlot_regsBars (s : State) (q : Nat) (u : BitVec 39) (slot : Nat) (v : Int) :
    (s.fireSlot q u slot v).regsBars = s.regsBars := by
  unfold State.fireSlot State.modPacket
  split
  · rfl
  · dsimp only
    split <;> rfl

@[simp] theorem State.unpark_regsBars (s : State) (h : W64) (site id : Nat) (v : W64) :
    (s.unpark h site id v).regsBars = s.regsBars :=
  State.modCtx_regsBars (fun _ => by rfl) ..

@[simp] theorem State.countDown_regsBars (s : State) (h : W64) (n : Nat) : (s.countDown h n).regsBars = s.regsBars := by
  unfold State.countDown State.makeReady
  split
  · rfl
  · dsimp only
    split <;> simp

theorem State.armedEvent_regsBars (s : State) (h : W64) (kind : Nat) (hit : Arm → Bool) :
    (s.armedEvent h kind hit).2.regsBars = s.regsBars := by
  unfold State.armedEvent
  split
  · rfl
  · split
    · rfl
    · simp

@[simp] theorem State.vigilWake_regsBars (s : State) (h : W64) : (s.vigilWake h).regsBars = s.regsBars := by
  have harmed := s.armedEvent_regsBars h 3 fun _ => true
  unfold State.vigilWake
  split <;> next he => simpa [he] using harmed

@[simp] theorem State.kick_regsBars (s : State) (h : W64) : (s.kick h).regsBars = s.regsBars := by
  unfold State.kick
  split <;> rfl

@[simp] theorem State.deliver_regsBars (s : State) (h : W64) (flight : Nat) (v : W64) :
    (s.deliver h flight v).regsBars = s.regsBars := by
  unfold State.deliver
  dsimp only
  split
  · rw [State.kick_regsBars, State.push_regsBars]
    exact State.modCtx_regsBars (fun _ => by rfl) ..
  · exact State.modCtx_regsBars (fun _ => by rfl) ..

@[simp] theorem State.wake_regsBars (s : State) (v : Vigil) : (s.wake v).regsBars = s.regsBars := by
  unfold State.wake
  cases v.waiter <;> simp

@[simp] theorem State.fireVigils_regsBars (s : State) (pa n : Nat) : (s.fireVigils pa n).regsBars = s.regsBars :=
  foldl_regsBars (fun t v => t.wake_regsBars v) ..

@[simp] theorem State.endWait_regsBars (s : State) (w : BarWait) (gone : Bool) : (s.endWait w gone).regsBars = s.regsBars := by
  unfold State.endWait
  cases w.owner <;> cases gone <;> simp

@[simp] theorem State.wakeBar_regsBars (s : State) (pa : Nat) (gone : Bool) (hit : BarWait → Bool) :
    (s.wakeBar pa gone hit).regsBars = s.regsBars :=
  foldl_regsBars (fun t w => t.endWait_regsBars w gone) ..

/-! ## A landing writes its bytes and, of the rest of memory, barrier objects alone (R239, R242) -/

/-- An address outside the 40 bytes of every object of a list (R235). -/
def OutsideBars (l : List Bar) (x : Nat) : Prop := ∀ b ∈ l, x < b.pa ∨ b.pa + 40 ≤ x

/-- Of memory only objects of the list may change, objects may only end, and the registers of the context in turn stay. -/
structure WithinBars (l : List Bar) (s t : State) : Prop where
  regs : t.cc.regs = s.cc.regs
  bars : ∀ b ∈ t.bars, b ∈ s.bars
  bytes : ∀ x, OutsideBars l x → memByte t.mem x = memByte s.mem x

variable {l : List Bar}

theorem WithinBars.trans {s t u : State} (hst : WithinBars l s t) (htu : WithinBars l t u) : WithinBars l s u where
  regs := htu.regs.trans hst.regs
  bars b hb := hst.bars b (htu.bars b hb)
  bytes x hx := (htu.bytes x hx).trans (hst.bytes x hx)

theorem WithinBars.of_regsBars {s t : State} (h : t.regsBars = s.regsBars) (hmem : t.mem = s.mem) : WithinBars l s t where
  regs := congrArg Prod.fst h
  bars b hb := by rwa [← show t.bars = s.bars from congrArg Prod.snd h]
  bytes x _ := by rw [hmem]

theorem withinBars_foldl {α : Type} {f : State → α → State} {as : List α} (hf : ∀ s, ∀ a ∈ as, WithinBars l s (f s a)) (s : State) :
    WithinBars l s (as.foldl f s) := by
  induction as generalizing s with
  | nil => exact .of_regsBars rfl rfl
  | cons a as ih =>
    obtain ⟨ha, has⟩ := List.forall_mem_cons.mp fun a (h : a ∈ _ :: _) s => hf s a h
    exact (ha s).trans (ih (fun s a h => has a h s) (f s a))

theorem withinBars_fireVigils (s : State) (pa n : Nat) : WithinBars l s (s.fireVigils pa n) :=
  .of_regsBars (s.fireVigils_regsBars pa n) (s.fireVigils_mem pa n)

theorem withinBars_wakeBar (s : State) (pa : Nat) (gone : Bool) (hit : BarWait → Bool) : WithinBars l s (s.wakeBar pa gone hit) :=
  .of_regsBars (s.wakeBar_regsBars pa gone hit) (s.wakeBar_mem pa gone hit)

/-- Bytes written inside an object of the list. -/
theorem withinBars_memPuts {b : Bar} (hb : b ∈ l) (s : State) (k : Nat) (bs : List Byte) (hk : k + bs.length ≤ 40) :
    WithinBars l s { s with mem := memPuts s.mem (b.pa + k) bs } where
  regs := rfl
  bars _ h := h
  bytes x hx := memByte_memPuts_outside _ _ _ (by have := hx b hb; omega)

theorem withinBars_orStatus {b : Bar} (hb : b ∈ l) (s : State) (v : W64) : WithinBars l s (s.orStatus b.pa v) :=
  (withinBars_memPuts hb s 32 _ (by simp [leBytes_length])).trans (withinBars_fireVigils ..)

theorem withinBars_putBar {b : Bar} (hb : b ∈ l) (s : State) (phase : BitVec 16) (count ahead : Nat) :
    WithinBars l s (s.putBar b.pa phase count ahead) :=
  (withinBars_memPuts hb s 0 _ (by simp [leBytes_length])).trans (withinBars_fireVigils ..)

theorem withinBars_destroyBar {b : Bar} (hb : b ∈ l) (s : State) (status : W64) : WithinBars l s (s.destroyBar b.pa status) := by
  have hfewer : WithinBars l s { s with bars := s.bars.filter fun c => !decide (c.pa = b.pa) } :=
    ⟨rfl, fun _ h => List.mem_of_mem_filter h, fun _ _ => rfl⟩
  exact (hfewer.trans (withinBars_orStatus hb ..)).trans (withinBars_wakeBar ..)

theorem withinBars_countBytes {b : Bar} (hb : b ∈ l) (s : State) (n : Nat) : WithinBars l s (s.countBytes b.pa n) := by
  have hput := withinBars_putBar hb s
  unfold State.countBytes
  dsimp only
  split
  · exact hput ..
  · split
    · exact ((hput ..).trans (withinBars_orStatus hb ..)).trans (withinBars_wakeBar ..)
    · exact (hput ..).trans (withinBars_wakeBar ..)

theorem withinBars_countLanding {s : State} (hl : ∀ b ∈ s.bars, b ∈ l) (pa n : Nat) : WithinBars l s (s.countLanding pa n) :=
  withinBars_foldl (fun t b hb => withinBars_countBytes (hl b (List.mem_of_mem_filter hb)) t _) s

/-- The state once bytes are in memory, before barrier objects and vigil entries are looked at. -/
theorem withinBars_land {s : State} {pa : Nat} {bs : List Byte} (hbs : bs ≠ []) :
    WithinBars s.bars (Landed s pa bs) (s.land pa bs) := by
  have hstruck : WithinBars s.bars (Landed s pa bs)
      (((Landed s pa bs).struck pa bs.length).foldl (fun st b => st.destroyBar b 0xA#64) (Landed s pa bs)) := by
    refine withinBars_foldl (fun t a ha => ?_) _
    obtain ⟨b, hb, rfl⟩ := List.mem_map.mp ha
    exact withinBars_destroyBar (List.mem_of_mem_filter hb) t _
  rw [State.land, if_neg (by simpa using hbs)]
  exact (hstruck.trans (withinBars_countLanding hstruck.bars ..)).trans (withinBars_fireVigils ..)

/-! ## What a landing comes to -/

theorem State.land_regs (s : State) (pa : Nat) (bs : List Byte) : (s.land pa bs).cc.regs = s.cc.regs := by
  by_cases hbs : bs = []
  · rw [State.land, if_pos (by simp [hbs])]
  · exact (withinBars_land hbs).regs

theorem storesOnly_land (s : State) (pa : Nat) {bs : List Byte} (hbs : bs ≠ []) : StoresOnly s (s.land pa bs) pa bs.length :=
  fun x hx hbars => ((withinBars_land hbs).bytes x hbars).trans (memByte_memPuts_outside _ _ _ hx)

theorem bytesAt_land {s : State} (hmem : MemoryOk s) {pa : Nat} {bs : List Byte} (hclear : ClearOfBarriers s pa bs.length) :
    BytesAt (s.land pa bs) pa bs := by
  intro i hi
  have hbs : bs ≠ [] := by rintro rfl; exact absurd hi (Nat.not_lt_zero i)
  have hout : OutsideBars s.bars (pa + i) := fun b hb => by have := hclear b hb; omega
  exact ((withinBars_land hbs).bytes _ hout).trans (memByte_memPuts_inside hmem pa bs i hi)

/-- R239, R242, R244: a landing that strikes no object, is counted by none and wakes nobody. -/
theorem State.land_of_unwatched {s : State} {pa : Nat} {bs : List Byte} (hbs : bs ≠ []) (h : Unwatched s pa bs.length) :
    s.land pa bs = Landed s pa bs := by
  obtain ⟨hclear, hcount, hvigil⟩ := h
  have hstruck : (Landed s pa bs).struck pa bs.length = [] := by
    rw [State.struck, List.map_eq_nil_iff, List.filter_eq_nil_iff]
    intro b hb
    have := hclear b hb
    rw [overlap, decide_eq_true_eq]
    omega
  have hcounting : (Landed s pa bs).countLanding pa bs.length = Landed s pa bs := by
    rw [State.countLanding, List.filter_eq_nil_iff.mpr fun b hb => ?_]
    · rfl
    · rw [Bool.and_eq_true, decide_eq_true_eq]
      rintro ⟨hc, hlt⟩
      exact absurd (hcount b hb hc) (Nat.ne_of_gt hlt)
  have hquiet : ∀ v ∈ s.vigils, (decide (0 < overlap pa bs.length v.pa (if v.size8 then 8 else 4)) &&
      v.holds (Landed s pa bs)) = false := fun v hv => by rw [hvigil v hv]; rfl
  have hfire : (Landed s pa bs).fireVigils pa bs.length = Landed s pa bs := by
    have hnone := List.filter_eq_nil_iff.mpr fun v hv => Bool.not_eq_true _ ▸ hquiet v hv
    have hall := List.filter_eq_self.mpr fun v hv => (Bool.not_eq_true' _).mpr (hquiet v hv)
    simp only [State.fireVigils, show (Landed s pa bs).vigils = s.vigils from rfl, hnone, hall]
    rfl
  rw [State.land, if_neg (by simpa using hbs)]
  show (((((Landed s pa bs).struck pa bs.length).foldl _ (Landed s pa bs)).countLanding pa bs.length).fireVigils pa bs.length) = _
  rw [hstruck, List.foldl_nil, hcounting, hfire]

end Sys2Proof.Machine
end

section
/-! PROOFS. Accesses of the control core (R183 to R187): what LD, LDA, ST, STR, FENCE and FLUSH come to with their sources full;
settles O18 to O21. -/

namespace Sys2Proof.Machine
open Sys2Proof.Machine.Claims

/-! ## Addresses and values (R33, R184) -/

theorem reg_add_sext64 {w : Nat} (s : State) (a : Reg) (o : BitVec w) : s.reg a + sext64 o = addrOf s a o := by
  rw [addrOf, keepI_add, keepI_natCast, keepN_toNat, sext64_eq_keepI]

/-- A number of w bits as a signed one is its balanced residue. -/
theorem signedOf_eq_bmod {w x : Nat} (hw : 0 < w) (hx : x < 2 ^ w) : signedOf w x = (x : Int).bmod (2 ^ w) := by
  obtain ⟨k, rfl⟩ := Nat.exists_eq_succ_of_ne_zero hw.ne'
  have hpow : 2 ^ (k + 1) = 2 * 2 ^ k := by rw [Nat.pow_succ, Nat.mul_comm]
  have hhalf : (2 * 2 ^ k + 1) / 2 = 2 ^ k := by omega
  have hmod : (x : Int) % ((2 ^ (k + 1) : Nat) : Int) = x := Int.emod_eq_of_lt (by omega) (by exact_mod_cast hx)
  have hcast : ((2 ^ (k + 1) : Nat) : Int) = 2 ^ (k + 1) := by norm_cast
  rw [signedOf, Nat.succ_sub_one, Int.bmod, hmod, hcast]
  split <;> split <;> omega

theorem leNat_lt (bs : List Byte) : leNat bs < 2 ^ (8 * bs.length) := by
  induction bs with
  | nil => exact Nat.one_pos
  | cons b bs ih =>
    have hb := b.isLt
    rw [leNat, List.length_cons, Nat.mul_succ, Nat.pow_add]
    omega

/-- R184: the loaded bytes, sign-extended. -/
theorem loadValue_memBytes (m : List (Nat × Byte)) (pa : Nat) {n : Nat} (hn : 0 < n) :
    loadValue (memBytes m pa n) = keepI ((leNat (memBytes m pa n) : Int).bmod (2 ^ (8 * n))) := by
  have hlt := leNat_lt (memBytes m pa n)
  rw [memBytes_length] at hlt
  rw [loadValue, memBytes_length, signedOf_eq_bmod (by omega) hlt]
  rfl

theorem leBytes_succ (n x : Nat) : leBytes (n + 1) x = leBytes n x ++ [BitVec.ofNat 8 (x / 256 ^ n)] := by
  induction n generalizing x with
  | zero => rw [Nat.pow_zero, Nat.div_one]; rfl
  | succ n ih => rw [leBytes, ih, leBytes, Nat.div_div_eq_div_mul, ← Nat.pow_succ']; rfl

/-- R29: a word's bytes are those of its number. -/
theorem leBytes_toNat {w : Nat} (x : BitVec w) (n : Nat) : leBytes n x.toNat = bytesOf x n := by
  induction n with
  | zero => rfl
  | succ n ih =>
    rw [leBytes_succ, ih, bytesOf, byteOf]
    congr 2
    apply BitVec.eq_of_toNat_eq
    rw [BitVec.extractLsb'_toNat, BitVec.toNat_ofNat, Nat.shiftRight_eq_div_pow, Nat.pow_mul]

/-! ## What each instruction comes to with its sources full -/

theorem withAccess_misaligned {ea : W64} {n : Nat} (h : ea.toNat % n ≠ 0) (right : Right) (s : State)
    (k : Extent → State → Result) : withAccess ea n right s k = .next (s.trapAcc 0x03 ea n right.code) := if_pos h

theorem withAccess_refused {ea : W64} {n reason : Nat} {right : Right} {s : State} (h : ea.toNat % n = 0)
    (hc : covered s.cc.lease ea.toNat n right = .error reason) (k : Extent → State → Result) :
    withAccess ea n right s k = .next (s.ccLeaseFault ea n right.code reason) := by
  rw [withAccess, if_neg (by simp [h]), hc]

theorem withAccess_covered {ea : W64} {n : Nat} {right : Right} {s : State} {e : Extent} (h : ea.toNat % n = 0)
    (hc : covered s.cc.lease ea.toNat n right = .ok e) (k : Extent → State → Result) : withAccess ea n right s k = k e s := by
  rw [withAccess, if_neg (by simp [h]), hc]

theorem bytesOf_length {w : Nat} (x : BitVec w) (n : Nat) : (bytesOf x n).length = n := by
  rw [← leBytes_toNat, leBytes_length]

/-- R184: a load whose address may be read. -/
def loadGoes (d : Reg) (ea : W64) (n : Nat) (e : Extent) (s : State) : Result :=
  withDest d s fun s => if ccBusy s then loadLater d ea n s else loadAt d ea n e s

/-- R185: a store whose address may be written. -/
def storeGoes (ea : W64) (bs : List Byte) (e : Extent) (s : State) : Result :=
  if ccBusy s then queueOnly ea (.store bs) s else storeAt ea bs e s

section
variable {s : State} {a b d : Reg} {i : Instr} {z : BitVec 2}

theorem exec_load {ta : Bool} {o : BitVec 13} (hi : i = .ld d a ta z o ∨ i = .lda d a ta z o) (hsrc : Ready s [a]) :
    exec i s = withAccess (addrOf s a o) (2 ^ z.toNat) .r s (loadGoes d (addrOf s a o) (2 ^ z.toNat)) := by
  have hload : exec i s = load d a ta z o s := by rcases hi with rfl | rfl <;> rfl
  rw [hload, load, withSrcs_ready (by simpa [Ready] using hsrc), ← reg_add_sext64]
  rfl

theorem exec_store {ta tb : Bool} {o : BitVec 12} (hi : i = .st b a ta tb z o ∨ i = .str b a ta tb z o) (hsrc : Ready s [a, b]) :
    exec i s = withAccess (addrOf s a o) (2 ^ z.toNat) .w s
      (storeGoes (addrOf s a o) (bytesOf (s.reg b) (2 ^ z.toNat))) := by
  have hstore : exec i s = store b a ta tb z o s := by rcases hi with rfl | rfl <;> rfl
  rw [hstore, store, withSrcs_ready (by simpa [Ready] using hsrc), ← reg_add_sext64, ← leBytes_toNat]
  rfl

end

/-- R183: every load and store is the check of its address and one of the two shapes. -/
theorem exec_coreAccess {s : State} {i : Instr} {a : Reg} {ea : W64} {n : Nat} {right : Right} {l : List Reg}
    (h : CoreAccess s i a ea n right l) (hsrc : Ready s l) :
    (∃ d, (∃ a ta z o, i = .ld d a ta z o ∨ i = .lda d a ta z o) ∧ right = .r ∧
      exec i s = withAccess ea n right s (loadGoes d ea n)) ∨
    (∃ bs : List Byte, bs.length = n ∧ right = .w ∧ exec i s = withAccess ea n right s (storeGoes ea bs)) := by
  cases h with
  | ld d _ ta z o => exact .inl ⟨d, ⟨a, ta, z, o, .inl rfl⟩, rfl, exec_load (.inl rfl) hsrc⟩
  | lda d _ ta z o => exact .inl ⟨d, ⟨a, ta, z, o, .inr rfl⟩, rfl, exec_load (.inr rfl) hsrc⟩
  | st b _ ta tb z o => exact .inr ⟨_, bytesOf_length .., rfl, exec_store (.inl rfl) hsrc⟩
  | str b _ ta tb z o => exact .inr ⟨_, bytesOf_length .., rfl, exec_store (.inr rfl) hsrc⟩

/-! ## Loads (R184) -/

theorem loadGoes_of_phys {d : Reg} {ea : W64} {n pa : Nat} {attr : BitVec 8} {e : Extent} {s : State} (hd : Free s d)
    (hbusy : ccBusy s = false) (hplace : e.place ea.toNat = .phys pa attr) (hbad : s.badAt pa n = none) :
    loadGoes d ea n e s = .next (((s.launch d (some (loadValue (memBytes s.mem pa n)))).2.push
      (.lateDelivery ⟨s.cc.task, s.cc.nextId⟩))).retire := by
  rw [loadGoes, withDest_ready hd, hbusy, if_neg Bool.false_ne_true, loadAt, hplace]
  simp only [badPlace, hbad, readPlace]
  rw [finishLate_eq]
  simp [State.launch, State.modCc]

/-- Settles O18: both loads run one shape, which marks rd and notes the value for its delivery. -/
theorem loadsDeliverTheirBytes : Obligations.LoadsDeliverTheirBytes := by
  unfold Obligations.LoadsDeliverTheirBytes
  intro d a ta z o s e pa hsrc hd hgrant hbad i hi
  obtain ⟨halign, hcov, hbusy, attr, hplace⟩ := hgrant
  rw [exec_load hi hsrc, withAccess_covered halign hcov, loadGoes_of_phys hd hbusy hplace hbad,
    loadValue_memBytes _ _ (Nat.two_pow_pos _)]
  refine ⟨_, rfl, awaits_launch goesOn_retire_self d _ s, rfl, rfl, .of_mem rfl⟩

/-! ## Stores (R185) -/

theorem storeGoes_of_phys {ea : W64} {bs : List Byte} {pa : Nat} {attr : BitVec 8} {e : Extent} {s : State}
    (hbusy : ccBusy s = false) (hplace : e.place ea.toNat = .phys pa attr) :
    storeGoes ea bs e s = .next (s.land pa bs).retire := by
  rw [storeGoes, hbusy, if_neg Bool.false_ne_true, storeAt, hplace]
  rfl

theorem copiesFewer_landed (s : State) (pa : Nat) (bs : List Byte) : CopiesFewer s (Landed s pa bs) :=
  ⟨fun _ h => List.mem_of_mem_filter h, fun _ h => List.mem_of_mem_filter h⟩

/-- Settles O19: both stores run one shape, which lands the bytes and goes on. -/
theorem storesPutTheirBytes : Obligations.StoresPutTheirBytes := by
  unfold Obligations.StoresPutTheirBytes
  intro b a ta tb z o s e pa hsrc hgrant hmem i hi
  obtain ⟨halign, hcov, hbusy, attr, hplace⟩ := hgrant
  have hlen := bytesOf_length (s.reg b) (2 ^ z.toNat)
  have hbs : bytesOf (s.reg b) (2 ^ z.toNat) ≠ [] := List.ne_nil_of_length_pos (by rw [hlen]; exact Nat.two_pow_pos _)
  have hstores := storesOnly_land s pa hbs
  rw [hlen] at hstores
  rw [exec_store hi hsrc, withAccess_covered halign hcov, storeGoes_of_phys hbusy hplace]
  refine ⟨_, rfl, fun k => ?_, ?_, fun hclear => bytesAt_land hmem (hlen.symm ▸ hclear), fun hquiet => ?_⟩
  · exact congrArg (fun v : Vector RegCell 32 => v[k.toNat]'k.isLt) (s.land_regs pa _)
  · exact hstores
  · rw [State.land_of_unwatched hbs (hlen.symm ▸ hquiet)]
    exact ⟨⟨rfl, copiesFewer_landed ..⟩, goesOn_retire (goesOn_retire_self _) rfl rfl, rfl⟩

/-! ## FENCE, FLUSH and accesses behind an unperformed one (R165, R186, R187) -/

theorem exec_fence (e f g h : Bool) (c : BitVec 3) (s : State) : exec (.fence e f g h c) s = .next s.retire := rfl

/-- R187: right R or W at the address lets a FLUSH through. -/
theorem flushCovered_of_either {lease : List Extent} {ea : Nat} {x : Extent} (h : covered lease ea 1 .r = .ok x ∨
    (∃ n, covered lease ea 1 .r = .error n) ∧ covered lease ea 1 .w = .ok x) : flushCovered lease ea = .ok x := by
  rcases h with hr | ⟨⟨n, hr⟩, hw⟩
  · simp only [flushCovered, hr]
  · simp only [flushCovered, hr, hw]

theorem invalidate_one (l : List L1Copy) (pa : Nat) : invalidate l pa 1 = l.filter fun c => decide (c.line ≠ pa / 128) := by
  refine List.filter_congr fun c _ => ?_
  rw [Nat.add_sub_cancel, ← decide_not]
  exact decide_eq_decide.mpr (by omega)

theorem exec_flush {a : Reg} (ta : Bool) {o : BitVec 15} {s : State} {x : Extent} {pa : Nat} {attr : BitVec 8}
    (hsrc : Ready s [a]) (hbusy : ccBusy s = false) (hcov : flushCovered s.cc.lease (addrOf s a o).toNat = .ok x)
    (hplace : x.place (addrOf s a o).toNat = .phys pa attr) : exec (.flush a ta o) s =
      .next ({ s with l1 := s.l1.filter fun c => decide (c.line ≠ pa / 128) }).retire := by
  show execFlush a ta o s = _
  rw [execFlush, withSrcs_ready (by simpa [Ready] using hsrc)]
  simp only [reg_add_sext64, hcov, hbusy, Bool.false_eq_true, if_false, hplace, State.flushPlace, invalidate_one]

/-- R165: an access that an unperformed one holds back stands behind it, and the instruction is done. -/
def Queued (s t : State) (ea : W64) (kind : AccKind) : Prop :=
  SameBytes s t ∧ t.work = s.work ∧ GoesOn s t ∧ t.cc.accs = s.cc.accs ++ [⟨s.cc.nextId, ea, s.cc.pc, kind, false⟩]

theorem Run.await_accs (r : Run) (k : Reg) : (r.await k).accs = r.accs := by rw [Run.await_eq]

theorem loadGoes_of_busy {d : Reg} {s : State} (hd : Free s d) (hbusy : ccBusy s = true) (ea : W64) (n : Nat) (e : Extent) :
    ∃ t, loadGoes d ea n e s = .next t ∧ Queued s t ea (.load n) := by
  rw [loadGoes, withDest_ready hd, hbusy, if_pos rfl, loadLater, finishLate_eq]
  refine ⟨_, rfl, .of_mem rfl, rfl, goesOn_retire (goesOn_retire_self _) (Run.await_pc ..) (Run.await_loops ..), ?_⟩
  simp [State.queueAcc, State.launch, State.modCc, State.retire, Run.retire, Run.await_accs]

theorem storeGoes_of_busy {s : State} (hbusy : ccBusy s = true) (ea : W64) (bs : List Byte) (e : Extent) :
    ∃ t, storeGoes ea bs e s = .next t ∧ Queued s t ea (.store bs) := by
  rw [storeGoes, hbusy, if_pos rfl, queueOnly]
  exact ⟨_, rfl, .of_mem rfl, rfl, goesOn_retire (goesOn_retire_self _) rfl rfl, rfl⟩

/-- Settles O21: FENCE and FLUSH instruction by instruction, and the accesses behind an unperformed one form by form. -/
theorem fenceAndFlushOrderAndChangeNothing : Obligations.FenceAndFlushOrderAndChangeNothing := by
  unfold Obligations.FenceAndFlushOrderAndChangeNothing
  refine fun s => ⟨fun e f g h c => ?fence, fun a ta o x pa attr hsrc hbusy hcov hplace => ?flush,
    fun i a ea n right l e hacc hsrc halign hcov hbusy hd => ?behind⟩
  case fence =>
    exact ⟨_, exec_fence e f g h c s, fun _ => rfl, ⟨⟨rfl, .of_mem rfl⟩, rfl⟩, goesOn_retire_self s⟩
  case flush =>
    exact ⟨_, exec_flush ta hsrc hbusy (flushCovered_of_either hcov) hplace, fun _ => rfl,
      goesOn_retire (goesOn_retire_self _) rfl rfl, .of_mem rfl, rfl, rfl⟩
  case behind =>
    rcases exec_coreAccess hacc hsrc with ⟨d, hload, rfl, hexec⟩ | ⟨bs, rfl, rfl, hexec⟩
    · obtain ⟨t, ht, hbytes, hwork, hgo, haccs⟩ := loadGoes_of_busy (hd d hload) hbusy ea n e
      exact ⟨t, _, hexec.trans ((withAccess_covered halign hcov _).trans ht), hbytes, hwork, hgo, haccs, fun _ => rfl, nofun⟩
    · obtain ⟨t, ht, hbytes, hwork, hgo, haccs⟩ := storeGoes_of_busy hbusy ea bs e
      exact ⟨t, _, hexec.trans ((withAccess_covered halign hcov _).trans ht), hbytes, hwork, hgo, haccs, nofun,
        fun _ => ⟨bs, rfl, rfl⟩⟩

/-! ## Accesses that may not go (R183, R365) -/

theorem enters_trapAcc {s : State} (h : CanEnter s) (code : Nat) (ea : W64) (n right : Nat) :
    Enters s (s.trapAcc code ea n right) (causeWord code 0 0) s.cc.pc ea := by
  obtain ⟨htvec, hmode⟩ := h
  unfold State.trapAcc State.trapEntry
  simp only [htvec, hmode]
  exact ⟨rfl, rfl, rfl, rfl, rfl, fun _ => rfl, rfl, fun _ => rfl⟩

/-- The records of a task that ends with nobody to tell: no completion record, no parent, no armed event, no packet. -/
structure EndsUntold (s : State) (h : W64) (x : TaskRec) : Prop where
  rec_ : s.task? h = some x
  crec : x.crec = 0#64
  parent : x.parent = 0#64
  arms : ∀ e ∈ s.tasks, e.2.arms = []
  rises : SMap.risesFrom 0 s.tasks = true
  queues : s.queues = []

theorem foldl_eq_self {α β : Type} {f : β → α → β} {l : List α} (hf : ∀ b, ∀ a ∈ l, f b a = b) (b : β) : l.foldl f b = b := by
  induction l with
  | nil => rfl
  | cons a l ih =>
    obtain ⟨ha, hl⟩ := List.forall_mem_cons.mp fun a (h : a ∈ _ :: _) b => hf b a h
    rw [List.foldl_cons, ha, ih fun b a h => hl a h b]

theorem State.task?_zero (s : State) : s.task? 0#64 = none := by
  unfold State.task?
  split <;> simp

theorem State.task?_of_free {s : State} {h : W64} (hfree : SMap.get? s.tasks (handleKey h) = none) : s.task? h = none := by
  rw [State.task?, hfree]

/-- R264: where no event is armed, the end of a task without a parent is no event. -/
theorem State.endEvents_of_no_arms {s : State} (harms : ∀ e ∈ s.tasks, e.2.arms = []) (h : W64) : s.endEvents h 0#64 = s := by
  unfold State.endEvents
  rw [foldl_eq_self (fun st e he => by simp only [harms e he, List.filter_nil, List.foldl_nil])]
  simp only [State.armedEvent, State.task?_zero, State.modTask]

theorem SMap.get?_of_rises {α : Type} {m : SMap α} {n i : Nat} (h : SMap.risesFrom n m = true) (hi : i < n) :
    SMap.get? m i = none := by
  induction m generalizing n with
  | nil => rfl
  | cons e m ih =>
    simp only [SMap.risesFrom, Bool.and_eq_true, decide_eq_true_eq] at h
    rw [SMap.get?, if_neg (by omega)]
    exact ih h.2 (by omega)

theorem SMap.get?_del_self {α : Type} {m : SMap α} {n : Nat} (hm : SMap.risesFrom n m = true) (i : Nat) :
    SMap.get? (SMap.del m i) i = none := by
  induction m generalizing n with
  | nil => rfl
  | cons e m ih =>
    simp only [SMap.risesFrom, Bool.and_eq_true, decide_eq_true_eq] at hm
    rw [SMap.del]
    split
    · exact SMap.get?_of_rises hm.2 (by omega)
    · next hne => rw [SMap.get?, if_neg hne, ih hm.2]

theorem SMap.mem_ins {α : Type} {m : SMap α} {i : Nat} {x : α} {e : Nat × α} (he : e ∈ SMap.ins m i x) : e.2 = x ∨ e ∈ m := by
  induction m with
  | nil => exact .inl (congrArg Prod.snd (List.mem_singleton.mp he))
  | cons d m ih =>
    rw [SMap.ins] at he
    split at he
    · exact (List.mem_cons.mp he).imp_left (congrArg Prod.snd)
    · split at he
      · exact (List.mem_cons.mp he).imp (congrArg Prod.snd) (List.mem_cons_of_mem _)
      · rcases List.mem_cons.mp he with rfl | he
        · exact .inr List.mem_cons_self
        · exact (ih he).imp_right (List.mem_cons_of_mem _)

/-- R251, R252: such a task's end frees its record and leaves contexts and memory alone. -/
theorem EndsUntold.endTask {s : State} {h : W64} {x : TaskRec} (hx : EndsUntold s h x) (status : W64)
    (rec_ : Option (Vector W64 8)) :
    (s.endTask h status rec_).task? h = none ∧ (s.endTask h status rec_).cc = s.cc ∧ (s.endTask h status rec_).runs = s.runs ∧
      (s.endTask h status rec_).mem = s.mem := by
  obtain ⟨hrec, hcrec, hparent, harms, hrises, hqueues⟩ := hx
  simp only [State.endTask, hrec, hcrec, hparent, if_true]
  generalize hu : (if x.startC.isNone then s.fresh else s) = u
  have htasks : u.tasks = s.tasks := by subst hu; split <;> rfl
  have hnone : u.queues = [] := by subst hu; split <;> exact hqueues
  have hframe : u.cc = s.cc ∧ u.runs = s.runs ∧ u.mem = s.mem := by subst hu; split <;> exact ⟨rfl, rfl, rfl⟩
  rw [State.endEvents_of_no_arms (htasks ▸ harms)]
  have hq : (((u.freeWindow h false).dropWaits h).freeSaved h).queues = [] := hnone
  simp only [hq, List.flatMap_nil, List.foldl_nil]
  refine ⟨?_, hframe⟩
  have hdel : SMap.get? (SMap.del u.tasks (handleKey h)) (handleKey h) = none := SMap.get?_del_self (htasks ▸ hrises) _
  exact State.task?_of_free hdel

/-- The contexts left when no context holds a task. -/
theorem State.run?_of_nowhere {s : State} {h : W64} (hcc : s.cc.task ≠ h) (hruns : ∀ r ∈ s.runs, r.task ≠ h) : s.run? h = none := by
  rw [State.run?, if_neg hcc, List.find?_eq_none.mpr fun r hr => by simpa using hruns r hr, ite_self]

theorem State.passOn_cases (s : State) (r : Run) : s.passOn r = s ∨ ∃ h, s.passOn r = s.activate r.fc h := by
  unfold State.passOn
  split
  · exact .inl rfl
  · split
    · exact .inr ⟨_, rfl⟩
    · split
      · exact .inr ⟨_, rfl⟩
      · exact .inl rfl

theorem State.kick_eq (s : State) (h : W64) : ∃ l, s.kick h = { s with work := s.work ++ l } := by
  unfold State.kick
  split
  · exact ⟨[], by rw [List.append_nil]⟩
  · exact ⟨_, rfl⟩

theorem State.kickAll_eq (s : State) : ∃ l, s.kickAll = { s with work := s.work ++ l } := by
  unfold State.kickAll
  generalize s.allRuns = runs
  induction runs generalizing s with
  | nil => exact ⟨[], by rw [List.append_nil]; rfl⟩
  | cons r runs ih =>
    obtain ⟨l, hl⟩ := s.kick_eq r.task
    obtain ⟨m, hm⟩ := ih { s with work := s.work ++ l }
    exact ⟨l ++ m, by rw [List.foldl_cons, hl, hm, ← List.append_assoc]⟩

/-- The task of the context in turn has no other context. -/
structure OnlyHolder (s : State) (h : W64) : Prop where
  cc : s.cc.task = h
  runs : ∀ r ∈ s.runs, r.task ≠ h

/-- Task records, queues and memory. -/
def State.records (s : State) : SMap TaskRec × SMap Queue × List (Nat × Byte) := (s.tasks, s.queues, s.mem)

theorem State.records_withWork (s : State) (w : List Instr) : State.records { s with work := w } = s.records := rfl

theorem State.pushAll_records (s : State) (l : List Instr) : (s.pushAll l).records = s.records := rfl

theorem State.leaseEnds_records (s : State) (h : W64) (l : List Extent) : (s.leaseEnds h l).records = s.records := rfl

theorem State.passOn_records (s : State) (r : Run) : (s.passOn r).records = s.records := by
  rcases s.passOn_cases r with h | ⟨k, h⟩ <;> rw [h]
  rfl

theorem OnlyHolder.passOn {s : State} {h : W64} (hs : OnlyHolder s h) (r : Run) : OnlyHolder (s.passOn r) h := by
  rcases s.passOn_cases r with hp | ⟨k, hp⟩ <;> rw [hp]
  · exact hs
  · refine ⟨?_, fun q hq => ?_⟩
    · simp only [State.activate]
      split <;> exact hs.cc
    · obtain ⟨p, hp, rfl⟩ := List.mem_map.mp hq
      have hne := hs.runs p hp
      split <;> exact hne

theorem State.dropRun_records (s : State) (h : W64) : (s.dropRun h).records = s.records := by
  unfold State.dropRun
  split
  · split <;> rfl
  · rfl

theorem OnlyHolder.dropRun {s : State} {h : W64} (hs : OnlyHolder s h) (h0 : h ≠ 0#64) :
    (s.dropRun h).cc.task ≠ h ∧ ∀ r ∈ (s.dropRun h).runs, r.task ≠ h := by
  have hruns := hs.runs
  rw [State.dropRun, if_pos hs.cc]
  split
  · exact ⟨fun hz => h0 hz.symm, hruns⟩
  · next hcons =>
    rw [hcons] at hruns
    exact List.forall_mem_cons.mp hruns

/-- R395, R409: the state once the window of the context in turn is over, before its task is ended. -/
def State.windowEnded (s : State) (h : W64) : State :=
  ((((s.passOn s.cc).leaseEnds h s.cc.lease).dropRun h).pushAll [.contextSwitch, .dispatch]).kickAll

theorem State.windowEnded_records (s : State) (h : W64) : (s.windowEnded h).records = s.records := by
  obtain ⟨l, hl⟩ := ((((s.passOn s.cc).leaseEnds h s.cc.lease).dropRun h).pushAll [.contextSwitch, .dispatch]).kickAll_eq
  rw [State.windowEnded, hl, State.records_withWork, State.pushAll_records, State.dropRun_records, State.leaseEnds_records,
    State.passOn_records]

theorem OnlyHolder.windowEnded {s : State} {h : W64} (hs : OnlyHolder s h) (h0 : h ≠ 0#64) :
    (s.windowEnded h).cc.task ≠ h ∧ ∀ r ∈ (s.windowEnded h).runs, r.task ≠ h := by
  have hpass := hs.passOn s.cc
  have hlease : OnlyHolder ((s.passOn s.cc).leaseEnds h s.cc.lease) h := ⟨hpass.cc, hpass.runs⟩
  have hdrop := hlease.dropRun h0
  rw [State.windowEnded]
  generalize ((s.passOn s.cc).leaseEnds h s.cc.lease).dropRun h = u at hdrop ⊢
  obtain ⟨l, hl⟩ := (u.pushAll [.contextSwitch, .dispatch]).kickAll_eq
  rw [hl]
  exact hdrop

theorem State.settle_of_fault {s : State} {h cause : W64} {rec_ : Vector W64 8} (h0 : h ≠ 0#64) (hcc : s.cc.task = h)
    (hending : s.cc.ending = some (.fault cause rec_)) (hcmds : s.cc.cmds = []) :
    s.settle h = (s.windowEnded h).endTask h (faultStatus cause) (some rec_) := by
  have hquiet : s.cc.quiet = true := by rw [Run.quiet, hcmds]; rfl
  simp only [State.settle, State.run?_cc h0 hcc, hending, hquiet, Bool.not_true, Bool.false_eq_true, if_false]
  rfl

theorem State.dropCmds_of_idle {s : State} {h : W64} (h0 : h ≠ 0#64) (hcc : s.cc.task = h) (hcmds : s.cc.cmds = []) :
    s.dropCmds h = s := by
  have hrun := State.run?_cc h0 hcc
  have hsame : s.modRun h (fun x => { x with cmds := x.cmds.filter fun c => !s.cc.drops c && !c.abandoned }) = s := by
    rw [State.modRun_cc h0 hcc, hcmds, List.filter_nil, ← hcmds]
  simp only [State.dropCmds, hrun, hsame]
  rw [hcmds]
  simp only [List.filter_nil, List.foldl_nil, State.kick, hrun, hcmds, List.map_nil, State.pushAll, List.append_nil]

/-- R395: the context in turn as it ends by a fault, with no command to drop. -/
def State.faulted (s : State) (cause : W64) (rec_ : Vector W64 8) : State := { s with
  homes := s.homes.map (HomeOp.faulted s.cc.task)
  heldOps := s.heldOps.map (HomeOp.faulted s.cc.task)
  cc := { s.cc with ending := some (.fault cause rec_), due := [], accs := [], cmds := [] } }

theorem State.faultEnd_of_idle {s : State} {cause : W64} {rec_ : Vector W64 8} {x : TaskRec} (hx : s.task? s.cc.task = some x)
    (h0 : s.cc.task ≠ 0#64) (hcmds : s.cc.cmds = []) (hending : s.cc.ending = none) :
    s.faultEnd s.cc.task cause rec_ =
      ((((s.faulted cause rec_).putTask { x with st := .ending }).askGuests s.cc.task).dropWaits s.cc.task).settle s.cc.task := by
  have hmod : (s.faulted cause rec_).modTask s.cc.task (fun t => { t with st := .ending }) =
      (s.faulted cause rec_).putTask { x with st := .ending } := by
    rw [State.modTask, show (s.faulted cause rec_).task? s.cc.task = some x from hx]
  have hdrop : (((s.faulted cause rec_).putTask { x with st := .ending }).askGuests s.cc.task).dropCmds s.cc.task = _ :=
    State.dropCmds_of_idle h0 rfl rfl
  rw [← hdrop, ← hmod]
  simp only [State.faultEnd, State.run?_cc h0 rfl, hending, hcmds, List.filter_nil, List.foldl_nil,
    State.modRun, if_neg h0, if_true]
  rfl

theorem SMap.mem_of_get? {α : Type} {m : SMap α} {i : Nat} {x : α} (h : SMap.get? m i = some x) : (i, x) ∈ m := by
  induction m with
  | nil => exact nomatch h
  | cons e m ih =>
    rw [SMap.get?] at h
    split at h
    · next hi => rw [hi, ← Option.some.inj h]; exact List.mem_cons_self
    · exact List.mem_cons_of_mem _ (ih h)

theorem handle_of_task? {s : State} {h : W64} {x : TaskRec} (hx : s.task? h = some x) : x.handle = h ∧ h ≠ 0#64 ∧ ∃ k, (k, x) ∈ s.tasks := by
  unfold State.task? at hx
  split at hx
  · next t ht =>
    split at hx
    · next hh =>
      obtain rfl := Option.some.inj hx
      exact ⟨hh.1, hh.2, _, SMap.mem_of_get? ht⟩
    · exact nomatch hx
  · exact nomatch hx

/-- R393 to R395: FaultEnd of a task alone in its package: its window and the task end at once. -/
theorem faultEnd_of_endsAlone {s : State} (hs : EndsAlone s) (cause : W64) (rec_ : Vector W64 8) :
    (s.faultEnd s.cc.task cause rec_).task? s.cc.task = none ∧ (s.faultEnd s.cc.task cause rec_).run? s.cc.task = none ∧
      SameBytes s (s.faultEnd s.cc.task cause rec_) := by
  obtain ⟨x, hrec, hcrec, hparent, hcmds, hending, harms, hrises, hruns, hqueues⟩ := hs
  obtain ⟨hhandle, h0, k, hmem⟩ := handle_of_task? hrec
  rw [State.faultEnd_of_idle hrec h0 hcmds hending]
  generalize hu : (((s.faulted cause rec_).putTask { x with st := .ending }).askGuests s.cc.task).dropWaits s.cc.task = u
  have hcc : u.cc = (s.faulted cause rec_).cc := by rw [← hu]; rfl
  have hholder : OnlyHolder u s.cc.task := ⟨by rw [hcc]; rfl, by rw [← hu]; exact hruns⟩
  rw [State.settle_of_fault (s := u) (cause := cause) (rec_ := rec_) h0 hholder.cc (by rw [hcc]; rfl) (by rw [hcc]; rfl)]
  have hrecords : (u.windowEnded s.cc.task).records = (SMap.ins s.tasks (handleKey s.cc.task) { x with st := .ending }, s.queues, s.mem) := by
    rw [State.windowEnded_records, ← hu, ← hhandle]
    rfl
  obtain ⟨htasks, hq, hm⟩ : _ ∧ _ ∧ _ := by simpa only [State.records, Prod.mk.injEq] using hrecords
  have huntold : EndsUntold (u.windowEnded s.cc.task) s.cc.task { x with st := .ending } := by
    refine ⟨?_, hcrec, hparent, fun e he => ?_, ?_, hq.trans hqueues⟩
    · rw [State.task?, htasks, SMap.get?_ins, if_pos rfl]
      exact if_pos ⟨hhandle, h0⟩
    · rw [htasks] at he
      rcases SMap.mem_ins he with hx | he
      · rw [hx]
        exact harms _ hmem
      · exact harms e he
    · rw [htasks]
      exact SMap.rises_ins _ hrises (Nat.zero_le _)
  obtain ⟨hnone, hcc', hruns', hmem'⟩ := huntold.endTask (faultStatus cause) (some rec_)
  obtain ⟨hgone, hnowhere⟩ := hholder.windowEnded h0
  exact ⟨hnone, State.run?_of_nowhere (hcc' ▸ hgone) (hruns' ▸ hnowhere), .of_mem (hmem'.trans hm)⟩

/-- Settles O20: the check of an access's address comes before anything it does. -/
theorem accessesThatMayNotGoTouchNothing : Obligations.AccessesThatMayNotGoTouchNothing := by
  unfold Obligations.AccessesThatMayNotGoTouchNothing
  intro s i a ea n right l hacc hsrc
  have hexec : ∃ k, exec i s = withAccess ea n right s k := by
    rcases exec_coreAccess hacc hsrc with ⟨d, -, -, hexec⟩ | ⟨bs, -, -, hexec⟩ <;> exact ⟨_, hexec⟩
  obtain ⟨k, hexec⟩ := hexec
  rw [hexec]
  refine ⟨fun halign henter => ?misaligned, fun halign ⟨reason, hcov⟩ halone => ?refused⟩
  case misaligned => exact ⟨_, withAccess_misaligned halign .., enters_trapAcc henter ..⟩
  case refused => exact ⟨_, withAccess_refused halign hcov k, faultEnd_of_endsAlone halone ..⟩

end Sys2Proof.Machine
end

section
/-! PROOFS. Memory banks (R188 to R195): what a service cycle grants, what an MB word makes of the one request it serves, and what its
stores and line accesses come to. -/

namespace Sys2Proof.Machine
open Sys2Proof.Machine.Claims

/-! ## What a change of one context leaves alone -/

theorem State.modRun_frame (s : State) (h : W64) (f : Run → Run) :
    s.modRun h f = { s with cc := (s.modRun h f).cc, runs := (s.modRun h f).runs } := by
  unfold State.modRun
  split
  · rfl
  · split <;> rfl

theorem State.run?_modRun {s : State} {h : W64} {r : Run} {f : Run → Run} (hr : s.run? h = some r)
    (hf : ∀ q, (f q).task = q.task) : (s.modRun h f).run? h = some (f r) := by
  have hctx := State.run?_modCtx hr hf
  rwa [State.modCtx, hr] at hctx

theorem State.run?_of_live? {s : State} {h : W64} {r : Run} (hlive : s.live? h = some r) : s.run? h = some r := by
  unfold State.live? at hlive
  split at hlive
  · next q hq =>
    split at hlive
    · rwa [Option.some.inj hlive] at hq
    · exact nomatch hlive
  · exact nomatch hlive

theorem Run.site?_putSite (r : Run) (st : Site) : (r.putSite st).site? st.key = some st :=
  (SMap.get?_ins ..).trans (if_pos rfl)

/-- R191: lanes that must wait enter the window in order as far as it has room. -/
theorem intoWindow_eq {win : List WinEnt} (h : win.length ≤ 32) (new : List WinEnt) :
    intoWindow win new = ((win ++ new).take 32, (win ++ new).drop 32) := by
  induction new generalizing win with
  | nil => rw [List.append_nil, List.take_of_length_le h, List.drop_of_length_le h]; rfl
  | cons e new ih =>
    rw [intoWindow]
    split
    · rw [ih (by rw [List.length_append, List.length_singleton]; omega), List.append_assoc]
      rfl
    · have hfull : win.length = 32 := by omega
      rw [ih h]
      simp only [List.take_left' hfull, List.drop_left' hfull]

theorem intoWindow_of_room {win new : List WinEnt} (h : (win ++ new).length ≤ 32) : intoWindow win new = (win ++ new, []) := by
  rw [List.length_append] at h
  rw [intoWindow_eq (by omega), List.take_of_length_le (by rw [List.length_append]; omega),
    List.drop_of_length_le (by rw [List.length_append]; omega)]

/-! ## One request of a service cycle (R191, R195) -/

/-- What a service cycle of one request leaves: the record in its lane, on o3 where it was not performed, or held. -/
def mbAnswer (a : SiteRef) (r : Run) (st : Site) (lane : Nat) : MbRes → State
  | .error t => t
  | .ok (.done p, t) => t.emitMb a.task r st [(lane, p)] []
  | .ok (.late p, t) => t.emitMb a.task r st [] [(lane, p)]
  | .ok (.held, t) => t

theorem mbRun_single {e : WinEnt} {q : Rec} (hq : startRec e.recs = some q) (f : Nat × WinEnt → Rec → State → MbRes) (w : Nat)
    (s : State) : mbRun f [(w, e)] s = (f (w, e) q s).map fun x => ([((w, e), x.1)], x.2) := by
  rw [mbRun]
  simp only [hq, mbRun]
  cases f (w, e) q s <;> rfl

section
variable {w : Nat} (hw : w ≤ 1) (e : WinEnt)
include hw

/-- R191: the record of the only request leaves in its own lane. -/
theorem mbPlaces_single (o : MbOut) :
    mbPlaces [((w, e), o)] = (match o with | .done p => [(e.lane, p)] | _ => [], []) := by
  obtain rfl | rfl : w = 0 ∨ w = 1 := by omega
  · cases o <;> rfl
  · cases o <;> rfl

theorem mbServed_single {q : Rec} (hq : startRec e.recs = some q) (f : Nat × WinEnt → Rec → State → MbRes) (s : State) :
    mbServed f s 1 [(w, e)] = [(w, e)] := by
  rw [mbServed, mbRun_single hq]
  cases f (w, e) q s with
  | error t => rfl
  | ok x => simp only [Except.map, mbPlaces_single hw, List.isEmpty_nil, if_true]

theorem windowAfter_single {win wait : List WinEnt} (hlen : (servedWindow win wait w e).length ≤ 32) :
    windowAfter win [(w, e)] wait = (servedWindow win wait w e, []) := by
  obtain rfl | rfl : w = 0 ∨ w = 1 := by omega
  · exact intoWindow_of_room hlen
  · exact intoWindow_of_room hlen

end

theorem mbLate_single (w : Nat) (e : WinEnt) (o : MbOut) :
    mbLate [] [((w, e), o)] = match o with | .late p => [(e.lane, p)] | _ => [] := by
  cases o <;> rfl

theorem emitMb_nil (s : State) (h : W64) (r : Run) (st : Site) : s.emitMb h r st [] [] = s :=
  foldl_eq_self (fun _ _ _ => rfl) s

section
variable {s : State} {i : Instr} {a : SiteRef} {x : SiteArgs} {r : Run} {st : Site} {lane : Nat} {e : WinEnt} {q : Rec}

theorem mbWord_of_takes (h : MbTakes s i a r st lane e q) (f : Run → Site → Nat × WinEnt → Rec → State → MbRes) :
    ∃ w, mbWord i a s f = .next ((mbAnswer a r (afterTake st) lane (f r (afterTake st) (w, e) q (taken s a st))).wakeSite a.task
      (siteKey a.row a.col)) := by
  obtain ⟨hsite, hal, ⟨w, wait, hw, hmb, -, hlen⟩, rfl, hq⟩ := h
  have hafter : afterTake st = { st with mb := none, core := { st.core with win := servedWindow st.core.win wait w e } } := by
    rw [afterTake, hmb]
  refine ⟨w, ?_⟩
  rw [mbWord, withEvent_of_siteAt hsite, hmb]
  simp only [Option.getD_some, List.length_singleton, mbServed_single hw e hq, windowAfter_single hw e hlen, mbRun_single hq,
    ← hafter]
  show _ = Host.Outcome.next
    ((mbAnswer a r (afterTake st) e.lane (f r (afterTake st) (w, e) q (s.putSite a.task (afterTake st)))).wakeSite _ _)
  cases f r (afterTake st) (w, e) q (s.putSite a.task (afterTake st)) with
  | error t => rfl
  | ok y =>
    obtain ⟨o, t⟩ := y
    simp only [Except.map, mbPlaces_single hw, lateLanes, List.filterMap_nil, mbLate_single]
    cases o with
    | done p => rfl
    | late p => rfl
    | held => rw [emitMb_nil]; rfl

end

/-! ## The word and its target (R50, R190, R196) -/

section
variable {s : State} {i : Instr} {a : SiteRef} {x : SiteArgs} {r : Run} {st : Site} {lane : Nat} {e : WinEnt} {q : Rec}

/-- The word that an MB carries out is the first word of its site, and it passes the checks of R190. -/
theorem word_of_mbTakes {op : Nat} (h : MbTakes s i a r st lane e q) (hop : i.siteOpcode = some (1, op))
    (hx : i.siteArgs = some (a, x)) : (afterTake st).args = x ∧ opSite (afterTake st).word = op ∧ mbWordOk op x = true := by
  obtain ⟨⟨-, -, -, hevent⟩, hal, ⟨w, wait, -, hmb, -⟩, -⟩ := h
  have hafter : (afterTake st).word = st.word := by rw [afterTake, hmb]; rfl
  have hdecode : decodeSite (st.at r.task) st.word = some i := by
    simpa only [Run.siteEvent, hal, hmb, Option.isSome_some, if_true] using hevent
  obtain ⟨hok, hinstr⟩ : siteWordOk (kindSite st.word) (opSite st.word) (unpackSite st.word) = true ∧
      siteInstr (kindSite st.word) (opSite st.word) (st.at r.task) (unpackSite st.word) = some i := by
    simpa [decodeSite] using hdecode
  have row := siteRow_of_siteInstr hinstr
  obtain ⟨hkind, hopc⟩ := Prod.mk.inj (Option.some.inj (row.opcode.symm.trans hop))
  obtain ⟨-, hargs⟩ := Prod.mk.inj (Option.some.inj (row.args.symm.trans hx))
  rw [Site.args, hafter, ← hargs, ← hopc]
  rw [hkind] at hok
  exact ⟨rfl, rfl, hok⟩

theorem linkVal_eq_reqVal (e : WinEnt) (sel : Sel) : linkVal e.recs sel = reqVal e sel 0 := by
  cases sel <;> rfl

/-- R196: the words a store takes, where its source is a link. -/
theorem storeWords_eq (hb : selOk 1 x.selB = true) (e : WinEnt) (c : Nat) :
    storeWords x e c = (List.range c).flatMap fun j => leBytes 4 (reqVal e x.selB j).toNat := by
  unfold storeWords
  cases hsel : x.selB with
  | link i f => rfl
  | _ => simp [hsel, selOk] at hb

end

/-! ## Records with words in them (R97, R190) -/

/-- Fields written one after another from a field on. -/
theorem foldl_setField (l : List W32) (d : Nat) (g : Nat → W32) (n : Nat) :
    ((List.range n).foldl (fun l i => setField l (d + i) (g i)) l).length = (if n = 0 then l.length else max l.length (d + n)) ∧
    ∀ f, ((List.range n).foldl (fun l i => setField l (d + i) (g i)) l).getD f 0#32 =
      if d ≤ f ∧ f < d + n then g (f - d) else l.getD f 0#32 := by
  induction n with
  | zero => exact ⟨rfl, fun f => (if_neg (by omega)).symm⟩
  | succ n ih =>
    obtain ⟨hlen, hget⟩ := ih
    rw [List.range_succ, List.foldl_append, List.foldl_cons, List.foldl_nil]
    refine ⟨?_, fun f => ?_⟩
    · rw [length_setField, hlen, if_neg (Nat.succ_ne_zero n)]
      change max _ _ = _
      split <;> omega
    · rw [getD_setField, hget]
      by_cases hf : f = d + n
      · rw [if_pos hf, if_pos (by omega), hf, Nat.add_sub_cancel_left]
      · rw [if_neg hf]
        exact if_congr (by omega) rfl rfl

theorem filled_withWords (q : Rec) (x : SiteArgs) {ws : List W32} (hws : ws ≠ []) : Filled q (withWords x q ws) x ws := by
  obtain ⟨hlen, hget⟩ := foldl_setField q.flds (x.dstN - 8) (fun i => ws.getD i 0#32) ws.length
  exact ⟨rfl, hlen.trans (if_neg (by simpa using hws)), hget⟩

/-! ## Storage (R194) -/

theorem ofNat_leNat_four (f : Nat → Byte) (o : Nat) :
    BitVec.ofNat 32 (leNat [f o, f (o + 1), f (o + 2), f (o + 3)]) = word4 f o := by
  rw [word4]
  congr 1
  simp only [leNat]
  omega

theorem words_eq (m : MbStore) (o c : Nat) :
    m.words o c = (List.range c).map fun j => word4 (newestScratch m) (o + 4 * j) :=
  List.map_congr_left fun j _ => ofNat_leNat_four (newestScratch m) (o + 4 * j)

section
variable {s : State} {i : Instr} {a : SiteRef} {x : SiteArgs} {r : Run} {st : Site} {lane : Nat} {e : WinEnt} {q : Rec}

theorem afterTake_key (st : Site) : (afterTake st).key = st.key := by
  unfold afterTake
  split <;> rfl

theorem afterTake_rnd (st : Site) : (afterTake st).rnd = st.rnd := by
  unfold afterTake
  split <;> rfl

theorem run?_taken (hr : s.run? a.task = some r) (st : Site) : (taken s a st).run? a.task = some (r.putSite (afterTake st)) :=
  State.run?_modRun hr fun _ => rfl

theorem mbOf_taken (hr : s.run? a.task = some r) (st : Site) (k : Nat) : (taken s a st).mbOf a.task k = r.mb k := by
  rw [State.mbOf, run?_taken hr]
  rfl

/-- R194: what a store of the one request leaves. -/
theorem shadows_storeShadow (hr : s.run? a.task = some r) (pl : ShadowAt) (addr : Nat) (bs : List Byte) (done late : Rec) :
    Shadows s ((mbAnswer a r (afterTake st) lane (storeShadow a.task (afterTake st) pl addr bs done late (taken s a st))).wakeSite a.task
      (siteKey a.row a.col)) a r st lane pl addr bs done late := by
  unfold Shadows storeShadow
  simp only [mbOf_taken hr, afterTake_key, afterTake_rnd]
  cases shadowPuts (r.mb st.key).cap st.rnd pl addr bs (r.mb st.key).shadow <;> rfl

/-! ## Scratchpad accesses (R196, R197, R201) -/

/-- R201: an access of c words of the scratchpad at an offset that is out of range, or misaligned, is a region fault. -/
def ScratchFaults (s : State) (i : Instr) (a : SiteRef) (r : Run) (st : Site) (e : WinEnt) (o c : Nat) : Prop :=
  ((r.mb st.key).size < o + 4 * c → ∃ t, exec i s = .next t ∧ t = ((taken s a st).regionFault a.task 0x12 1
    (siteInfo (afterTake st) e.lane (keepN o) (o % 2 ^ 32))).wakeSite a.task (siteKey a.row a.col)) ∧
  (o + 4 * c ≤ (r.mb st.key).size → o % (4 * c) ≠ 0 → ∃ t, exec i s = .next t ∧ t = ((taken s a st).regionFault a.task 0x12 2
    (siteInfo (afterTake st) e.lane (keepN o) (o % 2 ^ 32))).wakeSite a.task (siteKey a.row a.col))

/-- R196, R201: the one request of a scratchpad word: a region fault, or performed. -/
theorem scratch_of_takes (h : MbTakes s i a r st lane e q) {k : Run → Site → Nat × WinEnt → Rec → State → Nat → Nat → MbRes}
    (hexec : exec i s = mbWord i a s fun r st e q s => withScratch a.task r st e s (k r st e q s)) {o c : Nat}
    (htarget : mbTarget r (afterTake st) e = .scratch o c) :
    ScratchFaults s i a r st e o c ∧
    (o + 4 * c ≤ (r.mb st.key).size → o % (4 * c) = 0 → ∃ w, exec i s = .next ((mbAnswer a r (afterTake st) lane
      (k r (afterTake st) (w, e) q (taken s a st) o c)).wakeSite a.task (siteKey a.row a.col))) := by
  obtain ⟨w, hw⟩ := mbWord_of_takes h fun r st e q s => withScratch a.task r st e s (k r st e q s)
  rw [ScratchFaults, hexec, hw]
  simp only [withScratch, htarget, afterTake_key]
  refine ⟨⟨fun hsize => ⟨_, rfl, ?_⟩, fun hsize hodd => ⟨_, rfl, ?_⟩⟩, fun hsize halign => ⟨w, ?_⟩⟩
  · rw [if_pos hsize]; rfl
  · rw [if_neg (by omega), if_pos hodd]; rfl
  · rw [if_neg (by omega), if_neg (by omega)]

theorem run?_of_takes (h : MbTakes s i a r st lane e q) : s.run? a.task = some r := by
  obtain ⟨⟨hlive, -⟩, -⟩ := h
  exact State.run?_of_live? hlive

/-- SPLD and SPLDI (R196), by their offset. -/
theorem spLoad_of_takes {o : Nat} (h : MbTakes s i a r st lane e q) (hexec : exec i s = mbWord i a s (spLoad a.task))
    (hargs : (afterTake st).args = x) (htarget : mbTarget r (afterTake st) e = .scratch o (2 ^ x.m 23 22)) :
    ScratchFaults s i a r st e o (2 ^ x.m 23 22) ∧
    (o + 4 * 2 ^ x.m 23 22 ≤ (r.mb st.key).size → o % (4 * 2 ^ x.m 23 22) = 0 → ∃ t p, exec i s = .next t ∧
      Filled q p x ((List.range (2 ^ x.m 23 22)).map fun j => word4 (newestScratch (r.mb st.key)) (o + 4 * j)) ∧
      MbSends (taken s a st) t a r st [(lane, p)] []) := by
  obtain ⟨hfaults, hgoes⟩ := scratch_of_takes (k := fun _ st _ q s o c =>
    .ok (.done (withWords st.args q ((s.mbOf a.task st.key).words o c)), s)) h hexec htarget
  refine ⟨hfaults, fun hsize halign => ?_⟩
  obtain ⟨w, hw⟩ := hgoes hsize halign
  refine ⟨_, _, hw, filled_withWords q x ?_, ?_⟩
  · simp
  · rw [mbOf_taken (run?_of_takes h), afterTake_key, words_eq, hargs]
    rfl

theorem spld_of_takes (h : MbTakes s (.spld a x) a r st lane e q) : mbTarget r (afterTake st) e =
    .scratch ((reqVal e x.selA 0).toNat + x.m 18 0) (2 ^ x.m 23 22) := by
  obtain ⟨hargs, hop, -⟩ := word_of_mbTakes h rfl rfl
  simp only [mbTarget, hargs, hop, linkVal_eq_reqVal, mbC]

theorem spldi_of_takes (h : MbTakes s (.spldi a x) a r st lane e q) : mbTarget r (afterTake st) e =
    .scratch ((reqVal e x.selA 0).toNat + (reqVal e x.selB 0).toNat * 2 ^ x.m 21 19 + x.m 18 0) (2 ^ x.m 23 22) := by
  obtain ⟨hargs, hop, -⟩ := word_of_mbTakes h rfl rfl
  simp only [mbTarget, hargs, hop, linkVal_eq_reqVal, mbC]

theorem selOk_of_srcs {x : SiteArgs} {k : Nat} {u v : SrcUse} (h : x.srcs k u .used v = true) : selOk k x.selB = true := by
  simp only [SiteArgs.srcs, srcOk, Bool.and_eq_true] at h
  exact h.1.2

/-- R196, R198: source B of a store is a link. -/
theorem selOk_of_mbWordOk {op : Nat} {x : SiteArgs} (hop : op = 2 ∨ op = 6) (hok : mbWordOk op x = true) :
    selOk 1 x.selB = true := by
  obtain rfl | rfl := hop
  all_goals
    simp only [mbWordOk, Bool.and_eq_true] at hok
    exact selOk_of_srcs hok.2

theorem exec_spst_of_takes {o n : Nat} (ho : o = (reqVal e x.selA 0).toNat + x.m 18 0) (hn : n = 2 ^ x.m 23 22)
    (h : MbTakes s (.spst a x) a r st lane e q) :
    ScratchFaults s (.spst a x) a r st e o n ∧ (o + 4 * n ≤ (r.mb st.key).size → o % (4 * n) = 0 →
      ∃ t, exec (.spst a x) s = .next t ∧ Shadows s t a r st lane .scratch o
        ((List.range n).flatMap fun j => leBytes 4 (reqVal e x.selB j).toNat) q q) := by
  obtain ⟨hargs, hop, hok⟩ := word_of_mbTakes h rfl rfl
  have hsel := selOk_of_mbWordOk (.inl rfl) hok
  have htarget : mbTarget r (afterTake st) e = .scratch o n := by
    simp only [mbTarget, hargs, hop, linkVal_eq_reqVal, mbC, ho, hn]
  obtain ⟨hfaults, hgoes⟩ := scratch_of_takes (k := fun _ st e q s o c =>
    storeShadow a.task st .scratch o (storeWords x e.2 c) q q s) h rfl htarget
  refine ⟨hfaults, fun hsize halign => ?_⟩
  obtain ⟨w, hw⟩ := hgoes hsize halign
  rw [← storeWords_eq hsel]
  exact ⟨_, hw, shadows_storeShadow (run?_of_takes h) ..⟩

/-! ### SPATOM (R197) -/

/-- An integer's bits, signed or not, as they come back from its value. -/
theorem ofInt_value (w : W32) (signed : Prop) [Decidable signed] :
    (if signed then BitVec.ofInt 32 w.toInt else BitVec.ofInt 32 w.toNat) = w := by
  split
  · exact BitVec.ofInt_toInt
  · rw [BitVec.ofInt_natCast, BitVec.ofNat_toNat, BitVec.setWidth_eq]

theorem spatomNew_eq_spatomValue {ty : Nat} (hty : ty ≠ 8) (op : Nat) (old b c : W32) :
    spatomNew op ty old b c = spatomValue op (ty == 2) old b c := by
  have hle : (if (ty == 2) = true then old.toInt ≤ b.toInt else old.toNat ≤ b.toNat) ↔
      (if ty = 2 then old.toInt else old.toNat) ≤ (if ty = 2 then b.toInt else (b.toNat : Int)) := by
    by_cases h2 : ty = 2 <;> simp [h2]
  match op with
  | 0 => simp only [spatomNew, spatomValue, if_neg hty, BitVec.ofInt_add, BitVec.ofInt_toInt]
  | 1 => simp only [spatomNew, spatomValue, if_neg hty, min_def, apply_ite (BitVec.ofInt 32), ofInt_value, hle]
  | 2 => simp only [spatomNew, spatomValue, if_neg hty, max_def, apply_ite (BitVec.ofInt 32), ofInt_value, hle]
  | 3 | 4 | 5 | 6 => rfl
  | _ + 7 => rfl

theorem exec_spatom_of_takes {o : Nat} (ho : o = (reqVal e x.selA 0).toNat + x.m 18 0)
    (h : MbTakes s (.spatom a x) a r st lane e q) :
    ScratchFaults s (.spatom a x) a r st e o 1 ∧ (o + 4 ≤ (r.mb st.key).size → o % 4 = 0 →
      let old := word4 (newestScratch (r.mb st.key)) o
      let b := reqVal e x.selB 0
      let c := reqVal e x.selC 0
      ∃ t p new, exec (.spatom a x) s = .next t ∧ Filled q p x [old] ∧
        (x.tyN ≠ 8 → new = spatomValue (x.m 23 20) (x.tyN == 2) old b c) ∧
        (x.tyN = 8 → new = spatomNew (x.m 23 20) 8 old b c) ∧
        Shadows s t a r st lane .scratch o (leBytes 4 new.toNat) p q) := by
  obtain ⟨hargs, hop, -⟩ := word_of_mbTakes h rfl rfl
  have htarget : mbTarget r (afterTake st) e = .scratch o 1 := by
    simp only [mbTarget, hargs, hop, linkVal_eq_reqVal, ho]
  obtain ⟨hfaults, hgoes⟩ := scratch_of_takes (k := fun _ st e q s o _ =>
    let old := ((s.mbOf a.task st.key).words o 1).getD 0 0#32
    let new := spatomNew (x.m 23 20) x.tyN old (linkVal e.2.recs x.selB) (linkVal e.2.recs x.selC)
    storeShadow a.task st .scratch o (leBytes 4 new.toNat) (withWords x q [old]) q s) h rfl htarget
  refine ⟨hfaults, fun hsize halign => ?_⟩
  obtain ⟨w, hw⟩ := hgoes hsize halign
  have hold : ((taken s a st).mbOf a.task (afterTake st).key).words o 1 = [word4 (newestScratch (r.mb st.key)) o] := by
    rw [mbOf_taken (run?_of_takes h), afterTake_key, words_eq]
    rfl
  simp only [hold, List.getD_cons_zero, linkVal_eq_reqVal] at hw
  exact ⟨_, _, _, hw, filled_withWords q x (List.cons_ne_nil _ _), fun hty => spatomNew_eq_spatomValue hty .., fun hty => by rw [hty],
    shadows_storeShadow (run?_of_takes h) ..⟩

end

end Sys2Proof.Machine
end

section
/-! PROOFS. Memory-bank accesses of memory (R192, R194, R198, R199): the lines an access needs, and what L1LD, L1ST, TLD and TST make of
the one request of a service cycle. -/

namespace Sys2Proof.Machine
open Sys2Proof.Machine.Claims

/-! ## Extents and bytes -/

theorem eq_of_covered_singleton {e y : Extent} {ea n : Nat} {right : Right} (h : covered [e] ea n right = .ok y) : y = e := by
  unfold covered at h
  split at h
  · exact nomatch h
  · dsimp only at h
    split at h
    · next z hz =>
      have hmem : z ∈ [e] := List.mem_of_mem_filter (List.mem_of_find?_eq_some hz)
      exact (Except.ok.inj h).symm.trans (List.mem_singleton.mp hmem)
    · exact nomatch h

theorem getD_memBytes (m : List (Nat × Byte)) (pa : Nat) {n i : Nat} (hi : i < n) :
    (memBytes m pa n).getD i 0#8 = memByte m (pa + i) := by
  induction n generalizing pa i with
  | zero => exact absurd hi (Nat.not_lt_zero i)
  | succ n ih =>
    cases i with
    | zero => rfl
    | succ i =>
      rw [memBytes, List.getD_cons_succ, ih _ (Nat.lt_of_succ_lt_succ hi)]
      congr 1
      omega

/-- R194: bytes at consecutive physical addresses through the shadow lines are the newest ones. -/
theorem throughShadow_of_flat {y : Extent} {ea n pa : Nat} (hflat : FlatAt y ea n pa) (s : State) (m : MbStore) :
    throughShadow m y ea (memBytes s.mem pa n) = (List.range n).map fun i => newestByte s m (pa + i) := by
  rw [throughShadow, memBytes_length]
  refine List.map_congr_left fun i hi => ?_
  obtain ⟨attr, hplace⟩ := hflat i (List.mem_range.mp hi)
  rw [hplace, getD_memBytes _ _ (List.mem_range.mp hi)]
  rfl

theorem take_drop_range_four {n i : Nat} (hi : i < n) : ((List.range (4 * n)).drop (4 * i)).take 4 =
    [4 * i, 4 * i + 1, 4 * i + 2, 4 * i + 3] := by
  obtain ⟨k, hk⟩ : ∃ k, 4 * n - 4 * i = k + 4 := ⟨4 * n - 4 * i - 4, by omega⟩
  rw [List.range_eq_range', List.drop_range', hk, Nat.mul_one, Nat.zero_add]
  rfl

/-- R198: the words that consecutive bytes from an address on make. -/
theorem words_of_bytes (f : Nat → Byte) (pa n : Nat) : ((List.range (4 * n / 4)).map fun i =>
    BitVec.ofNat 32 (leNat ((((List.range (4 * n)).map fun i => f (pa + i)).drop (4 * i)).take 4))) =
    (List.range n).map fun i => word4 f (pa + 4 * i) := by
  rw [Nat.mul_div_cancel_left n (by omega)]
  refine List.map_congr_left fun i hi => ?_
  rw [← List.map_drop, ← List.map_take, take_drop_range_four (List.mem_range.mp hi)]
  exact ofNat_leNat_four f (pa + 4 * i)

/-! ## Lines (R192) -/

/-- R192: the two lines that the first and the last byte of an access lie in. -/
theorem l1Lines_find? {y : Extent} {ea n pa : Nat} (hn : 0 < n) (hflat : FlatAt y ea n pa) (p : Nat → Bool) :
    (l1Lines y ea n).find? p = [pa / 128, (pa + n - 1) / 128].find? p := by
  obtain ⟨attr, hfirst⟩ := flatAt_place hflat hn
  obtain ⟨attr', hlast⟩ := hflat (n - 1) (by omega)
  rw [← Nat.add_sub_assoc hn, ← Nat.add_sub_assoc hn] at hlast
  have hlines : l1Lines y ea n = [pa / 128, (pa + n - 1) / 128].eraseDups := by
    rw [l1Lines, List.filterMap_cons, hfirst, List.filterMap_cons, hlast]
    rfl
  rw [hlines, List.eraseDups_cons, List.find?_cons, List.find?_cons]
  cases hp : p (pa / 128) with
  | true => rfl
  | false =>
    by_cases heq : (pa + n - 1) / 128 = pa / 128
    · simp [heq, hp]
    · simp [heq, List.eraseDups_cons]

theorem contains_of_find? {l l' : List Nat} (h : ∀ p, l.find? p = l'.find? p) (k : Nat) : l.contains k = l'.contains k := by
  have hany (l : List Nat) : l.contains k = (l.find? (k == ·)).isSome := by
    rw [List.contains_eq_any_beq, List.isSome_find?]
  rw [hany, hany, h]

/-- Only the order and the members of the lines count. -/
theorem withLines_congr {l l' : List Nat} (h : ∀ p, l.find? p = l'.find? p) (t : W64) (st : Site) (q : Rec) (s : State)
    (k : State → MbRes) : withLines t st l q s k = withLines t st l' q s k := by
  unfold withLines State.l1Seen
  simp only [h, contains_of_find? h]

section
variable {s : State} {a : SiteRef} {r : Run} {st : Site} {lane : Nat} {q : Rec} {lines : List Nat}

theorem taken_frame (s : State) (a : SiteRef) (st : Site) :
    taken s a st = { s with cc := (taken s a st).cc, runs := (taken s a st).runs } := State.modRun_frame ..

theorem lineHeld_taken (s : State) (a : SiteRef) (st : Site) (k : Nat) : ((taken s a st).l1.any fun c =>
    decide (c.task = a.task ∧ c.mb = (afterTake st).key ∧ c.line = k)) = lineHeld s a st k := by
  rw [taken_frame, afterTake_key]
  rfl

theorem eraseSeen_eq_heldBut (q : Rec) (wait : List Rec) : eraseSeen wait q = heldBut q wait := by
  unfold eraseSeen heldBut
  simp only [List.contains_iff_mem]

theorem l1Seen_eq_shownAgain (s : State) (a : SiteRef) (st : Site) (lines : List Nat) (q : Rec) :
    s.l1Seen a.task (afterTake st).key lines q = shownAgain s a st lines q := by
  unfold State.l1Seen shownAgain
  simp only [eraseSeen_eq_heldBut, afterTake_key]

theorem withLines_of_held (h : ∀ k ∈ lines, lineHeld s a st k = true) (f : State → MbRes) :
    withLines a.task (afterTake st) lines q (taken s a st) f = f (shownAgain (taken s a st) a st lines q) := by
  have hnone : (lines.find? fun k => !lineHeld s a st k) = none := by
    simpa using h
  rw [withLines]
  simp only [lineHeld_taken, hnone, l1Seen_eq_shownAgain]

theorem afterTake_at (st : Site) (h : W64) : (afterTake st).at h = st.at h := by
  unfold afterTake
  split <;> rfl

theorem afterTake_missq (st : Site) : (afterTake st).core.missq = st.core.missq := by
  unfold afterTake
  split <;> rfl

theorem misses_of_find? (hr : s.run? a.task = some r) {k : Nat} (h : (lines.find? fun k => !lineHeld s a st k) = some k)
    (f : State → MbRes) : Misses s ((mbAnswer a r (afterTake st) lane
      (withLines a.task (afterTake st) lines q (taken s a st) f)).wakeSite a.task (siteKey a.row a.col)) a r st lane q k := by
  have hsite : (r.putSite (afterTake st)).site? (afterTake st).key = some (afterTake st) := Run.site?_putSite ..
  rw [withLines, Misses]
  simp only [lineHeld_taken, h, run?_taken hr, hsite, Option.getD_some, afterTake_missq, afterTake_at]
  split <;> rfl

end

/-! ## One request to memory (R198, R199, R363) -/

section
variable {s : State} {i : Instr} {a : SiteRef} {x : SiteArgs} {r : Run} {st : Site} {lane : Nat} {e : WinEnt} {q : Rec}

section
variable {k : Run → Site → Nat × WinEnt → Rec → State → Extent → Nat → Nat → MbRes}
  {z : Run → Site → Nat × WinEnt → Rec → State → MbRes} {right : Right}
  (h : MbTakes s i a r st lane e q)
  (hexec : exec i s = mbWord i a s fun r st e q s => withMem a.task r st e right s (k r st e q s) (z r st e q s))
include h hexec

/-- R198: an access that is aligned and granted is performed. -/
theorem memory_of_takes {e0 y : Extent} {ea n align : Nat}
    (htarget : mbTarget r (afterTake st) e = .mem (some e0) ea n align) (halign : ea % align = 0)
    (hcov : covered [e0] ea n right = .ok y) : ∃ w, exec i s = .next ((mbAnswer a r (afterTake st) lane
      (k r (afterTake st) (w, e) q (taken s a st) y ea n)).wakeSite a.task (siteKey a.row a.col)) := by
  obtain ⟨w, hw⟩ := mbWord_of_takes h fun r st e q s => withMem a.task r st e right s (k r st e q s) (z r st e q s)
  refine ⟨w, hexec.trans (hw.trans ?_)⟩
  simp only [withMem, htarget, halign, ne_eq, not_true_eq_false, if_false, hcov]

/-- R199: an element outside its tensor is no access at all. -/
theorem nowhere_of_takes (htarget : mbTarget r (afterTake st) e = .nowhere) : ∃ w, exec i s = .next ((mbAnswer a r (afterTake st) lane
      (z r (afterTake st) (w, e) q (taken s a st))).wakeSite a.task (siteKey a.row a.col)) := by
  obtain ⟨w, hw⟩ := mbWord_of_takes h fun r st e q s => withMem a.task r st e right s (k r st e q s) (z r st e q s)
  refine ⟨w, hexec.trans (hw.trans ?_)⟩
  simp only [withMem, htarget]

end

theorem extTarget_of_extent {ext : Nat} {e0 : Extent} (h : extentOf r.lease r.extn ext = some e0) (off n align : Nat) :
    extTarget r ext off n align = .mem (some e0) (e0.base + off) n align := by
  rw [extTarget, h]

/-- R192: a request that needs lines puts its words into its record where all of them are held, and misses where one is not. -/
theorem loads_of_lines (h : MbTakes s i a r st lane e q) {lines : List Nat} {f : State → MbRes} {ws : List W32} (hws : ws ≠ [])
    (hexec : exec i s = .next ((mbAnswer a r (afterTake st) lane
      (withLines a.task (afterTake st) lines q (taken s a st) f)).wakeSite a.task (siteKey a.row a.col)))
    (hf : f (shownAgain (taken s a st) a st lines q) = .ok (.done (withWords x q ws), shownAgain (taken s a st) a st lines q)) :
    ((∀ k ∈ lines, lineHeld s a st k = true) → ∃ t p, exec i s = .next t ∧ Filled q p x ws ∧
      MbSends (shownAgain (taken s a st) a st lines q) t a r st [(lane, p)] []) ∧
    (∀ k, lines.find? (fun k => !lineHeld s a st k) = some k → ∃ t, exec i s = .next t ∧ Misses s t a r st lane q k) := by
  refine ⟨fun hheld => ?_, fun k hk => ⟨_, hexec, misses_of_find? (run?_of_takes h) hk f⟩⟩
  rw [withLines_of_held hheld, hf] at hexec
  exact ⟨_, _, hexec, filled_withWords q x hws, rfl⟩

theorem mem_shownAgain (s : State) (a : SiteRef) (st : Site) (lines : List Nat) (q : Rec) :
    (shownAgain (taken s a st) a st lines q).mem = s.mem := State.modRun_mem ..

theorem err_shownAgain (s : State) (a : SiteRef) (st : Site) (lines : List Nat) (q : Rec) :
    (shownAgain (taken s a st) a st lines q).err = s.err := State.modRun_err ..

theorem mbOf_shownAgain (hr : s.run? a.task = some r) (lines : List Nat) (k : Nat) :
    (shownAgain (taken s a st) a st lines q).mbOf a.task k = r.mb k := mbOf_taken hr st k

/-- L1LD where its address is granted: its lines, then its words (R192, R198). -/
def l1ldGo (a : SiteRef) (x : SiteArgs) (st : Site) (e : Nat × WinEnt) (q : Rec) (s : State) (y : Extent) (ea n : Nat) : MbRes :=
  withLines a.task st (l1Lines y ea n) q s fun s => memRes a.task st e (readVa s [y] ea n) fun bs t =>
    let l := throughShadow (t.mbOf a.task st.key) y ea bs
    .ok (.done (withWords x q ((List.range (n / 4)).map fun i => BitVec.ofNat 32 (leNat ((l.drop (4 * i)).take 4)))), t)

theorem exec_l1ld (a : SiteRef) (x : SiteArgs) (s : State) : exec (.l1ld a x) s = mbWord (.l1ld a x) a s fun r st e q s =>
    withMem a.task r st e .r s (l1ldGo a x st e q s) (.ok (.held, s)) := rfl

/-- L1LD (R198, R192). -/
theorem exec_l1ld_of_takes {n off pa : Nat} {y : Extent} (hn : n = 2 ^ x.m 23 22)
    (hoff : off = (reqVal e x.selA 0).toNat * 2 ^ x.m 21 19 + x.m 14 0) (h : MbTakes s (.l1ld a x) a r st lane e q)
    (hreach : MbReaches r (x.m 18 15) off (4 * n) .r y pa)
    (hgo : ∀ e0, extentOf r.lease r.extn (x.m 18 15) = some e0 →
      (e0.base + off) % (4 * n) = 0 ∧ badIn s y (e0.base + off) (4 * n) = none) :
    ((∀ k ∈ [pa / 128, (pa + 4 * n - 1) / 128], lineHeld s a st k = true) → ∃ t p, exec (.l1ld a x) s = .next t ∧
      Filled q p x ((List.range n).map fun j => word4 (newestByte s (r.mb st.key)) (pa + 4 * j)) ∧
      MbSends (shownAgain (taken s a st) a st [pa / 128, (pa + 4 * n - 1) / 128] q) t a r st [(lane, p)] []) ∧
    (∀ k, [pa / 128, (pa + 4 * n - 1) / 128].find? (fun k => !lineHeld s a st k) = some k →
      ∃ t, exec (.l1ld a x) s = .next t ∧ Misses s t a r st lane q k) := by
  obtain ⟨hargs, hop, -⟩ := word_of_mbTakes h rfl rfl
  obtain ⟨e0, hext, hcov, -, hflat⟩ := hreach
  obtain ⟨halign, hbad⟩ := hgo e0 hext
  have hr := run?_of_takes h
  have hpos : 0 < n := hn ▸ Nat.two_pow_pos _
  have htarget : mbTarget r (afterTake st) e = .mem (some e0) (e0.base + off) (4 * n) (4 * n) := by
    simp only [mbTarget, hargs, hop, linkVal_eq_reqVal, mbC, hoff, hn]
    exact extTarget_of_extent hext ..
  obtain ⟨w, hw⟩ := memory_of_takes h (exec_l1ld a x s) htarget halign hcov
  rw [l1ldGo, withLines_congr (l1Lines_find? (by omega) hflat)] at hw
  refine loads_of_lines h (by simpa using hpos.ne') hw ?_
  rw [readVa_of_flat_congr (s := s) (by omega) (eq_of_covered_singleton hcov ▸ hcov) hflat hbad
    (mem_shownAgain ..) (congrArg ErrLog.bad (err_shownAgain ..))]
  simp only [memRes, mbOf_shownAgain hr, afterTake_key, throughShadow_of_flat hflat, words_of_bytes]


/-! ## Stores to memory (R194, R198, R199) -/

theorem storeMem_of_flat {y : Extent} {ea n pa : Nat} (hflat : FlatAt y ea n pa) (hn : 0 < n) (t : W64) (st : Site) (bs : List Byte)
    (q : Rec) (s : State) : storeMem t st y ea bs q s = storeShadow t st .phys pa bs q q s := by
  obtain ⟨attr, hplace⟩ := flatAt_place hflat hn
  rw [storeMem, hplace]

theorem exec_l1st (a : SiteRef) (x : SiteArgs) (s : State) : exec (.l1st a x) s = mbWord (.l1st a x) a s fun r st e q s =>
    withMem a.task r st e .w s (fun y ea _ => storeMem a.task st y ea (storeWords x e.2 (mbC x)) q s) (.ok (.held, s)) := rfl

/-- L1ST (R198, R194). -/
theorem exec_l1st_of_takes {n off pa : Nat} {y : Extent} (hn : n = 2 ^ x.m 23 22)
    (hoff : off = (reqVal e x.selA 0).toNat * 2 ^ x.m 21 19 + x.m 14 0) (h : MbTakes s (.l1st a x) a r st lane e q)
    (hreach : MbReaches r (x.m 18 15) off (4 * n) .w y pa)
    (hgo : ∀ e0, extentOf r.lease r.extn (x.m 18 15) = some e0 → (e0.base + off) % (4 * n) = 0) :
    ∃ t, exec (.l1st a x) s = .next t ∧ Shadows s t a r st lane .phys pa
      ((List.range n).flatMap fun j => leBytes 4 (reqVal e x.selB j).toNat) q q := by
  obtain ⟨hargs, hop, hok⟩ := word_of_mbTakes h rfl rfl
  have hsel := selOk_of_mbWordOk (.inr rfl) hok
  obtain ⟨e0, hext, hcov, -, hflat⟩ := hreach
  have hpos : 0 < n := hn ▸ Nat.two_pow_pos _
  have htarget : mbTarget r (afterTake st) e = .mem (some e0) (e0.base + off) (4 * n) (4 * n) := by
    simp only [mbTarget, hargs, hop, linkVal_eq_reqVal, mbC, hoff, hn]
    exact extTarget_of_extent hext ..
  obtain ⟨w, hw⟩ := memory_of_takes h (exec_l1st a x s) htarget (hgo e0 hext) hcov
  rw [storeMem_of_flat hflat (by omega), storeWords_eq hsel, mbC, ← hn] at hw
  exact ⟨_, hw, shadows_storeShadow (run?_of_takes h) ..⟩

/-! ## Tensor elements (R199) -/

theorem tidFmt_lt (t : Tid) : tidFmt t < 16 := Nat.mod_lt _ (by decide)

theorem contBytes_pos {f : Nat} (hlt : f < 16) (hf : f ≠ 15) : 0 < contBytes f :=
  (by decide : ∀ f < 16, f ≠ 15 → 0 < contBytes f) f hlt hf

/-- R199: the target of a TLD or TST, inside its tensor and outside. -/
theorem elemTarget_of_outside {t : Tid} {i j : Nat} (h : tidDim t 0 ≤ i ∨ tidDim t 1 ≤ j) :
    elemTarget r t i j = .nowhere := if_pos h

theorem elemTarget_of_inside {t : Tid} {i j : Nat} (hi : i < tidDim t 0) (hj : j < tidDim t 1) {e0 : Extent}
    (hext : extentOf r.lease r.extn (tidExt t) = some e0) : elemTarget r t i j =
      .mem (some e0) (e0.base + (rowOff t j 0 0 + (elemPos (tidFmt t) i).1)) (contBytes (tidFmt t)) 1 := by
  rw [elemTarget, if_neg (by omega)]
  exact extTarget_of_extent hext ..

/-- TLD where its element is granted: the lease of its scale byte, the lines of both, then its value (R199). -/
def tldGo (a : SiteRef) (x : SiteArgs) (r : Run) (st : Site) (e : Nat × WinEnt) (q : Rec) (s : State)
    (y : Extent) (ea n : Nat) : MbRes :=
  match tldScaleFault r x e.2 with
  | some z => .error (s.regionAcc a.task (siteInfo st e.2.lane 0#64 0) z)
  | none => withLines a.task st (l1Lines y ea n ++ scaleLines r x e.2) q s fun s =>
      memRes a.task st e (readValue s r.lease r.extn (mbTid r x) false (tldIndex x e.2).1 (tldIndex x e.2).2) fun v u =>
        .ok (.done (withWords x q [BitVec.ofNat 32 (convertG (tidFmt (mbTid r x)) x.tyN x.rndN false false 0#32 v).1]), u)

theorem exec_tld (a : SiteRef) (x : SiteArgs) (s : State) : exec (.tld a x) s = mbWord (.tld a x) a s fun r st e q s =>
    withMem a.task r st e .r s (tldGo a x r st e q s) (.ok (.done (withWords x q [0#32]), s)) := rfl

theorem tldIndex_eq (x : SiteArgs) (e : WinEnt) :
    tldIndex x e = ((reqVal e x.selA 0).toNat, if x.selB = .none then 0 else (reqVal e x.selB 0).toNat) := by
  simp only [tldIndex, linkVal_eq_reqVal]

theorem tld_target (h : MbTakes s (.tld a x) a r st lane e q) :
    mbTarget r (afterTake st) e = elemTarget r (mbTid r x) (tldIndex x e).1 (tldIndex x e).2 := by
  obtain ⟨hargs, hop, -⟩ := word_of_mbTakes h rfl rfl
  simp only [mbTarget, hargs, hop, tldIndex]

/-- TLD of an element inside its tensor (R199, R192). -/
theorem exec_tld_of_inside {A j : Nat} {T : Tid} (hT : T = mbTid r x) (hij : tldIndex x e = (A, j)) (hf : tidFmt T ≠ 15)
    (h : MbTakes s (.tld a x) a r st lane e q) (hi : A < tidDim T 0) (hj : j < tidDim T 1) {y : Extent} {pa : Nat} {v : Num}
    (hreach : MbReaches r (tidExt T) (rowOff T j 0 0 + (elemPos (tidFmt T) A).1) (contBytes (tidFmt T)) .r y pa)
    (hscale : tldScaleFault r x e = none) {lines : List Nat}
    (hlines : lines = [pa / 128, (pa + contBytes (tidFmt T) - 1) / 128] ++ scaleLines r x e)
    (hread : readValue (shownAgain (taken s a st) a st lines q) r.lease r.extn T false A j =
      (.ok v, shownAgain (taken s a st) a st lines q)) :
    ((∀ k ∈ lines, lineHeld s a st k = true) → ∃ t p, exec (.tld a x) s = .next t ∧
      Filled q p x [BitVec.ofNat 32 (convertG (tidFmt T) x.tyN x.rndN false false 0#32 v).1] ∧
      MbSends (shownAgain (taken s a st) a st lines q) t a r st [(lane, p)] []) ∧
    (∀ k, lines.find? (fun k => !lineHeld s a st k) = some k →
      ∃ t, exec (.tld a x) s = .next t ∧ Misses s t a r st lane q k) := by
  subst hT
  obtain ⟨e0, hext, hcov, -, hflat⟩ := hreach
  have htarget := tld_target h
  rw [hij] at htarget
  obtain ⟨w, hw⟩ := memory_of_takes h (exec_tld a x s) (htarget.trans (elemTarget_of_inside hi hj hext)) (Nat.mod_one _) hcov
  have hfind (p : Nat → Bool) : (l1Lines y (e0.base + (rowOff (mbTid r x) j 0 0 + (elemPos (tidFmt (mbTid r x)) A).1))
      (contBytes (tidFmt (mbTid r x))) ++ scaleLines r x e).find? p = lines.find? p := by
    rw [hlines, List.find?_append, List.find?_append, l1Lines_find? (contBytes_pos (tidFmt_lt _) hf) hflat]
  simp only [tldGo, hscale, hij] at hw
  rw [withLines_congr hfind] at hw
  refine loads_of_lines h (List.cons_ne_nil _ _) hw ?_
  simp only [hread, memRes]

theorem exec_tld_of_outside {A j : Nat} (hij : tldIndex x e = (A, j)) (h : MbTakes s (.tld a x) a r st lane e q)
    (hout : tidDim (mbTid r x) 0 ≤ A ∨ tidDim (mbTid r x) 1 ≤ j) :
    ∃ t p, exec (.tld a x) s = .next t ∧ Filled q p x [0#32] ∧ MbSends (taken s a st) t a r st [(lane, p)] [] := by
  have htarget := tld_target h
  rw [hij, elemTarget_of_outside hout] at htarget
  obtain ⟨w, hw⟩ := nowhere_of_takes h (exec_tld a x s) htarget
  exact ⟨_, _, hw, filled_withWords q x (List.cons_ne_nil _ _), rfl⟩

/-- R199: the code that a TST stores. -/
def tstCode (r : Run) (x : SiteArgs) (e : WinEnt) : Nat :=
  (convertG x.tyN (tidFmt (mbTid r x)) x.rndN (x.m 17 17 == 1) false 0#32 (decodeNum x.tyN false (reqVal e x.selB 0).toNat)).1

theorem exec_tst (a : SiteRef) (x : SiteArgs) (s : State) : exec (.tst a x) s = mbWord (.tst a x) a s fun r st e q s =>
    withMem a.task r st e .w s (fun y ea n => storeMem a.task st y ea (leBytes n (tstCode r x e.2)) q s) (.ok (.done q, s)) := by
  simp only [tstCode, ← linkVal_eq_reqVal]
  rfl

theorem tst_target (h : MbTakes s (.tst a x) a r st lane e q) : mbTarget r (afterTake st) e = elemTarget r (mbTid r x)
    (reqVal e x.selA 0).toNat (if x.selC = .none then 0 else (reqVal e x.selC 0).toNat) := by
  obtain ⟨hargs, hop, -⟩ := word_of_mbTakes h rfl rfl
  simp only [mbTarget, hargs, hop, linkVal_eq_reqVal]

theorem exec_tst_of_inside (hf : tidFmt (mbTid r x) ≠ 15) (h : MbTakes s (.tst a x) a r st lane e q) {A j : Nat}
    (hA : A = (reqVal e x.selA 0).toNat) (hj' : j = if x.selC = .none then 0 else (reqVal e x.selC 0).toNat)
    (hi : A < tidDim (mbTid r x) 0) (hj : j < tidDim (mbTid r x) 1) {y : Extent} {pa : Nat}
    (hreach : MbReaches r (tidExt (mbTid r x)) (rowOff (mbTid r x) j 0 0 + (elemPos (tidFmt (mbTid r x)) A).1)
      (contBytes (tidFmt (mbTid r x))) .w y pa) :
    ∃ t, exec (.tst a x) s = .next t ∧
      Shadows s t a r st lane .phys pa (leBytes (contBytes (tidFmt (mbTid r x))) (tstCode r x e)) q q := by
  obtain ⟨e0, hext, hcov, -, hflat⟩ := hreach
  have htarget := tst_target h
  rw [← hA, ← hj'] at htarget
  obtain ⟨w, hw⟩ := memory_of_takes h (exec_tst a x s) (htarget.trans (elemTarget_of_inside hi hj hext)) (Nat.mod_one _) hcov
  rw [storeMem_of_flat hflat (contBytes_pos (tidFmt_lt _) hf)] at hw
  exact ⟨_, hw, shadows_storeShadow (run?_of_takes h) ..⟩

theorem exec_tst_of_outside (h : MbTakes s (.tst a x) a r st lane e q) (hout : tidDim (mbTid r x) 0 ≤ (reqVal e x.selA 0).toNat ∨
      tidDim (mbTid r x) 1 ≤ if x.selC = .none then 0 else (reqVal e x.selC 0).toNat) :
    ∃ t, exec (.tst a x) s = .next t ∧ MbSends (taken s a st) t a r st [(lane, q)] [] := by
  obtain ⟨w, hw⟩ := nowhere_of_takes h (exec_tst a x s) ((tst_target h).trans (elemTarget_of_outside hout))
  exact ⟨_, hw, rfl⟩

end

end Sys2Proof.Machine
end

section
/-! PROOFS. PARK (R200, R246), the service cycle of a memory bank (R191) and the arrival of a line (R192); settles O50. -/

namespace Sys2Proof.Machine
open Sys2Proof.Machine.Claims

/-! ## An empty future (R200, R246) -/

/-- The vigil entry of a future does not hold while the future is empty. -/
theorem holds_of_empty {u : State} {pa : Nat} {big : Bool} {c : Nat} (hc : c = if big then 8 else 4)
    (hword : leNat (memBytes u.mem pa c) = 2 ^ (8 * c) - 1) (w : Waiter) :
    Vigil.holds ⟨1, big, pa, BitVec.allOnes 64, BitVec.allOnes 64, w⟩ u = false := by
  subst hc
  cases big with
  | true =>
    simp only [if_true] at hword
    simp only [Vigil.holds, vigilWord, if_true, hword]
    rfl
  | false =>
    simp only [Bool.false_eq_true, if_false] at hword
    simp only [Vigil.holds, vigilWord, Bool.false_eq_true, if_false, hword]
    rfl

/-- R227, R228, R246: with room at its home and nothing held before it, the read of an empty future arms its entry. -/
theorem attempt_of_empty {u : State} {pa : Nat} {big : Bool} {c : Nat} (hc : c = if big then 8 else 4)
    (hword : leNat (memBytes u.mem pa c) = 2 ^ (8 * c) - 1) (hbad : u.badAt pa c = none)
    (hroom : roomIn (homeDie pa) (u.entries (homeDie pa)) = true) (hheld : ∀ o ∈ u.heldOps, o.pa ≠ pa) (h : W64) (k id : Nat) :
    u.attempt ⟨homeDie pa, pa, big, false, .futrd, .parked h k id⟩ =
      u.armVigil ⟨1, big, pa, BitVec.allOnes 64, BitVec.allOnes 64, .parked h k id⟩ := by
  have hfree : (u.heldOps.any fun o => o.pa == pa) = false := by simpa using hheld
  have hholds := holds_of_empty hc hword (.parked h k id)
  subst hc
  simp only [State.attempt, State.roomFor, hroom, Bool.or_true, hfree, Bool.not_false, Bool.and_self, if_true, HomeKind.reads,
    HomeOp.span, hbad, State.performAt, Bool.false_eq_true, if_false, State.perform, hword, State.futureAt, State.armVigil, hholds]

/-! ## PARK (R200) -/

section
variable {s : State} {a : SiteRef} {x : SiteArgs} {r : Run} {st : Site} {lane : Nat} {e : WinEnt} {q : Rec}

/-- PARK where its address is granted: an uncorrectable error, or the word at its place (R200). -/
def parkGo (a : SiteRef) (x : SiteArgs) (st : Site) (e : Nat × WinEnt) (q : Rec) (s : State) (y : Extent) (ea n : Nat) : MbRes :=
  match badIn s y ea n, y.place ea with
  | some pa, _ => .error (s.regionAcc a.task (siteInfo st e.2.lane 0#64 0) (.memory pa n 4))
  | none, .phys pa _ => parkAt a.task st x ea pa (decide (x.m 23 23 = 1)) q s
  | none, .peer w off =>
    if isSelf s w then
      match ingress s s.dev.devno.toNat w.win off n true false false w.key with
      | .ok pa => parkAt a.task st x ea pa (decide (x.m 23 23 = 1)) q s
      | .error z => .error (s.regionAcc a.task (siteInfo st e.2.lane 0#64 0) (.import ea n 4 z))
    else parkRec a.task st x ea (decide (x.m 23 23 = 1)) q s

theorem exec_park (a : SiteRef) (x : SiteArgs) (s : State) : exec (.park a x) s = mbWord (.park a x) a s fun r st e q s =>
    withMem a.task r st e .r s (parkGo a x st e q s) (.ok (.held, s)) := rfl

/-- PARK of a word of this device's memory (R200). -/
theorem exec_park_of_takes {off c pa : Nat} {y e0 : Extent} (hc : c = if x.m 23 23 = 1 then 8 else 4)
    (hoff : off = (reqVal e x.selA 0).toNat * 2 ^ x.m 18 16) (h : MbTakes s (.park a x) a r st lane e q)
    (hreach : MbReaches r (x.m 22 19) off c .r y pa) (hext : extentOf r.lease r.extn (x.m 22 19) = some e0)
    (halign : (e0.base + off) % c = 0) (hbad : badIn s y (e0.base + off) c = none) :
    exec (.park a x) s = .next ((mbAnswer a r (afterTake st) lane
      (parkAt a.task (afterTake st) x (e0.base + off) pa (decide (x.m 23 23 = 1)) q (taken s a st))).wakeSite a.task
        (siteKey a.row a.col)) := by
  obtain ⟨hargs, hop, -⟩ := word_of_mbTakes h rfl rfl
  obtain ⟨e1, hext', hcov, hpeer, hflat⟩ := hreach
  obtain rfl : e0 = e1 := Option.some.inj (hext.symm.trans hext')
  have htarget : mbTarget r (afterTake st) e = .mem (some e0) (e0.base + off) c c := by
    simp only [mbTarget, hargs, hop, linkVal_eq_reqVal, ← hoff, ← hc]
    exact extTarget_of_extent hext ..
  have hpos : 0 < c := by
    rw [hc]
    split <;> omega
  obtain ⟨attr, hplace⟩ := flatAt_place hflat hpos
  have hnone : badIn (taken s a st) y (e0.base + off) c = none :=
    (badIn_congr hpeer (congrArg ErrLog.bad (State.modRun_err s a.task fun r => r.putSite (afterTake st))) _ _).trans hbad
  obtain ⟨w, hw⟩ := memory_of_takes h (exec_park a x s) htarget halign hcov
  simpa only [parkGo, hnone, hplace] using hw

theorem parkWords (big : Prop) [Decidable big] (w : Nat) :
    (if decide big = true then [(BitVec.ofNat 64 w).setWidth 32, (BitVec.ofNat 64 w >>> 32).setWidth 32]
      else [(BitVec.ofNat 64 w).setWidth 32]) =
    BitVec.ofNat 32 w :: if big then [BitVec.ofNat 32 (w / 2 ^ 32)] else [] := by
  have hlow : (BitVec.ofNat 64 w).setWidth 32 = BitVec.ofNat 32 w := by
    apply BitVec.eq_of_toNat_eq
    simp
  have hhigh : (BitVec.ofNat 64 w >>> 32).setWidth 32 = BitVec.ofNat 32 (w / 2 ^ 32) := by
    apply BitVec.eq_of_toNat_eq
    simp [Nat.shiftRight_eq_div_pow]
    omega
  by_cases hb : big
  · simp [hb, hlow, hhigh]
  · simp [hb, hlow]

theorem parkAt_of_full {c pa va w : Nat} (hc : c = if x.m 23 23 = 1 then 8 else 4) (hw : leNat (memBytes s.mem pa c) = w)
    (hfull : w ≠ 2 ^ (8 * c) - 1) (t : W64) (st : Site) (q : Rec) :
    parkAt t st x va pa (decide (x.m 23 23 = 1)) q s = .ok (.done (withWords x q
      (BitVec.ofNat 32 w :: if x.m 23 23 = 1 then [BitVec.ofNat 32 (w / 2 ^ 32)] else [])), s) := by
  have hsize : (if decide (x.m 23 23 = 1) = true then 8 else 4) = c := by simp [hc]
  simp only [parkAt, parkValue, hsize, hw, if_pos hfull, parkWords]

/-- A record parks at its site. -/
def parked (s : State) (a : SiteRef) (st : Site) (p : ParkEnt) : State :=
  ({ taken s a st with free := s.free + 1 }).putSite a.task { afterTake st with
    core := { (afterTake st).core with parked := st.core.parked ++ [p] } }

theorem parked_frame (s : State) (a : SiteRef) (st : Site) (p : ParkEnt) :
    parked s a st p = { s with cc := (parked s a st p).cc, runs := (parked s a st p).runs, free := s.free + 1 } := by
  have htaken : { taken s a st with free := s.free + 1 } =
      { s with cc := (taken s a st).cc, runs := (taken s a st).runs, free := s.free + 1 } := by
    rw [taken_frame]
  rw [parked, htaken, State.putSite, State.modRun_frame]

theorem afterTake_parked (st : Site) : (afterTake st).core.parked = st.core.parked := by
  unfold afterTake
  split <;> rfl

theorem parkRec_of_run? (hr : s.run? a.task = some r) (x : SiteArgs) (va : Nat) (big : Bool) :
    parkRec a.task (afterTake st) x va big q (taken s a st) = .ok (.held,
      (parked s a st ⟨s.free, q, va, big, x.dstN - 8, none⟩).armPark a.task (r.putSite (afterTake st)) st.key
        ⟨s.free, q, va, big, x.dstN - 8, none⟩) := by
  have hsite : (r.putSite (afterTake st)).site? st.key = some (afterTake st) :=
    afterTake_key st ▸ Run.site?_putSite ..
  have hfree : (taken s a st).free = s.free := by rw [taken_frame]
  simp only [parkRec, run?_taken hr, hsite, Option.getD_some, hfree, afterTake_parked, afterTake_key, State.fresh, parked]

/-- R200, R246: an empty word parks its record, and its entry is armed. -/
theorem parkAt_of_empty {c pa va : Nat} (hr : s.run? a.task = some r) (hc : c = if x.m 23 23 = 1 then 8 else 4)
    (hlease : ∃ z attr, r.lease.find? (fun z => z.idx != 16 && z.holds va c) = some z ∧ z.place va = .phys pa attr)
    (hempty : leNat (memBytes s.mem pa c) = 2 ^ (8 * c) - 1) (hbad : s.badAt pa c = none)
    (hroom : roomIn (homeDie pa) (s.entries (homeDie pa)) = true) (hheld : ∀ o ∈ s.heldOps, o.pa ≠ pa) :
    parkAt a.task (afterTake st) x va pa (decide (x.m 23 23 = 1)) q (taken s a st) =
      .ok (.held, (parked s a st ⟨s.free, q, va, decide (x.m 23 23 = 1), x.dstN - 8, none⟩).armVigil
          ⟨1, decide (x.m 23 23 = 1), pa, BitVec.allOnes 64, BitVec.allOnes 64, .parked a.task st.key s.free⟩) := by
  have hsize : (if decide (x.m 23 23 = 1) = true then 8 else 4) = c := by simp [hc]
  have hmem : (taken s a st).mem = s.mem := State.modRun_mem ..
  obtain ⟨z, attr, hfind, hplace⟩ := hlease
  rw [← hsize] at hfind
  rw [parkAt]
  simp only [hsize, hmem, hempty, ne_eq, not_true_eq_false, if_false]
  rw [parkRec_of_run? hr, State.armPark]
  generalize hu : parked s a st ⟨s.free, q, va, decide (x.m 23 23 = 1), x.dstN - 8, none⟩ = u
  have hframe : u = { s with cc := u.cc, runs := u.runs, free := s.free + 1 } := hu ▸ parked_frame ..
  simp only [show (r.putSite (afterTake st)).lease = r.lease from rfl, hfind, hplace]
  have harm := attempt_of_empty (u := u) hsize.symm (by rw [hframe]; exact hempty) (by rw [hframe]; exact hbad)
    (by rw [hframe]; exact hroom) (by rw [hframe]; exact hheld) a.task st.key s.free
  rw [harm]

end

/-! ## The service cycle (R191) -/

theorem grants_grantBanks (banks : WinEnt → List Nat) (busy : List Nat) (l : List WinEnt) :
    Grants banks busy l (grantBanks banks busy l).1 (grantBanks banks busy l).2.1 (grantBanks banks busy l).2.2 := by
  induction l generalizing busy with
  | nil => exact .none busy
  | cons e l ih =>
    rw [grantBanks]
    by_cases hbusy : (banks e).any busy.contains = true
    · rw [if_pos hbusy]
      exact .wait _ _ _ _ _ _ (by simpa using hbusy) (ih busy)
    · rw [if_neg hbusy]
      exact .grant _ _ _ _ _ _ (by simpa using hbusy) (ih _)

/-- MB_SERVICE_CYCLE of a site whose inputs have joined, or are quiet (R191, R193). -/
theorem exec_mbServiceCycle {s : State} {a : SiteRef} {r : Run} {st : Site} (h : SiteAt s (.mbServiceCycle a) a r st)
    (hgo : st.joined = true ∨ r.quietFor st.key = true) (hwin : st.core.win.length ≤ 32) :
    let st0 := st.takeHeads.2
    let got := st.takeHeads.1
    let new := if got.isEmpty then [] else (List.range 16).filterMap fun l => (joinLane st.used got l).map fun recs => WinEnt.mk l recs
    let gone := (new.filter fun e => (absentIn e.recs).isSome).filterMap fun e => (startRec e.recs).map fun q => (e.lane, q)
    ∃ t old lanes back busy wait busy1 win late, exec (.mbServiceCycle a) s = .next t ∧
      Grants (mbBanks r st) [] st.core.win old back busy ∧
      Grants (mbBanks r st) busy (new.filter fun e => (absentIn e.recs).isNone) lanes wait busy1 ∧
      (let reqs := old.map (fun e => (1, e)) ++ lanes.map fun e => (0, e)
       (reqs ≠ [] → win = st.core.win ∧ late = []) ∧
       (reqs = [] → win = (st.core.win ++ wait).take 32 ∧ late = (st.core.win ++ wait).drop 32) ∧
       let st1 := { st0 with
          core := { st.core with win := win, parked := st.core.parked.filter fun p => p.val.isNone }
          mb := if reqs.isEmpty then none else some ⟨reqs, wait⟩ }
       t = (((s.putSite a.task st1).emitPacked a.task st1 3
            ((st.core.parked.filter fun p => p.val.isSome).filterMap ParkEnt.woken)).emitPlaced a.task st1 3
          (gone ++ late.filterMap fun e => (startRec e.recs).map fun q => (e.lane, q))).wakeSite a.task (siteKey a.row a.col)) := by
  intro st0 got new gone
  have hexec : exec (.mbServiceCycle a) s = .next ((s.serve a.task r st).wakeSite a.task (siteKey a.row a.col)) :=
    withEvent_of_siteAt h _
  have htake : (st.joined || r.quietFor st.key) = true := by simpa using hgo
  let old := grantBanks (mbBanks r st) [] st.core.win
  let lanes := grantBanks (mbBanks r st) old.2.2 (new.filter fun e => (absentIn e.recs).isNone)
  let reqs := old.1.map (fun e => (1, e)) ++ lanes.1.map fun e => (0, e)
  let iw := if reqs.isEmpty then intoWindow st.core.win lanes.2.1 else (st.core.win, [])
  refine ⟨_, old.1, lanes.1, old.2.1, old.2.2, lanes.2.1, lanes.2.2, iw.1, iw.2, hexec, grants_grantBanks .., grants_grantBanks ..,
    fun hreqs => ?_, fun hreqs => ?_, ?_⟩
  · have hiw : iw = (st.core.win, []) := if_neg (mt List.isEmpty_iff.mp hreqs)
    rw [hiw]
    exact ⟨rfl, rfl⟩
  · have hiw : iw = ((st.core.win ++ lanes.2.1).take 32, (st.core.win ++ lanes.2.1).drop 32) :=
      (if_pos (List.isEmpty_iff.mpr hreqs)).trans (intoWindow_eq hwin _)
    rw [hiw]
    exact ⟨rfl, rfl⟩
  · rw [State.serve, htake]
    rfl

/-! ## The arrival of a line (R192) -/

/-- What a line's arrival makes of the cached lines does not depend on the contexts. -/
theorem State.l1Put_modRun (s : State) (h : W64) (f : Run → Run) (t : W64) (k room line : Nat) (wait : List Rec) :
    (s.modRun h f).l1Put t k room line wait = { s with l1 := (s.l1Put t k room line wait).l1 }.modRun h f := by
  unfold State.modRun
  split
  · rfl
  · split <;> rfl

section
variable {s : State} {a : SiteRef} {r : Run} {st : Site} {k line room : Nat} {wait : List Rec}

/-- The lines of an MB's partition, and whether one of them is among them. -/
def l1Of (s : State) (a : SiteRef) (k : Nat) : List L1Copy := s.l1.filter fun c => decide (c.task = a.task ∧ c.mb = k)
def l1Has (s : State) (a : SiteRef) (k line : Nat) : Bool := (l1Of s a k).any fun c => decide (c.line = line)

theorem lineHeld_eq_l1Has (hkey : st.key = k) (line : Nat) : lineHeld s a st line = l1Has s a k line := by
  rw [lineHeld, l1Has, l1Of, List.any_filter, hkey]
  simp only [Bool.decide_and, Bool.and_assoc]

theorem l1Fits_eq (s : State) (a : SiteRef) (k room line : Nat) : s.l1Fits a.task k room line =
    (decide ((l1Of s a k).length < room) || (l1Of s a k).any fun c => decide (c.line = line) || c.wait.isEmpty) := rfl

theorem l1Fits_of_place (h : l1Has s a k line = true ∨ (l1Of s a k).length < room ∨ ∃ c ∈ l1Of s a k, c.wait = []) :
    s.l1Fits a.task k room line = true := by
  rw [l1Fits_eq, Bool.or_eq_true, List.any_eq_true]
  rw [l1Has, List.any_eq_true] at h
  obtain ⟨c, hc, hline⟩ | hroom | ⟨c, hc, hwait⟩ := h
  · exact .inr ⟨c, hc, by rw [hline]; rfl⟩
  · exact .inl (decide_eq_true hroom)
  · exact .inr ⟨c, hc, by rw [hwait]; exact Bool.or_true _⟩

theorem l1Fits_of_full (hheld : l1Has s a k line = false) (hroom : room ≤ (l1Of s a k).length)
    (hwait : ∀ c ∈ l1Of s a k, c.wait ≠ []) : s.l1Fits a.task k room line = false := by
  rw [l1Fits_eq, Bool.or_eq_false_iff, List.any_eq_false]
  rw [l1Has, List.any_eq_false] at hheld
  refine ⟨decide_eq_false (by omega), fun c hc => ?_⟩
  rw [Bool.or_eq_true, not_or]
  exact ⟨hheld c hc, by simpa using hwait c hc⟩

/-- A line that is held takes the records beside those that hold it. -/
theorem l1Put_of_held (h : l1Has s a k line = true) : (s.l1Put a.task k room line wait).l1 =
    s.l1.map fun c => if decide (c.task = a.task ∧ c.mb = k) && decide (c.line = line) then { c with wait := c.wait ++ wait } else c := by
  rw [l1Has, l1Of] at h
  simp only [State.l1Put, h, Bool.true_or, if_true, Option.any_none, Bool.not_false, List.filter_true]

theorem l1Put_of_room (h : l1Has s a k line = false) (hroom : (l1Of s a k).length < room) :
    (s.l1Put a.task k room line wait).l1 = s.l1 ++ [⟨a.task, k, line, wait⟩] := by
  rw [l1Has, l1Of] at h
  rw [l1Of] at hroom
  simp only [State.l1Put, h, decide_eq_true hroom, Bool.or_true, Bool.false_eq_true, if_true, if_false, Option.any_none, Bool.not_false,
    List.filter_true]

/-- In a full partition the first line that nothing holds gives way. -/
theorem l1Put_of_full (h : l1Has s a k line = false) (hroom : room ≤ (l1Of s a k).length) {c : L1Copy}
    (hc : (l1Of s a k).find? (fun c => c.wait.isEmpty) = some c) : (s.l1Put a.task k room line wait).l1 =
      (s.l1.filter fun d => !decide (c = d)) ++ [⟨a.task, k, line, wait⟩] := by
  rw [l1Has, l1Of] at h
  rw [l1Of] at hroom hc
  simp only [State.l1Put, h, Bool.false_or, decide_eq_false (Nat.not_lt.mpr hroom), Bool.false_eq_true, if_false, hc, Option.any_some]

/-- A site whose miss queue no longer asks for a line, and the records that asked for it. -/
def withoutLine (st : Site) (line : Nat) : Site :=
  { st with core := { st.core with missq := st.core.missq.filter fun z => z.line != line } }
def askers (st : Site) (line : Nat) : List Rec := (st.core.missq.filter fun z => z.line == line).map (·.rec_)

/-- A line's arrival at a site whose miss queue asks for it. -/
theorem exec_l1LineArrival (hlive : s.live? a.task = some r) (hsite : r.site? (siteKey a.row a.col) = some st)
    (hkey : st.key = siteKey a.row a.col) (hmb : st.isMb = true) (hmiss : ∃ z ∈ st.core.missq, z.line = line) :
    exec (.l1LineArrival a line) s =
      .next ((if s.l1Fits a.task (siteKey a.row a.col) (r.mb st.key).room line then
        ((s.modRun a.task fun u => u.putSite (withoutLine st line)).l1Put a.task (siteKey a.row a.col) (r.mb st.key).room line
          (askers st line)).emitPacked a.task (withoutLine st line) 3 (askers st line)
        else s.push (.l1LineArrival a line)).wakeSite a.task (siteKey a.row a.col)) := by
  have hasks : (st.core.missq.filter fun z => z.line == line).isEmpty = false := by
    simpa [List.isEmpty_eq_false_iff] using hmiss
  have hexec : exec (.l1LineArrival a line) s = execL1LineArrival a line s := rfl
  rw [hexec, execL1LineArrival, withSite, hlive, ← hkey]
  rw [← hkey] at hsite
  simp only [hsite, hmb, hasks, Bool.not_true, Bool.or_false, Bool.false_eq_true, if_false]
  cases s.l1Fits a.task st.key (r.mb st.key).room line <;> rfl

end

/-- Settles O50: each word by the place that its one request goes to (R196 to R200), the service cycle by its two grants (R191), a
line's arrival by the room that its partition has (R192). -/
theorem memoryBankWordsReadStoreAndPark : Obligations.MemoryBankWordsReadStoreAndPark := by
  unfold Obligations.MemoryBankWordsReadStoreAndPark
  intro a x s r st lane e q m key A n badScratch loads words
  refine ⟨?spld, ?spldi, ?spst, ?spatom, ?l1, ?tensor, ?park, ?cycle, ?arrives, ?waits⟩
  case spld => exact fun h => spLoad_of_takes h rfl (word_of_mbTakes h rfl rfl).1 (spld_of_takes h)
  case spldi => exact fun h => spLoad_of_takes h rfl (word_of_mbTakes h rfl rfl).1 (spldi_of_takes h)
  case spst => exact exec_spst_of_takes rfl rfl
  case spatom => exact exec_spatom_of_takes rfl
  case l1 => exact fun y pa => ⟨exec_l1ld_of_takes rfl rfl, exec_l1st_of_takes rfl rfl⟩
  case tensor =>
    intro T f j j' off hf
    refine ⟨fun h => ⟨exec_tld_of_outside (tldIndex_eq x e) h, ?_⟩, fun h => ⟨exec_tst_of_outside h, ?_⟩⟩
    · intro hi hj y pa v hreach hscale lines u hread
      exact exec_tld_of_inside rfl (tldIndex_eq x e) hf h hi hj hreach hscale rfl hread
    · intro hi hj y pa hreach
      exact exec_tst_of_inside hf h rfl rfl hi hj hreach
  case park =>
    intro h y pa big c off hreach e0 hext halign hbad hlease w
    have hexec := exec_park_of_takes rfl rfl h hreach hext halign hbad
    have hr := run?_of_takes h
    refine ⟨fun hfull => ?_, fun hempty hnone hroom hheld => ?_⟩
    · have hw : leNat (memBytes (taken s a st).mem pa c) = w := congrArg (fun m => leNat (memBytes m pa c)) (State.modRun_mem ..)
      rw [parkAt_of_full rfl hw hfull] at hexec
      exact ⟨_, _, hexec, filled_withWords q x (List.cons_ne_nil _ _), rfl⟩
    · rw [parkAt_of_empty hr rfl hlease hempty hnone hroom hheld] at hexec
      exact ⟨_, hexec, rfl⟩
  case cycle => exact exec_mbServiceCycle
  case arrives =>
    intro line hlive hsite hkey hmb hmiss st1 recs mine hplace
    have hheld := lineHeld_eq_l1Has (s := s) (a := a) hkey line
    have hfits : s.l1Fits a.task key m.room line = true := by
      refine l1Fits_of_place ?_
      rw [hheld] at hplace
      exact hplace.imp_right (Or.imp_right fun ⟨c, hc, hmine, hwait⟩ => ⟨c, List.mem_filter.mpr ⟨hc, hmine⟩, hwait⟩)
    have hexec := exec_l1LineArrival hlive hsite hkey hmb hmiss
    rw [hfits, if_pos rfl, State.l1Put_modRun] at hexec
    rw [hheld]
    exact ⟨_, _, hexec, rfl, l1Put_of_held, l1Put_of_room, fun hnot hroom _ => l1Put_of_full hnot hroom⟩
  case waits =>
    intro line hlive hsite hkey hmb hmiss hheld there hroom hwait
    rw [lineHeld_eq_l1Has hkey] at hheld
    have hexec := exec_l1LineArrival hlive hsite hkey hmb hmiss
    rw [l1Fits_of_full hheld hroom hwait] at hexec
    exact ⟨_, hexec, rfl⟩

end Sys2Proof.Machine
end
